-- ==== Sys2Proof/Word.lean ====
section
/-!
DEFINITION. The words of the machine and the sparse map that every table, register file and memory of the state is held in.
A sparse map is a list of (key, value) pairs with strictly rising keys, and it lists no value that an unlisted key reads as,
so equal contents are equal data.
-/

namespace Sys2Proof

/-- A register word (R4, R160): 64 bits. -/
abbrev Word := BitVec 64

/-- A byte of any memory of the device. -/
abbrev Byte := BitVec 8

/-- A sparse table: key and value pairs, keys strictly rising. -/
abbrev SMap (α : Type) := List (Nat × α)

namespace SMap

variable {α : Type}

/-- The value under key `k`; an unlisted key reads as `d k`. -/
def get (d : Nat → α) : SMap α → Nat → α
  | [], k => d k
  | (k', v) :: m, k => if k' = k then v else get d m k

/-- The table without key `k`. -/
def erase : SMap α → Nat → SMap α
  | [], _ => []
  | (k', v) :: m, k => if k' = k then erase m k else (k', v) :: erase m k

/-- Insert a pair before the first larger key. -/
def insert : SMap α → Nat → α → SMap α
  | [], k, v => [(k, v)]
  | (k', v') :: m, k, v => if k < k' then (k, v) :: (k', v') :: m else (k', v') :: insert m k v

/-- Write `v` under `k`; the value an unlisted key reads as removes the entry. -/
def set [DecidableEq α] (d : Nat → α) (m : SMap α) (k : Nat) (v : α) : SMap α :=
  if v = d k then erase m k else insert (erase m k) k v

/-- Change the value under `k`. -/
def modify [DecidableEq α] (d : Nat → α) (m : SMap α) (k : Nat) (g : α → α) : SMap α :=
  set d m k (g (get d m k))

/-- Canonical form: keys strictly rise and no entry equals what an unlisted key reads as. -/
def wf [DecidableEq α] (d : Nat → α) : SMap α → Bool
  | [] => true
  | (k, v) :: m => decide (v ≠ d k) && (match m with | [] => true | (k', _) :: _ => decide (k < k')) && wf d m

end SMap
end Sys2Proof
end

