-- ==== Sys2Proof/Config.lean ====
section
/-!
DEFINITION. The values that the specification leaves open. Each is an opaque constant: nothing in Lean can evaluate it, so
a statement about it holds for every value.
-/

namespace Sys2Proof.Config

/-- Draw `n` of a PTB sequence under a seed, before it is brought into its range (R532): 0 the stall sequence, 1 the delay
sequence (DESIGN CHOICE, log entry 11). -/
opaque ptbDraw : (seed : Nat) → (sequence : Nat) → (n : Nat) → Nat

/-- Draw `n` of the servo's slew: how far the estimate is slewed towards the sources in one tick, in units of 2^-32 ns, before it is
brought under SLEW_PPM and the offset that is left; it may depend on BANDWIDTH (R21) (DESIGN CHOICE, log entry 13). -/
opaque servoSlew : (bandwidth n : Nat) → Nat

/-- The frequency correction that the servo takes at its `n`th combination: a change of the estimate in units of 2^-32 ns for each
tick; it may depend on BANDWIDTH (R23) (DESIGN CHOICE, log entry 13). -/
opaque servoFreq : (bandwidth n : Nat) → Int

/-- Whether the servo's `n`th combined offset or error bound, where it is no whole number of ns, is shown rounded up (R20, R23)
(DESIGN CHOICE, log entry 12). -/
opaque roundUp : (n : Nat) → Bool

/-- Whether block `b`'s copy of fabric time reads 1 ns less than FTU_NOW (R178) (DEDUCED, log entry 6). -/
opaque blockLag : (b : Nat) → Bool

/-- The region that SCH_DOORBELL_INVALID names as its source for a queue that is bound to no context (R285, R310) (DESIGN CHOICE, log entry 14). -/
opaque doorbellRegion : (queue : Nat) → Nat

/-- The 32 bits of RX_PWR when link `k` receives light (R330) (DESIGN CHOICE, log entry 15). -/
opaque rxPower : (link : Nat) → Nat

/-- FEC symbols corrected in the codewords of a received frame, by link and number of the frame (R316) (DESIGN CHOICE, log entry 101). -/
opaque fecCorrected : (link frame : Nat) → Nat

/-- The first transmit session of link `k` after full device reset `n` (R335) (DESIGN CHOICE, log entry 16). -/
opaque session : (link n : Nat) → Nat

/-- Header fields of a CREDIT packet that the specification gives no value: 0 DST, 1 TAG, 2 OPID, 3 OFFSET (R350)
(DESIGN CHOICE, log entry 17). -/
opaque creditHdr : (link : Nat) → (field : Nat) → Nat

/-- The bytes that fill the last packet of a block up to a multiple of 8, by OPID and OFFSET (R350) (DESIGN CHOICE, log entry 18). -/
opaque plaitPad : (opid : Nat) → (offset : Nat) → BitVec 8

/-- What a journal record of a management message holds where the specification does not say: of the message's type and payload,
field 0 is KIND of an accepted message, 1 OFFSET, 2 OLD and 3 NEW (R435, R523) (DESIGN CHOICE, log entry 19). -/
opaque msgRecord : (type : Nat) → (payload : List (BitVec 8)) → (field : Nat) → Nat

/-- SEQ of the first mail that the lid sends after upsett (R498) (DESIGN CHOICE, log entry 21). -/
opaque mailSeq0 : Nat

/-- The line that the Josil cache evicts for a fill when it is full, by the fill's line and the lines held (R459) (DESIGN CHOICE, log entry 22). -/
opaque cacheVictim : (line held : Nat) → Nat

/-- The TYPE of the message that carries SELF_FENCED to the fabric manager (R429) (DESIGN CHOICE, log entry 23). -/
opaque selfFencedType : Nat

/-- Whether 1.10 times an estimate that is no whole number of W is shown rounded up in POWER_W (R516) (DESIGN CHOICE, log entry 12). -/
opaque powerUp : (estimateW : Nat) → Bool

/-- The vendor's public keys in the lid ROM, by slot, 68 bytes each (R479) (DESIGN CHOICE, log entry 24). -/
opaque vendorKey : (slot : Nat) → List (BitVec 8)

/-- The vendor's signature over the identity public key, from the one-time-programmable array (R486) (DESIGN CHOICE, log entry 24). -/
opaque identityCert : List (BitVec 8)

/-- What an EVENT record of the lid holds where the specification gives no code or value: `what` is 0 an epoch fuse burn, 1 a
revocation fuse burn, 2 a rollback fuse burn, 3 an image load, each with its number `n`; field 0 is OFFSET, 1 OLD, 2 NEW (R495)
(DESIGN CHOICE, log entry 25). -/
opaque lidEvent : (what n field : Nat) → Nat

/-- RESULT of LID_CMD where no rule gives one: a command that the lid refuses (`why` 0), or a request block that could not be read
(`why` 1) (R489, R499) (DESIGN CHOICE, log entry 25). -/
opaque lidResult : (why op : Nat) → Nat

/-- The fabric time of the request in a RESET_REPORT of KIND 2, which the full device reset has lost (R427, R435) (DESIGN CHOICE, log entry 26). -/
opaque reportTime : (resets : Nat) → Nat

/-- How far into its first period a default watchdog fires, by slot (a chip slot, or 256 and more for region slots) (R422)
(DESIGN CHOICE, log entry 26). -/
opaque wdPhase : (slot : Nat) → Nat

/-- Where source and destination of a move overlap: does a byte whose source byte the move has written end holding that source byte as it
was before the move, by the move, the row and the place in the row (R240) (DEDUCED, log entry 33)? -/
opaque moveOverlap : (id row col : Nat) → Bool

/-- The value field of an answer to a register access that is not performed, by STATUS and offset (R524, R542) (DESIGN CHOICE, log entry 23). -/
opaque rspValue : (status off : Nat) → Nat

/-- Does the update lane of a block's array take the ports of its accumulator set in a clk (R260)? (DESIGN CHOICE, log entry 97). -/
opaque updateLane : (b clk : Nat) → Bool

/-- A byte that a save has written, by the save and the place in its range: the layout is the device's (R302) (DESIGN CHOICE, log entry 32). -/
opaque saveByte : (save offset : Nat) → BitVec 8

/-- The channel of a stack in which a frame lies: the mapping is internal to the stack's controller (R229, R247) (DESIGN CHOICE, log entry
101). -/
opaque hbmChannel : (stack frame : Nat) → Nat

/-- Does the fetch at an address miss in a block's instruction cache? What the cache holds is the device's own (R182) (DESIGN CHOICE, log
entry 105). -/
opaque fetchMiss : (b pc clk : Nat) → Bool

end Sys2Proof.Config
end

