-- ==== Sys2Proof/Machine/Codes.lean ====
section
/-!
DEFINITION. The error codes (R6), as the chapters' code tables list them, and which of them are the memory system's faults and the causes of
a block's leaving service.
-/

namespace Sys2Proof.Machine

def ARR_TRANSIENT : Nat := 0x0101
def ARR_COLUMN_RETIRED : Nat := 0x0102
def ARR_UNREPAIRABLE : Nat := 0x0103
def STAKE_ORIGIN_LOST : Nat := 0x0104
def ACC_PARITY : Nat := 0x0105
def FORMAT_INVALID : Nat := 0x0106
def SLOT_RANGE : Nat := 0x0107
def STAKE_EMPTY : Nat := 0x0108
def STAKE_MISMATCH : Nat := 0x0109
def ACC_RANGE : Nat := 0x010A
def OPERAND_RANGE : Nat := 0x010B
def OPERAND_ALIGN : Nat := 0x010C
def FIELD_INVALID : Nat := 0x010D
def STAKE_SOURCE : Nat := 0x010E
def VEC_FIELD_INVALID : Nat := 0x0201
def VL_RANGE : Nat := 0x0202
def VEC_ADDR_RANGE : Nat := 0x0203
def VEC_ADDR_ALIGN : Nat := 0x0204
def VEC_FORMAT_INVALID : Nat := 0x0205
def VREG_PARITY : Nat := 0x0206
def ILLEGAL_INSTRUCTION : Nat := 0x0581
def CORE_FIELD_INVALID : Nat := 0x0582
def PC_ALIGN : Nat := 0x0583
def LOCAL_ADDR_RANGE : Nat := 0x0584
def LOCAL_ADDR_ALIGN : Nat := 0x0585
def CSR_ACCESS : Nat := 0x0586
def CORE_BREAK : Nat := 0x0587
def CORE_PARITY : Nat := 0x0588
def CORE_UNREPAIRABLE : Nat := 0x0589
def ACC_OVERFLOW : Nat := 0x0A01
def XLATE_INVALID : Nat := 0x0401
def XLATE_WRITE : Nat := 0x0402
def XLATE_EXEC : Nat := 0x0403
def XLATE_FORMAT : Nat := 0x0404
def VADDR_RANGE : Nat := 0x0405
def MEM_PROTECTED : Nat := 0x0406
def MEM_TARGET : Nat := 0x0407
def POISONED : Nat := 0x0408
def HBM_READ_LOST : Nat := 0x0409
def HBM_WRITE_LOST : Nat := 0x040A
def MOVE_SOURCE_LOST : Nat := 0x040B
def MOVE_FIELD_INVALID : Nat := 0x040C
def MOVE_RANGE : Nat := 0x040D
def MOVE_ALIGN : Nat := 0x040E
def OPSTORE_PARITY : Nat := 0x040F
def MOVE_POISON_CARRIED : Nat := 0x0420
def HBM_TRANSIENT : Nat := 0x0430
def HBM_FRAME_RETIRED : Nat := 0x0431
def HBM_REMAP_FULL : Nat := 0x0432
def HBM_CHANNEL_FAILED : Nat := 0x0433
def SRAM_TRANSIENT : Nat := 0x0434
def SRAM_ROW_RETIRED : Nat := 0x0435
def SCH_CMD_REFUSED : Nat := 0x0501
def SCH_DOORBELL_INVALID : Nat := 0x0502
def SCH_ENTRY_INVALID : Nat := 0x0503
def SCH_ENTRY_FETCH : Nat := 0x0504
def SCH_SAVE_LOST : Nat := 0x0505
def SCH_TASK_EXIT : Nat := 0x0506
def SCH_START_MISSED : Nat := 0x0507
def SCH_STEP_LATE : Nat := 0x0508
def SCH_EVICTED : Nat := 0x0509
def SCH_DEBT_MISSED : Nat := 0x050A
def SCH_CTX_FREE : Nat := 0x050B
def SCH_SLICE_SHORT : Nat := 0x050C
def RIM_UP : Nat := 0x0601
def RIM_DOWN : Nat := 0x0602
def RIM_MISWIRED : Nat := 0x0603
def RIM_LOOPED : Nat := 0x0604
def RIM_OPEN : Nat := 0x0605
def RIM_INCOMPATIBLE : Nat := 0x0606
def RIM_FENCED : Nat := 0x0607
def RIM_WINDOW_LOST : Nat := 0x0608
def RIM_RETRAIN : Nat := 0x0609
def RIM_CFG_INVALID : Nat := 0x060A
def RIM_TRANSIT_DROP : Nat := 0x060B
def PLT_STRAGGLER : Nat := 0x0301
def PLT_POISON_CARRIED : Nat := 0x0302
def PLT_DESC_INVALID : Nat := 0x0303
def PLT_PORT_DENIED : Nat := 0x0304
def PLT_SEGMENT_LOST : Nat := 0x0305
def PLT_COUNT_MISMATCH : Nat := 0x0306
def PLT_HOLD_INVALID : Nat := 0x0307
def PLT_OUTSIDE_REF : Nat := 0x0308
def PLT_DOORBELL_DROP : Nat := 0x0309
def RPT_MAP_REFUSED : Nat := 0x030A
def SHARD_VERSION : Nat := 0x0311
def COIL_COMMITTED : Nat := 0x0960
def COIL_ABORTED : Nat := 0x0961
def COIL_VOID : Nat := 0x0962
def COIL_RESTORED : Nat := 0x0963
def COIL_CFG_REFUSED : Nat := 0x0964
def RPL_FULL : Nat := 0x0968
def RPL_DIVERGED : Nat := 0x0969
def RPL_CFG_REFUSED : Nat := 0x096A
def RPL_DONE : Nat := 0x096B
def TIME_DEGRADED : Nat := 0x0950
def MGMT_PORT_DOWN : Nat := 0x0951
def REFCLK_LOST : Nat := 0x0952
def DIODE_OPEN : Nat := 0x0953
def SMBUS_STUCK : Nat := 0x0954
def ATTEST_EXHAUSTED : Nat := 0x0955
def WD_NO_RETIRE : Nat := 0x0901
def WD_SCHED_HEARTBEAT : Nat := 0x0902
def WD_PLAIT_OVERRUN : Nat := 0x0903
def WD_COMPANION_LOST : Nat := 0x0904
def WD_LID : Nat := 0x0905
def PART_RESET_DONE : Nat := 0x0910
def FULL_RESET_NEEDED : Nat := 0x0911
def RST_REFUSED : Nat := 0x0913
def PEER_RESET : Nat := 0x0920
def PEER_FENCED : Nat := 0x0921
def SELF_FENCED : Nat := 0x0922
def READMITTED : Nat := 0x0923
def CORE_TRANSIENT : Nat := 0x0940
def VREG_TRANSIENT : Nat := 0x0941
def BLOCK_OUT : Nat := 0x0943
def RTS_CLEAN : Nat := 0x0948
def RTS_FAULTS : Nat := 0x0949
def JSL_TIMEOUT : Nat := 0x0701
def JSL_TARGET_FAULT : Nat := 0x0702
def JSL_RETRAIN : Nat := 0x0703
def JSL_DEGRADED : Nat := 0x0704
def JSL_FAILED : Nat := 0x0705
def BOOT_FETCH : Nat := 0x0801
def BOOT_FORMAT : Nat := 0x0802
def BOOT_KEY_REVOKED : Nat := 0x0803
def BOOT_SIGNATURE : Nat := 0x0804
def BOOT_ROLLBACK : Nat := 0x0805
def BOOT_STEPPING : Nat := 0x0806
def REPAIR_MISMATCH : Nat := 0x0807
def REPAIR_FORMAT : Nat := 0x0808
def HBM_TRAIN_FAILED : Nat := 0x0809
def ATTEST_REFUSED : Nat := 0x0810
def EPOCH_ADVANCED : Nat := 0x0811
def EPOCH_BURN_RETRY : Nat := 0x0812
def AUTH_REFUSED : Nat := 0x0820
def DEBUG_ENABLED : Nat := 0x0821
def KEY_INSTALLED : Nat := 0x0822
def JOURNAL_GAP : Nat := 0x0830
def THERMAL_STOP : Nat := 0x0980

/-- A status code completes a ticket without a fault (R175). -/
def isStatusCode (c : Nat) : Bool :=
  c == 0 || c == ACC_OVERFLOW || c == MOVE_POISON_CARRIED || c == PLT_STRAGGLER || c == PLT_POISON_CARRIED

/-- Is a number the code of a fault of the memory system, of the codes that its chapter lists? -/
def memoryFault (code : Nat) : Bool := decide (XLATE_INVALID ≤ code) && decide (code ≤ OPSTORE_PARITY)

/-- The codes of the causes for which a block leaves service (R431). -/
def outCauses : List Nat := [ARR_UNREPAIRABLE, CORE_UNREPAIRABLE, VREG_PARITY, OPSTORE_PARITY, ACC_PARITY]

end Sys2Proof.Machine
end

