-- ==== Sys2Proof/Machine/Keccak.lean ====
section
/-!
DEFINITION. SHAKE256 and KMAC256, which the journal head (R495), the digests of upsett (R478, R482) and the tags of management
messages (R522) are made with. The functions themselves are those of FIPS 202 and SP 800-185, which the specification names
and does not print (PRESUMED, log entry 4).
-/

namespace Sys2Proof.Machine

/-! ### The permutation

The state is one number of 1,600 bits: byte `i` of the sponge's string stands at bit `8 i`, so lane (x, y) stands at bit
64 (x + 5 y), and a plane, the five lanes of one y, is 320 bits wide. -/

/-- 2^64 - 1: the bits of one lane. -/
def laneOnes : Nat := 2 ^ 64 - 1

/-- `m` in the place of every lane of a plane. -/
def everyLane (m : Nat) : Nat := (List.range 5).foldl (fun v x => v + m <<< (64 * x)) 0

/-- `p` in the place of every plane of the state. -/
def everyPlane (p : Nat) : Nat := (List.range 5).foldl (fun v y => v + p <<< (320 * y)) 0

/-- In every plane, lane `x` takes the value of lane `x + 1`. -/
def nextLane (a : Nat) : Nat :=
  ((a >>> 64) &&& everyPlane (2 ^ 256 - 1)) ||| ((a <<< 256) &&& everyPlane (laneOnes <<< 256))

/-- Every lane of a plane turned left by one bit. -/
def turnPlane (p : Nat) : Nat :=
  ((p <<< 1) &&& everyLane (laneOnes - 1)) ||| ((p >>> 63) &&& everyLane 1)

/-- One lane turned left by `n` bits. -/
def turnLane (v n : Nat) : Nat := (v * 2 ^ n) % 2 ^ 64 + v / 2 ^ (64 - n)

/-- The column parities are added to the two neighbours of each column. -/
def thetaStep (a : Nat) : Nat :=
  let par := (List.range 5).foldl (fun v y => v ^^^ (a >>> (320 * y)) % 2 ^ 320) 0
  let up := nextLane par
  let down := nextLane (nextLane (nextLane up))
  a ^^^ everyPlane (down ^^^ turnPlane up)

/-- The lanes but the first, each turned and moved: the walk starts at lane (1, 0), goes from (x, y) to (y, 2 x + 3 y), and its step `t`
turns the lane by t (t + 1) / 2. `n` steps are left. -/
def walkLanes (a x y : Nat) : Nat → Nat → Nat
  | 0, v => v
  | n + 1, v =>
    let t := 24 - n
    let z := (2 * x + 3 * y) % 5
    walkLanes a y z n (v + turnLane ((a >>> (64 * (x + 5 * y))) &&& laneOnes) (t * (t + 1) / 2 % 64) <<< (64 * (y + 5 * z)))

/-- Each lane is changed where the next lane is 0 and the one after it is 1. -/
def chiStep (a : Nat) : Nat :=
  let one := nextLane a
  a ^^^ ((one ^^^ (2 ^ 1600 - 1)) &&& nextLane one)

/-- The shift register that makes the round constants. -/
def lfsr (r : Nat) : Nat := if r < 128 then 2 * r else (2 * r) ^^^ 0x171

/-- The constant of a round, of which bit 2^j - 1 is the register's output at its `j`-th step, and the register after it. -/
def roundWord (r : Nat) : Nat × Nat :=
  (List.range 7).foldl (fun v j => (v.1 + (v.2 % 2) <<< (2 ^ j - 1), lfsr v.2)) (0, r)

/-- `n` rounds, the shift register standing at `r`. -/
def keccakRounds : Nat → Nat → Nat → Nat
  | 0, _, a => a
  | n + 1, r, a =>
    let a := thetaStep a
    let a := chiStep (walkLanes a 1 0 24 (a &&& laneOnes))
    keccakRounds n (roundWord r).2 (a ^^^ (roundWord r).1)

/-- The permutation of 24 rounds (PRESUMED, log entry 4). -/
def keccakF (a : Nat) : Nat := keccakRounds 24 1 a

/-- Little-endian bytes of a number. -/
def leBytes (n : Nat) : Nat → List Byte
  | 0 => []
  | k + 1 => BitVec.ofNat 8 n :: leBytes (n / 256) k

/-- The number that little-endian bytes hold. -/
def leNat : List Byte → Nat
  | [] => 0
  | b :: bs => b.toNat + 256 * leNat bs

/-- Cut a list into `n` pieces of length `k`. -/
def pieces {α : Type} (k : Nat) : Nat → List α → List (List α)
  | 0, _ => []
  | n + 1, l => l.take k :: pieces k n (l.drop k)

/-- Absorb one block of 136 bytes. -/
def absorb (a : Nat) (blk : List Byte) : Nat := keccakF (a ^^^ leNat blk)

/-- Squeeze `n` blocks of 136 bytes. -/
def squeeze (a : Nat) : Nat → List Byte
  | 0 => []
  | n + 1 => leBytes a 136 ++ squeeze (keccakF a) n

/-- Domain bits and padding to a multiple of 136 bytes. -/
def padKeccak (dom : Nat) (m : List Byte) : List Byte :=
  let z := 136 - (m.length % 136) - 1
  if z = 0 then m ++ [BitVec.ofNat 8 (dom + 0x80)]
  else m ++ [BitVec.ofNat 8 dom] ++ List.replicate (z - 1) 0 ++ [0x80]

/-- The sponge with capacity 512. -/
def sponge256 (dom : Nat) (m : List Byte) (outLen : Nat) : List Byte :=
  let p := padKeccak dom m
  let a := (pieces 136 (p.length / 136) p).foldl absorb 0
  (squeeze a ((outLen + 135) / 136)).take outLen

/-- SHAKE256 with `outLen` bytes of output (PRESUMED, log entry 4). -/
def shake256 (m : List Byte) (outLen : Nat) : List Byte := sponge256 0x1F m outLen

/-- left_encode of a number below 2^16. -/
def leftEncode (n : Nat) : List Byte :=
  if n < 256 then [1, BitVec.ofNat 8 n] else [2, BitVec.ofNat 8 (n / 256), BitVec.ofNat 8 n]

/-- right_encode of a number below 2^16. -/
def rightEncode (n : Nat) : List Byte :=
  if n < 256 then [BitVec.ofNat 8 n, 1] else [BitVec.ofNat 8 (n / 256), BitVec.ofNat 8 n, 2]

/-- encode_string. -/
def encodeString (m : List Byte) : List Byte := leftEncode (8 * m.length) ++ m

/-- bytepad to the rate. -/
def bytepad (m : List Byte) : List Byte :=
  let p := leftEncode 136 ++ m
  p ++ List.replicate ((136 - p.length % 136) % 136) 0

/-- KMAC256 of `m` under `key` with the customization string `cust`, 32 bytes (PRESUMED, log entry 4). -/
def kmac256 (key m cust : List Byte) : List Byte :=
  let name : List Byte := [0x4B, 0x4D, 0x41, 0x43]
  sponge256 0x04 (bytepad (encodeString name ++ encodeString cust) ++ bytepad (encodeString key) ++ m ++ rightEncode 256) 32

/-- The 32-byte value that a number holds, byte 0 lowest. -/
def bytes32 (n : Nat) : List Byte := leBytes n 32

end Sys2Proof.Machine
end

