-- ==== Sys2Proof/Machine/Regs.lean ====
section
/-!
DEFINITION. The registers of the control aperture, as the register tables of the specification give them: for each register
its offset, for each named field its bits, and one table with every field's access code (R5), owning authority (R492) and
reset value. An array of registers is a function of its indices. A field whose reset is given as "fuse" resets to 0 (R9).
-/

namespace Sys2Proof.Machine

/-- A field of a register: the register's offset, the highest and the lowest bit. -/
structure Fld where
  off : Nat
  hi : Nat
  lo : Nat
  deriving DecidableEq, Repr

/-- Access codes (R5); `wol` is LID_KEY, which is written under its authority and reads 0 (R493). -/
inductive Acc
  | ro | rw | rwl | wo | wol | w1c | rsv
  deriving DecidableEq, Repr

/-- Which authority owns the field: none, operator, driver, either of both, debug, vendor firmware, firmware or driver, and
for the notification rings the driver for partition rings and the operator for the chip ring. -/
inductive Own
  | none_ | op | dr | opDr | dbg | fw | fwDr | ring
  deriving DecidableEq, Repr

/-- A field of the register table. -/
structure FieldSpec where
  hi : Nat
  lo : Nat
  acc : Acc
  own : Own
  rst : Nat
  deriving DecidableEq, Repr

/-- A register, or an array of registers: base offset, (count, stride) of each index, largest stride first, and fields. -/
structure RegSpec where
  base : Nat
  dims : List (Nat × Nat)
  fields : List FieldSpec
  deriving DecidableEq, Repr

/-! ### Registers of 01_device_map.md -/

def DIM_ID : Nat := 0x0
def DIM_ID_PART : Fld := ⟨DIM_ID, 63, 48⟩
def DIM_ID_GRADE : Fld := ⟨DIM_ID, 47, 40⟩
def DIM_ID_STEPPING : Fld := ⟨DIM_ID, 39, 32⟩
def DIM_ID_FW_LEVEL : Fld := ⟨DIM_ID, 31, 16⟩
def DIM_ID_ISA_LEVEL : Fld := ⟨DIM_ID, 15, 8⟩
def DIM_UNITS : Nat := 0x8
def DIM_UNITS_ENVELOPE_W : Fld := ⟨DIM_UNITS, 63, 48⟩
def DIM_UNITS_PARTITIONS_MAX : Fld := ⟨DIM_UNITS, 47, 40⟩
def DIM_UNITS_RIM_LINKS : Fld := ⟨DIM_UNITS, 39, 32⟩
def DIM_UNITS_BLOCKS : Fld := ⟨DIM_UNITS, 31, 24⟩
def DIM_UNITS_REGIONS : Fld := ⟨DIM_UNITS, 23, 20⟩
def DIM_UNITS_FAR_MODE : Fld := ⟨DIM_UNITS, 3, 3⟩
def DIM_UNITS_STEP_REPLAY : Fld := ⟨DIM_UNITS, 2, 2⟩
def DIM_UNITS_COMPAT_4200 : Fld := ⟨DIM_UNITS, 1, 1⟩
def DIM_UNITS_VALID : Fld := ⟨DIM_UNITS, 0, 0⟩
def DIM_BLOCK_MASK (i : Nat) : Nat := 0x10 + 0x8 * i
def DIM_BLOCK_MASK_PRESENT (i : Nat) : Fld := ⟨DIM_BLOCK_MASK i, 63, 0⟩
def DIM_RIM_MASK : Nat := 0x20
def DIM_RIM_MASK_PRESENT : Fld := ⟨DIM_RIM_MASK, 35, 0⟩
def DIM_ARRAY : Nat := 0x28
def DIM_ARRAY_LANES : Fld := ⟨DIM_ARRAY, 63, 56⟩
def DIM_ARRAY_SPARE_COLS : Fld := ⟨DIM_ARRAY, 55, 52⟩
def DIM_ARRAY_COL_ROWS : Fld := ⟨DIM_ARRAY, 51, 44⟩
def DIM_ARRAY_COLUMNS : Fld := ⟨DIM_ARRAY, 43, 32⟩
def DIM_ARRAY_TILE_K : Fld := ⟨DIM_ARRAY, 31, 20⟩
def DIM_ARRAY_TILE_M_MAX : Fld := ⟨DIM_ARRAY, 19, 8⟩
def DIM_ARRAY_STAKE_SLOTS : Fld := ⟨DIM_ARRAY, 7, 0⟩
def DIM_MEMORY : Nat := 0x30
def DIM_MEMORY_HBM_STACKS : Fld := ⟨DIM_MEMORY, 63, 56⟩
def DIM_MEMORY_HBM_STACK_GB : Fld := ⟨DIM_MEMORY, 55, 48⟩
def DIM_MEMORY_HBM_PIN_RATE : Fld := ⟨DIM_MEMORY, 47, 36⟩
def DIM_MEMORY_OPSTORE_BANKS_LOG2 : Fld := ⟨DIM_MEMORY, 35, 32⟩
def DIM_MEMORY_STAKE_BANK_LOG2 : Fld := ⟨DIM_MEMORY, 31, 24⟩
def DIM_MEMORY_OPSTORE_LOG2 : Fld := ⟨DIM_MEMORY, 23, 16⟩
def DIM_MEMORY_ACCSTORE_LOG2 : Fld := ⟨DIM_MEMORY, 15, 8⟩
def DIM_COMPUTE : Nat := 0x38
def DIM_COMPUTE_CLK_MHZ : Fld := ⟨DIM_COMPUTE, 63, 48⟩
def DIM_COMPUTE_VLMAX : Fld := ⟨DIM_COMPUTE, 47, 32⟩
def DIM_COMPUTE_VLANES : Fld := ⟨DIM_COMPUTE, 31, 16⟩
def DIM_COMPUTE_VREG_LOG2 : Fld := ⟨DIM_COMPUTE, 15, 8⟩
def DIM_SCHED : Nat := 0x40
def DIM_SCHED_QUEUES : Fld := ⟨DIM_SCHED, 63, 48⟩
def DIM_SCHED_CONTEXTS : Fld := ⟨DIM_SCHED, 47, 32⟩
def DIM_SCHED_SCOREBOARD : Fld := ⟨DIM_SCHED, 31, 16⟩
def DIM_SCHED_TRIGGER_SLOTS : Fld := ⟨DIM_SCHED, 15, 0⟩
def DIM_FABRIC : Nat := 0x48
def DIM_FABRIC_TRACKER : Fld := ⟨DIM_FABRIC, 63, 44⟩
def DIM_FABRIC_BUNDLE_MAPS : Fld := ⟨DIM_FABRIC, 43, 40⟩
def DIM_FABRIC_RIM_PORTS : Fld := ⟨DIM_FABRIC, 39, 32⟩
def DIM_FABRIC_FAR_RTT_US : Fld := ⟨DIM_FABRIC, 31, 16⟩
def DIM_FABRIC_JOSIL_LANES : Fld := ⟨DIM_FABRIC, 15, 8⟩
def DIM_FABRIC_JOSIL_GBPS : Fld := ⟨DIM_FABRIC, 7, 0⟩

/-! ### Registers of 02_fabric_time.md -/

def FTU_NOW : Nat := 0x10000
def FTU_NOW_NOW : Fld := ⟨FTU_NOW, 63, 0⟩
def FTU_STATUS : Nat := 0x10008
def FTU_STATUS_OFFSET_EST : Fld := ⟨FTU_STATUS, 63, 32⟩
def FTU_STATUS_ERR_BOUND : Fld := ⟨FTU_STATUS, 31, 16⟩
def FTU_STATUS_HOPS : Fld := ⟨FTU_STATUS, 15, 12⟩
def FTU_STATUS_SOURCE : Fld := ⟨FTU_STATUS, 11, 8⟩
def FTU_STATUS_DEGRADED : Fld := ⟨FTU_STATUS, 3, 3⟩
def FTU_STATUS_HOLDOVER : Fld := ⟨FTU_STATUS, 2, 2⟩
def FTU_STATUS_LOCKED : Fld := ⟨FTU_STATUS, 1, 1⟩
def FTU_STATUS_EPOCH_SET : Fld := ⟨FTU_STATUS, 0, 0⟩
def FTU_CTRL : Nat := 0x10010
def FTU_CTRL_HOLD_LIMIT_NS : Fld := ⟨FTU_CTRL, 63, 48⟩
def FTU_CTRL_OUTLIER_NS : Fld := ⟨FTU_CTRL, 47, 32⟩
def FTU_CTRL_BEACON_US : Fld := ⟨FTU_CTRL, 31, 24⟩
def FTU_CTRL_PTP_DOMAIN : Fld := ⟨FTU_CTRL, 23, 16⟩
def FTU_CTRL_PTP1_EN : Fld := ⟨FTU_CTRL, 2, 2⟩
def FTU_CTRL_PTP0_EN : Fld := ⟨FTU_CTRL, 1, 1⟩
def FTU_CTRL_BEACON_EN : Fld := ⟨FTU_CTRL, 0, 0⟩
def FTU_EPOCH : Nat := 0x10018
def FTU_EPOCH_EPOCH_ID : Fld := ⟨FTU_EPOCH, 31, 0⟩
def FTU_SERVO : Nat := 0x10020
def FTU_SERVO_SLEW_PPM : Fld := ⟨FTU_SERVO, 63, 48⟩
def FTU_SERVO_STEP_NS : Fld := ⟨FTU_SERVO, 47, 16⟩
def FTU_SERVO_BANDWIDTH : Fld := ⟨FTU_SERVO, 15, 8⟩
def FTU_PATH (p : Nat) : Nat := 0x10100 + 0x8 * p
def FTU_PATH_RTT_NS (p : Nat) : Fld := ⟨FTU_PATH p, 63, 32⟩
def FTU_PATH_ASYM_NS (p : Nat) : Fld := ⟨FTU_PATH p, 31, 0⟩
def FTU_TRIG_TIME (i : Nat) : Nat := 0x11000 + 0x10 * i
def FTU_TRIG_TIME_TIME (i : Nat) : Fld := ⟨FTU_TRIG_TIME i, 63, 0⟩
def RGN_TRIG_TIME (r : Nat) (i : Nat) : Nat := 0x108000 + 0x100000 * r + 0x10 * i
def RGN_TRIG_TIME_TIME (r : Nat) (i : Nat) : Fld := ⟨RGN_TRIG_TIME r i, 63, 0⟩
def FTU_TRIG_CTRL (i : Nat) : Nat := 0x11008 + 0x10 * i
def FTU_TRIG_CTRL_PERIOD_NS (i : Nat) : Fld := ⟨FTU_TRIG_CTRL i, 63, 32⟩
def FTU_TRIG_CTRL_MISSED (i : Nat) : Fld := ⟨FTU_TRIG_CTRL i, 31, 24⟩
def FTU_TRIG_CTRL_TARGET (i : Nat) : Fld := ⟨FTU_TRIG_CTRL i, 23, 12⟩
def FTU_TRIG_CTRL_ACTION (i : Nat) : Fld := ⟨FTU_TRIG_CTRL i, 11, 8⟩
def FTU_TRIG_CTRL_FIRED (i : Nat) : Fld := ⟨FTU_TRIG_CTRL i, 1, 1⟩
def FTU_TRIG_CTRL_ARMED (i : Nat) : Fld := ⟨FTU_TRIG_CTRL i, 0, 0⟩
def RGN_TRIG_CTRL (r : Nat) (i : Nat) : Nat := 0x108008 + 0x100000 * r + 0x10 * i
def RGN_TRIG_CTRL_PERIOD_NS (r : Nat) (i : Nat) : Fld := ⟨RGN_TRIG_CTRL r i, 63, 32⟩
def RGN_TRIG_CTRL_MISSED (r : Nat) (i : Nat) : Fld := ⟨RGN_TRIG_CTRL r i, 31, 24⟩
def RGN_TRIG_CTRL_TARGET (r : Nat) (i : Nat) : Fld := ⟨RGN_TRIG_CTRL r i, 23, 12⟩
def RGN_TRIG_CTRL_ACTION (r : Nat) (i : Nat) : Fld := ⟨RGN_TRIG_CTRL r i, 11, 8⟩
def RGN_TRIG_CTRL_FIRED (r : Nat) (i : Nat) : Fld := ⟨RGN_TRIG_CTRL r i, 1, 1⟩
def RGN_TRIG_CTRL_ARMED (r : Nat) (i : Nat) : Fld := ⟨RGN_TRIG_CTRL r i, 0, 0⟩

/-! ### Registers of 04_weave_array.md -/

def BLK_ARR_CTRL (b : Nat) : Nat := 0x1002000 + 0x10000 * b
def BLK_ARR_CTRL_REPLAY_LIMIT (b : Nat) : Fld := ⟨BLK_ARR_CTRL b, 7, 4⟩
def BLK_ARR_CTRL_SKIP_ALLOW (b : Nat) : Fld := ⟨BLK_ARR_CTRL b, 0, 0⟩
def BLK_ARR_STATUS (b : Nat) : Nat := 0x1002008 + 0x10000 * b
def BLK_ARR_STATUS_LAST_CODE (b : Nat) : Fld := ⟨BLK_ARR_STATUS b, 63, 48⟩
def BLK_ARR_STATUS_LAST_COL (b : Nat) : Fld := ⟨BLK_ARR_STATUS b, 47, 40⟩
def BLK_ARR_STATUS_LAST_ROW (b : Nat) : Fld := ⟨BLK_ARR_STATUS b, 39, 36⟩
def BLK_ARR_STATUS_SELFTEST (b : Nat) : Fld := ⟨BLK_ARR_STATUS b, 4, 4⟩
def BLK_ARR_STATUS_THROTTLED (b : Nat) : Fld := ⟨BLK_ARR_STATUS b, 3, 3⟩
def BLK_ARR_STATUS_OUT_OF_SERVICE (b : Nat) : Fld := ⟨BLK_ARR_STATUS b, 2, 2⟩
def BLK_ARR_STATUS_STOPPED (b : Nat) : Fld := ⟨BLK_ARR_STATUS b, 1, 1⟩
def BLK_ARR_STATUS_BUSY (b : Nat) : Fld := ⟨BLK_ARR_STATUS b, 0, 0⟩
def BLK_ARR_PROGRESS (b : Nat) : Nat := 0x1002010 + 0x10000 * b
def BLK_ARR_PROGRESS_VALID (b : Nat) : Fld := ⟨BLK_ARR_PROGRESS b, 16, 16⟩
def BLK_ARR_PROGRESS_TICKET (b : Nat) : Fld := ⟨BLK_ARR_PROGRESS b, 12, 8⟩
def BLK_ARR_PROGRESS_NEXT_ROW (b : Nat) : Fld := ⟨BLK_ARR_PROGRESS b, 7, 0⟩
def BLK_ARR_REMAP (b : Nat) : Nat := 0x1002018 + 0x10000 * b
def BLK_ARR_REMAP_SPARE1_OK (b : Nat) : Fld := ⟨BLK_ARR_REMAP b, 17, 17⟩
def BLK_ARR_REMAP_SPARE1_USED (b : Nat) : Fld := ⟨BLK_ARR_REMAP b, 16, 16⟩
def BLK_ARR_REMAP_SPARE1_COL (b : Nat) : Fld := ⟨BLK_ARR_REMAP b, 15, 9⟩
def BLK_ARR_REMAP_SPARE0_OK (b : Nat) : Fld := ⟨BLK_ARR_REMAP b, 8, 8⟩
def BLK_ARR_REMAP_SPARE0_USED (b : Nat) : Fld := ⟨BLK_ARR_REMAP b, 7, 7⟩
def BLK_ARR_REMAP_SPARE0_COL (b : Nat) : Fld := ⟨BLK_ARR_REMAP b, 6, 0⟩
def BLK_ARR_COUNT (b : Nat) : Nat := 0x1002020 + 0x10000 * b
def BLK_ARR_COUNT_TRANSIENT (b : Nat) : Fld := ⟨BLK_ARR_COUNT b, 63, 48⟩
def BLK_ARR_COUNT_REPLAYS (b : Nat) : Fld := ⟨BLK_ARR_COUNT b, 47, 32⟩
def BLK_ARR_COUNT_ORIGIN_RELOADS (b : Nat) : Fld := ⟨BLK_ARR_COUNT b, 31, 16⟩
def BLK_ARR_COUNT_RETIRED (b : Nat) : Fld := ⟨BLK_ARR_COUNT b, 15, 8⟩
def BLK_ARR_COUNT_ORIGIN_LOST (b : Nat) : Fld := ⟨BLK_ARR_COUNT b, 7, 0⟩
def BLK_ARR_CYCLES (b : Nat) : Nat := 0x1002028 + 0x10000 * b
def BLK_ARR_CYCLES_COUNT (b : Nat) : Fld := ⟨BLK_ARR_CYCLES b, 63, 0⟩
def BLK_ARR_SKIPPED (b : Nat) : Nat := 0x1002030 + 0x10000 * b
def BLK_ARR_SKIPPED_COUNT (b : Nat) : Fld := ⟨BLK_ARR_SKIPPED b, 63, 0⟩
def BLK_ARR_IDLE (b : Nat) : Nat := 0x1002038 + 0x10000 * b
def BLK_ARR_IDLE_COUNT (b : Nat) : Fld := ⟨BLK_ARR_IDLE b, 63, 0⟩

/-! ### Registers of 06_vector_and_twine.md -/

def BLK_VEC_STATUS (b : Nat) : Nat := 0x1003000 + 0x10000 * b
def BLK_VEC_STATUS_LAST_CODE (b : Nat) : Fld := ⟨BLK_VEC_STATUS b, 63, 48⟩
def BLK_VEC_STATUS_QUEUE (b : Nat) : Fld := ⟨BLK_VEC_STATUS b, 47, 44⟩
def BLK_VEC_STATUS_TWINE_BUSY (b : Nat) : Fld := ⟨BLK_VEC_STATUS b, 1, 1⟩
def BLK_VEC_STATUS_BUSY (b : Nat) : Fld := ⟨BLK_VEC_STATUS b, 0, 0⟩
def BLK_VEC_COUNT (b : Nat) : Nat := 0x1003008 + 0x10000 * b
def BLK_VEC_COUNT_PARITY (b : Nat) : Fld := ⟨BLK_VEC_COUNT b, 63, 32⟩
def BLK_VEC_COUNT_STAT_RECORDS (b : Nat) : Fld := ⟨BLK_VEC_COUNT b, 31, 0⟩
def BLK_VEC_FLAGS (b : Nat) : Nat := 0x1003010 + 0x10000 * b
def BLK_VEC_FLAGS_FLAGS (b : Nat) : Fld := ⟨BLK_VEC_FLAGS b, 5, 0⟩

/-! ### Registers of 07_block_core.md -/

def BLK_CORE_CTRL (b : Nat) : Nat := 0x1001000 + 0x10000 * b
def BLK_CORE_CTRL_REPLAY_LIMIT (b : Nat) : Fld := ⟨BLK_CORE_CTRL b, 7, 4⟩
def BLK_CORE_CTRL_RESUME (b : Nat) : Fld := ⟨BLK_CORE_CTRL b, 1, 1⟩
def BLK_CORE_CTRL_DEBUG_ATTACH (b : Nat) : Fld := ⟨BLK_CORE_CTRL b, 0, 0⟩
def BLK_CORE_STATUS (b : Nat) : Nat := 0x1001008 + 0x10000 * b
def BLK_CORE_STATUS_LAST_CODE (b : Nat) : Fld := ⟨BLK_CORE_STATUS b, 63, 48⟩
def BLK_CORE_STATUS_SET (b : Nat) : Fld := ⟨BLK_CORE_STATUS b, 8, 8⟩
def BLK_CORE_STATUS_OUT_OF_SERVICE (b : Nat) : Fld := ⟨BLK_CORE_STATUS b, 7, 7⟩
def BLK_CORE_STATUS_SELFTEST (b : Nat) : Fld := ⟨BLK_CORE_STATUS b, 6, 6⟩
def BLK_CORE_STATUS_HALTED (b : Nat) : Fld := ⟨BLK_CORE_STATUS b, 5, 5⟩
def BLK_CORE_STATUS_PARKED (b : Nat) : Fld := ⟨BLK_CORE_STATUS b, 4, 4⟩
def BLK_CORE_STATUS_FAULTED (b : Nat) : Fld := ⟨BLK_CORE_STATUS b, 3, 3⟩
def BLK_CORE_STATUS_WAITING (b : Nat) : Fld := ⟨BLK_CORE_STATUS b, 2, 2⟩
def BLK_CORE_STATUS_STALLED (b : Nat) : Fld := ⟨BLK_CORE_STATUS b, 1, 1⟩
def BLK_CORE_STATUS_RUNNING (b : Nat) : Fld := ⟨BLK_CORE_STATUS b, 0, 0⟩
def BLK_CORE_FAULT (b : Nat) : Nat := 0x1001010 + 0x10000 * b
def BLK_CORE_FAULT_CODE (b : Nat) : Fld := ⟨BLK_CORE_FAULT b, 63, 48⟩
def BLK_CORE_FAULT_KIND (b : Nat) : Fld := ⟨BLK_CORE_FAULT b, 47, 40⟩
def BLK_CORE_FAULT_SET (b : Nat) : Fld := ⟨BLK_CORE_FAULT b, 36, 36⟩
def BLK_CORE_FAULT_MORE (b : Nat) : Fld := ⟨BLK_CORE_FAULT b, 35, 32⟩
def BLK_CORE_FAULT_DETAIL (b : Nat) : Fld := ⟨BLK_CORE_FAULT b, 31, 0⟩
def BLK_CORE_FAULT_PC (b : Nat) : Nat := 0x1001018 + 0x10000 * b
def BLK_CORE_FAULT_PC_ADDR (b : Nat) : Fld := ⟨BLK_CORE_FAULT_PC b, 47, 0⟩
def BLK_CORE_RETIRED (b : Nat) : Nat := 0x1001020 + 0x10000 * b
def BLK_CORE_RETIRED_COUNT (b : Nat) : Fld := ⟨BLK_CORE_RETIRED b, 63, 0⟩
def BLK_CORE_COUNT (b : Nat) : Nat := 0x1001028 + 0x10000 * b
def BLK_CORE_COUNT_REEXEC (b : Nat) : Fld := ⟨BLK_CORE_COUNT b, 63, 48⟩
def BLK_CORE_COUNT_TRANSIENT (b : Nat) : Fld := ⟨BLK_CORE_COUNT b, 47, 32⟩
def BLK_CORE_COUNT_PARITY (b : Nat) : Fld := ⟨BLK_CORE_COUNT b, 31, 16⟩
def BLK_CORE_COUNT_REFETCH (b : Nat) : Fld := ⟨BLK_CORE_COUNT b, 15, 0⟩

/-! ### Registers of 08_training_numerics.md -/

def BLK_NUM_PENDING (b : Nat) : Nat := 0x1004000 + 0x10000 * b
def BLK_NUM_PENDING_OVF (b : Nat) : Fld := ⟨BLK_NUM_PENDING b, 31, 0⟩
def BLK_NUM_COUNT (b : Nat) : Nat := 0x1004008 + 0x10000 * b
def BLK_NUM_COUNT_UPDATES (b : Nat) : Fld := ⟨BLK_NUM_COUNT b, 63, 32⟩
def BLK_NUM_COUNT_WEAVES (b : Nat) : Fld := ⟨BLK_NUM_COUNT b, 31, 0⟩

/-! ### Registers of 09_memory.md -/

def HBM_STATUS (k : Nat) : Nat := 0x2000000 + 0x10000 * k
def HBM_STATUS_LAST_CODE (k : Nat) : Fld := ⟨HBM_STATUS k, 63, 48⟩
def HBM_STATUS_REMAP_USED (k : Nat) : Fld := ⟨HBM_STATUS k, 47, 37⟩
def HBM_STATUS_CHANNEL_FAILED (k : Nat) : Fld := ⟨HBM_STATUS k, 3, 3⟩
def HBM_STATUS_REMAP_FULL (k : Nat) : Fld := ⟨HBM_STATUS k, 2, 2⟩
def HBM_STATUS_SELFTEST (k : Nat) : Fld := ⟨HBM_STATUS k, 1, 1⟩
def HBM_STATUS_TRAINED (k : Nat) : Fld := ⟨HBM_STATUS k, 0, 0⟩
def HBM_COUNT (k : Nat) : Nat := 0x2000008 + 0x10000 * k
def HBM_COUNT_REREADS (k : Nat) : Fld := ⟨HBM_COUNT k, 63, 48⟩
def HBM_COUNT_TRANSIENT (k : Nat) : Fld := ⟨HBM_COUNT k, 47, 32⟩
def HBM_COUNT_RETIRED (k : Nat) : Fld := ⟨HBM_COUNT k, 31, 16⟩
def HBM_COUNT_LOST (k : Nat) : Fld := ⟨HBM_COUNT k, 15, 0⟩
def HBM_ILV : Nat := 0x2080000
def HBM_ILV_LOCAL : Fld := ⟨HBM_ILV, 58, 0⟩
def HBM_TLBI_ADDR : Nat := 0x2080008
def HBM_TLBI_ADDR_VBASE : Fld := ⟨HBM_TLBI_ADDR, 47, 16⟩
def HBM_TLBI_CTRL : Nat := 0x2080010
def HBM_TLBI_CTRL_DONE : Fld := ⟨HBM_TLBI_CTRL, 63, 63⟩
def HBM_TLBI_CTRL_START : Fld := ⟨HBM_TLBI_CTRL, 62, 62⟩
def HBM_TLBI_CTRL_ALL : Fld := ⟨HBM_TLBI_CTRL, 61, 61⟩
def HBM_TLBI_CTRL_CONTEXT : Fld := ⟨HBM_TLBI_CTRL, 59, 48⟩
def HBM_TLBI_CTRL_PAGES : Fld := ⟨HBM_TLBI_CTRL, 31, 0⟩
def HBM_DIRTY_CTRL : Nat := 0x2080018
def HBM_DIRTY_CTRL_SWAP : Fld := ⟨HBM_DIRTY_CTRL, 1, 1⟩
def HBM_DIRTY_CTRL_ACTIVE : Fld := ⟨HBM_DIRTY_CTRL, 0, 0⟩
def HBM_DIRTY (a : Nat) (w : Nat) : Nat := 0x2090000 + 0x8000 * a + 0x8 * w
def HBM_DIRTY_DIRTY (a : Nat) (w : Nat) : Fld := ⟨HBM_DIRTY a w, 63, 0⟩
def HBM_SCRUB_BASE : Nat := 0x2080020
def HBM_SCRUB_BASE_BASE : Fld := ⟨HBM_SCRUB_BASE, 38, 16⟩
def HBM_SCRUB_CTRL : Nat := 0x2080028
def HBM_SCRUB_CTRL_DONE : Fld := ⟨HBM_SCRUB_CTRL, 63, 63⟩
def HBM_SCRUB_CTRL_START : Fld := ⟨HBM_SCRUB_CTRL, 62, 62⟩
def HBM_SCRUB_CTRL_SIZE : Fld := ⟨HBM_SCRUB_CTRL, 31, 0⟩
def HBM_PROT (i : Nat) : Nat := 0x2080040 + 0x8 * i
def HBM_PROT_EN (i : Nat) : Fld := ⟨HBM_PROT i, 63, 63⟩
def HBM_PROT_SIZE (i : Nat) : Fld := ⟨HBM_PROT i, 62, 40⟩
def HBM_PROT_BASE (i : Nat) : Fld := ⟨HBM_PROT i, 38, 16⟩

/-! ### Registers of 10_arbitration.md -/

def SCH_ARB_CFG (a : Nat) : Nat := 0x88000 + 0x20 * a
def SCH_ARB_CFG_QUOTA (a : Nat) : Fld := ⟨SCH_ARB_CFG a, 63, 48⟩
def SCH_ARB_CFG_BURST_M1 (a : Nat) : Fld := ⟨SCH_ARB_CFG a, 47, 40⟩
def SCH_ARB_CFG_WGROUP (a : Nat) : Fld := ⟨SCH_ARB_CFG a, 39, 34⟩
def SCH_ARB_CFG_EMERG_SEL (a : Nat) : Fld := ⟨SCH_ARB_CFG a, 33, 32⟩
def SCH_ARB_CFG_ROT (a : Nat) : Fld := ⟨SCH_ARB_CFG a, 31, 26⟩
def SCH_ARB_CFG_CLR (a : Nat) : Fld := ⟨SCH_ARB_CFG a, 4, 4⟩
def SCH_ARB_CFG_TEST_EN (a : Nat) : Fld := ⟨SCH_ARB_CFG a, 3, 3⟩
def SCH_ARB_CFG_UPSETT (a : Nat) : Fld := ⟨SCH_ARB_CFG a, 2, 2⟩
def SCH_ARB_CFG_RECOVERY (a : Nat) : Fld := ⟨SCH_ARB_CFG a, 1, 1⟩
def SCH_ARB_CFG_EMERG_ACTIVE (a : Nat) : Fld := ⟨SCH_ARB_CFG a, 0, 0⟩
def RGN_ARB_CFG (r : Nat) (a : Nat) : Nat := 0x10c000 + 0x100000 * r + 0x20 * a
def RGN_ARB_CFG_QUOTA (r : Nat) (a : Nat) : Fld := ⟨RGN_ARB_CFG r a, 63, 48⟩
def RGN_ARB_CFG_BURST_M1 (r : Nat) (a : Nat) : Fld := ⟨RGN_ARB_CFG r a, 47, 40⟩
def RGN_ARB_CFG_WGROUP (r : Nat) (a : Nat) : Fld := ⟨RGN_ARB_CFG r a, 39, 34⟩
def RGN_ARB_CFG_EMERG_SEL (r : Nat) (a : Nat) : Fld := ⟨RGN_ARB_CFG r a, 33, 32⟩
def RGN_ARB_CFG_ROT (r : Nat) (a : Nat) : Fld := ⟨RGN_ARB_CFG r a, 31, 26⟩
def RGN_ARB_CFG_CLR (r : Nat) (a : Nat) : Fld := ⟨RGN_ARB_CFG r a, 4, 4⟩
def RGN_ARB_CFG_TEST_EN (r : Nat) (a : Nat) : Fld := ⟨RGN_ARB_CFG r a, 3, 3⟩
def RGN_ARB_CFG_UPSETT (r : Nat) (a : Nat) : Fld := ⟨RGN_ARB_CFG r a, 2, 2⟩
def RGN_ARB_CFG_RECOVERY (r : Nat) (a : Nat) : Fld := ⟨RGN_ARB_CFG r a, 1, 1⟩
def RGN_ARB_CFG_EMERG_ACTIVE (r : Nat) (a : Nat) : Fld := ⟨RGN_ARB_CFG r a, 0, 0⟩
def BLK_ARB_CFG (b : Nat) (a : Nat) : Nat := 0x1005000 + 0x10000 * b + 0x20 * a
def BLK_ARB_CFG_QUOTA (b : Nat) (a : Nat) : Fld := ⟨BLK_ARB_CFG b a, 63, 48⟩
def BLK_ARB_CFG_BURST_M1 (b : Nat) (a : Nat) : Fld := ⟨BLK_ARB_CFG b a, 47, 40⟩
def BLK_ARB_CFG_WGROUP (b : Nat) (a : Nat) : Fld := ⟨BLK_ARB_CFG b a, 39, 34⟩
def BLK_ARB_CFG_EMERG_SEL (b : Nat) (a : Nat) : Fld := ⟨BLK_ARB_CFG b a, 33, 32⟩
def BLK_ARB_CFG_ROT (b : Nat) (a : Nat) : Fld := ⟨BLK_ARB_CFG b a, 31, 26⟩
def BLK_ARB_CFG_CLR (b : Nat) (a : Nat) : Fld := ⟨BLK_ARB_CFG b a, 4, 4⟩
def BLK_ARB_CFG_TEST_EN (b : Nat) (a : Nat) : Fld := ⟨BLK_ARB_CFG b a, 3, 3⟩
def BLK_ARB_CFG_UPSETT (b : Nat) (a : Nat) : Fld := ⟨BLK_ARB_CFG b a, 2, 2⟩
def BLK_ARB_CFG_RECOVERY (b : Nat) (a : Nat) : Fld := ⟨BLK_ARB_CFG b a, 1, 1⟩
def BLK_ARB_CFG_EMERG_ACTIVE (b : Nat) (a : Nat) : Fld := ⟨BLK_ARB_CFG b a, 0, 0⟩
def SCH_ARB_PRIO (a : Nat) : Nat := 0x88008 + 0x20 * a
def SCH_ARB_PRIO_PRIO (a : Nat) : Fld := ⟨SCH_ARB_PRIO a, 63, 0⟩
def RGN_ARB_PRIO (r : Nat) (a : Nat) : Nat := 0x10c008 + 0x100000 * r + 0x20 * a
def RGN_ARB_PRIO_PRIO (r : Nat) (a : Nat) : Fld := ⟨RGN_ARB_PRIO r a, 63, 0⟩
def BLK_ARB_PRIO (b : Nat) (a : Nat) : Nat := 0x1005008 + 0x10000 * b + 0x20 * a
def BLK_ARB_PRIO_PRIO (b : Nat) (a : Nat) : Fld := ⟨BLK_ARB_PRIO b a, 63, 0⟩
def SCH_ARB_MASK (a : Nat) : Nat := 0x88010 + 0x20 * a
def SCH_ARB_MASK_MASKED (a : Nat) : Fld := ⟨SCH_ARB_MASK a, 63, 0⟩
def RGN_ARB_MASK (r : Nat) (a : Nat) : Nat := 0x10c010 + 0x100000 * r + 0x20 * a
def RGN_ARB_MASK_MASKED (r : Nat) (a : Nat) : Fld := ⟨RGN_ARB_MASK r a, 63, 0⟩
def BLK_ARB_MASK (b : Nat) (a : Nat) : Nat := 0x1005010 + 0x10000 * b + 0x20 * a
def BLK_ARB_MASK_MASKED (b : Nat) (a : Nat) : Fld := ⟨BLK_ARB_MASK b a, 63, 0⟩
def SCH_ARB_STAT (a : Nat) : Nat := 0x88018 + 0x20 * a
def SCH_ARB_STAT_MAX_AGE (a : Nat) : Fld := ⟨SCH_ARB_STAT a, 63, 32⟩
def SCH_ARB_STAT_EMERG_BEATS (a : Nat) : Fld := ⟨SCH_ARB_STAT a, 31, 16⟩
def SCH_ARB_STAT_MASKINGS (a : Nat) : Fld := ⟨SCH_ARB_STAT a, 15, 0⟩
def RGN_ARB_STAT (r : Nat) (a : Nat) : Nat := 0x10c018 + 0x100000 * r + 0x20 * a
def RGN_ARB_STAT_MAX_AGE (r : Nat) (a : Nat) : Fld := ⟨RGN_ARB_STAT r a, 63, 32⟩
def RGN_ARB_STAT_EMERG_BEATS (r : Nat) (a : Nat) : Fld := ⟨RGN_ARB_STAT r a, 31, 16⟩
def RGN_ARB_STAT_MASKINGS (r : Nat) (a : Nat) : Fld := ⟨RGN_ARB_STAT r a, 15, 0⟩
def BLK_ARB_STAT (b : Nat) (a : Nat) : Nat := 0x1005018 + 0x10000 * b + 0x20 * a
def BLK_ARB_STAT_MAX_AGE (b : Nat) (a : Nat) : Fld := ⟨BLK_ARB_STAT b a, 63, 32⟩
def BLK_ARB_STAT_EMERG_BEATS (b : Nat) (a : Nat) : Fld := ⟨BLK_ARB_STAT b a, 31, 16⟩
def BLK_ARB_STAT_MASKINGS (b : Nat) (a : Nat) : Fld := ⟨BLK_ARB_STAT b a, 15, 0⟩

/-! ### Registers of 11_scheduling.md -/

def SCH_CTRL : Nat := 0x80000
def SCH_CTRL_BLOCKED_NS : Fld := ⟨SCH_CTRL, 63, 32⟩
def SCH_CTRL_FILL_EN : Fld := ⟨SCH_CTRL, 0, 0⟩
def SCH_STATUS : Nat := 0x80008
def SCH_STATUS_LAST_CODE : Fld := ⟨SCH_STATUS, 63, 48⟩
def SCH_STATUS_ADMITTED : Fld := ⟨SCH_STATUS, 47, 32⟩
def SCH_STATUS_PARTITIONS : Fld := ⟨SCH_STATUS, 31, 16⟩
def SCH_QTABLE : Nat := 0x80010
def SCH_QTABLE_BASE : Fld := ⟨SCH_QTABLE, 38, 21⟩
def SCH_CTABLE : Nat := 0x80018
def SCH_CTABLE_BASE : Fld := ⟨SCH_CTABLE, 38, 21⟩
def SCH_PART_BLOCKS0 (p : Nat) : Nat := 0x80100 + 0x20 * p
def SCH_PART_BLOCKS0_BLOCKS (p : Nat) : Fld := ⟨SCH_PART_BLOCKS0 p, 63, 0⟩
def SCH_PART_BLOCKS1 (p : Nat) : Nat := 0x80108 + 0x20 * p
def SCH_PART_BLOCKS1_BLOCKS (p : Nat) : Fld := ⟨SCH_PART_BLOCKS1 p, 63, 0⟩
def SCH_PART_HBM (p : Nat) : Nat := 0x80110 + 0x20 * p
def SCH_PART_HBM_SIZE (p : Nat) : Fld := ⟨SCH_PART_HBM p, 62, 40⟩
def SCH_PART_HBM_BASE (p : Nat) : Fld := ⟨SCH_PART_HBM p, 38, 16⟩
def SCH_PART_CTRL (p : Nat) : Nat := 0x80118 + 0x20 * p
def SCH_PART_CTRL_RIM_PORTS (p : Nat) : Fld := ⟨SCH_PART_CTRL p, 63, 52⟩
def SCH_PART_CTRL_LEAD (p : Nat) : Fld := ⟨SCH_PART_CTRL p, 51, 48⟩
def SCH_PART_CTRL_GROUPS (p : Nat) : Fld := ⟨SCH_PART_CTRL p, 47, 43⟩
def SCH_PART_CTRL_VALID (p : Nat) : Fld := ⟨SCH_PART_CTRL p, 0, 0⟩
def SCH_NRING_BASE (i : Nat) : Nat := 0x80400 + 0x10 * i
def SCH_NRING_BASE_DROPPED (i : Nat) : Fld := ⟨SCH_NRING_BASE i, 63, 48⟩
def SCH_NRING_BASE_BASE (i : Nat) : Fld := ⟨SCH_NRING_BASE i, 38, 16⟩
def SCH_NRING_BASE_SIZE_LOG2 (i : Nat) : Fld := ⟨SCH_NRING_BASE i, 4, 0⟩
def SCH_NRING_IDX (i : Nat) : Nat := 0x80408 + 0x10 * i
def SCH_NRING_IDX_WR (i : Nat) : Fld := ⟨SCH_NRING_IDX i, 63, 32⟩
def SCH_NRING_IDX_RD (i : Nat) : Fld := ⟨SCH_NRING_IDX i, 31, 0⟩
def SCH_CMD : Nat := 0x80600
def SCH_CMD_DONE : Fld := ⟨SCH_CMD, 63, 63⟩
def SCH_CMD_START : Fld := ⟨SCH_CMD, 62, 62⟩
def SCH_CMD_OP : Fld := ⟨SCH_CMD, 57, 54⟩
def SCH_CMD_PART : Fld := ⟨SCH_CMD, 53, 50⟩
def SCH_CMD_QUEUE : Fld := ⟨SCH_CMD, 49, 35⟩
def SCH_CMD_CONTEXT : Fld := ⟨SCH_CMD, 34, 23⟩
def SCH_CMD_RESULT : Fld := ⟨SCH_CMD, 15, 0⟩
def RGN_SCH_STATUS (r : Nat) : Nat := 0x100000 + 0x100000 * r
def RGN_SCH_STATUS_SCOREBOARD (r : Nat) : Fld := ⟨RGN_SCH_STATUS r, 63, 48⟩
def RGN_SCH_STATUS_READY (r : Nat) : Fld := ⟨RGN_SCH_STATUS r, 47, 32⟩
def RGN_SCH_STATUS_PLACED (r : Nat) : Fld := ⟨RGN_SCH_STATUS r, 31, 16⟩
def RGN_SCH_COUNT (r : Nat) : Nat := 0x100008 + 0x100000 * r
def RGN_SCH_COUNT_TASKS (r : Nat) : Fld := ⟨RGN_SCH_COUNT r, 63, 32⟩
def RGN_SCH_COUNT_SWITCHES (r : Nat) : Fld := ⟨RGN_SCH_COUNT r, 31, 0⟩
def DB_TAIL (q : Nat) : Nat := 0x3000000 + 0x200 * q
def DB_TAIL_STATE (q : Nat) : Fld := ⟨DB_TAIL q, 33, 32⟩
def DB_TAIL_TAIL (q : Nat) : Fld := ⟨DB_TAIL q, 31, 0⟩
def DB_STATE (q : Nat) : Nat := 0x3000008 + 0x200 * q
def DB_STATE_HEAD (q : Nat) : Fld := ⟨DB_STATE q, 63, 32⟩
def DB_STATE_DONE (q : Nat) : Fld := ⟨DB_STATE q, 31, 0⟩

/-! ### Registers of 12_rim_links.md -/

def RIM_CTRL (k : Nat) : Nat := 0x2100000 + 0x4000 * k
def RIM_CTRL_FAR_RTT_US (k : Nat) : Fld := ⟨RIM_CTRL k, 63, 48⟩
def RIM_CTRL_ACK_SLACK_NS (k : Nat) : Fld := ⟨RIM_CTRL k, 47, 32⟩
def RIM_CTRL_REPLAY_LIMIT (k : Nat) : Fld := ⟨RIM_CTRL k, 31, 24⟩
def RIM_CTRL_ERR_LIMIT (k : Nat) : Fld := ⟨RIM_CTRL k, 23, 12⟩
def RIM_CTRL_PEER_OPEN (k : Nat) : Fld := ⟨RIM_CTRL k, 7, 7⟩
def RIM_CTRL_UNFENCE (k : Nat) : Fld := ⟨RIM_CTRL k, 6, 6⟩
def RIM_CTRL_FENCE (k : Nat) : Fld := ⟨RIM_CTRL k, 5, 5⟩
def RIM_CTRL_RETRAIN (k : Nat) : Fld := ⟨RIM_CTRL k, 4, 4⟩
def RIM_CTRL_FAR (k : Nat) : Fld := ⟨RIM_CTRL k, 1, 1⟩
def RIM_CTRL_EN (k : Nat) : Fld := ⟨RIM_CTRL k, 0, 0⟩
def RIM_STATUS (k : Nat) : Nat := 0x2100008 + 0x4000 * k
def RIM_STATUS_LAST_CODE (k : Nat) : Fld := ⟨RIM_STATUS k, 63, 48⟩
def RIM_STATUS_PEER_LINK (k : Nat) : Fld := ⟨RIM_STATUS k, 47, 40⟩
def RIM_STATUS_PLEVEL (k : Nat) : Fld := ⟨RIM_STATUS k, 39, 32⟩
def RIM_STATUS_REASON (k : Nat) : Fld := ⟨RIM_STATUS k, 31, 24⟩
def RIM_STATUS_PEER_FW (k : Nat) : Fld := ⟨RIM_STATUS k, 23, 8⟩
def RIM_STATUS_REVERSAL (k : Nat) : Fld := ⟨RIM_STATUS k, 6, 6⟩
def RIM_STATUS_HOLDING (k : Nat) : Fld := ⟨RIM_STATUS k, 5, 5⟩
def RIM_STATUS_CHECKED (k : Nat) : Fld := ⟨RIM_STATUS k, 4, 4⟩
def RIM_STATUS_STATE (k : Nat) : Fld := ⟨RIM_STATUS k, 3, 0⟩
def RIM_WIRE (k : Nat) : Nat := 0x2100010 + 0x4000 * k
def RIM_WIRE_VALID (k : Nat) : Fld := ⟨RIM_WIRE k, 63, 63⟩
def RIM_WIRE_PEER_LINK (k : Nat) : Fld := ⟨RIM_WIRE k, 5, 0⟩
def RIM_WIRE_DIGEST (k : Nat) (i : Nat) : Nat := 0x2100018 + 0x4000 * k + 0x8 * i
def RIM_WIRE_DIGEST_DIGEST (k : Nat) (i : Nat) : Fld := ⟨RIM_WIRE_DIGEST k i, 63, 0⟩
def RIM_PEER_DIGEST (k : Nat) (i : Nat) : Nat := 0x2100038 + 0x4000 * k + 0x8 * i
def RIM_PEER_DIGEST_DIGEST (k : Nat) (i : Nat) : Fld := ⟨RIM_PEER_DIGEST k i, 63, 0⟩
def RIM_FAR_WIN (k : Nat) : Nat := 0x2100058 + 0x4000 * k
def RIM_FAR_WIN_FRAMES (k : Nat) : Fld := ⟨RIM_FAR_WIN k, 63, 40⟩
def RIM_FAR_WIN_BASE (k : Nat) : Fld := ⟨RIM_FAR_WIN k, 38, 16⟩
def RIM_TIMER (k : Nat) : Nat := 0x2100060 + 0x4000 * k
def RIM_TIMER_OPEN_MS (k : Nat) : Fld := ⟨RIM_TIMER k, 31, 16⟩
def RIM_TIMER_HOLD_MS (k : Nat) : Fld := ⟨RIM_TIMER k, 15, 0⟩
def RIM_OPTICS (k : Nat) : Nat := 0x2100068 + 0x4000 * k
def RIM_OPTICS_RX_PWR (k : Nat) : Fld := ⟨RIM_OPTICS k, 31, 0⟩
def RIM_COUNT0 (k : Nat) : Nat := 0x2100070 + 0x4000 * k
def RIM_COUNT0_CRC_FAIL (k : Nat) : Fld := ⟨RIM_COUNT0 k, 63, 48⟩
def RIM_COUNT0_NAK_SENT (k : Nat) : Fld := ⟨RIM_COUNT0 k, 47, 32⟩
def RIM_COUNT0_REPLAYS (k : Nat) : Fld := ⟨RIM_COUNT0 k, 31, 16⟩
def RIM_COUNT0_TIMEOUTS (k : Nat) : Fld := ⟨RIM_COUNT0 k, 15, 0⟩
def RIM_COUNT1 (k : Nat) : Nat := 0x2100078 + 0x4000 * k
def RIM_COUNT1_FEC_CORRECTED (k : Nat) : Fld := ⟨RIM_COUNT1 k, 63, 32⟩
def RIM_COUNT1_FEC_UNCORR (k : Nat) : Fld := ⟨RIM_COUNT1 k, 31, 24⟩
def RIM_COUNT1_RX_OVERRUN (k : Nat) : Fld := ⟨RIM_COUNT1 k, 23, 16⟩
def RIM_COUNT1_RETRAINS (k : Nat) : Fld := ⟨RIM_COUNT1 k, 15, 12⟩
def RIM_COUNT1_TRAIN_FAILS (k : Nat) : Fld := ⟨RIM_COUNT1 k, 11, 8⟩
def RIM_COUNT1_FENCED_DROP (k : Nat) : Fld := ⟨RIM_COUNT1 k, 7, 4⟩
def RIM_COUNT1_TRANSIT_DROP (k : Nat) : Fld := ⟨RIM_COUNT1 k, 3, 0⟩
def RIM_SESSION (k : Nat) : Nat := 0x2100080 + 0x4000 * k
def RIM_SESSION_TX_SESSION (k : Nat) : Fld := ⟨RIM_SESSION k, 63, 32⟩
def RIM_SESSION_RX_SESSION (k : Nat) : Fld := ⟨RIM_SESSION k, 31, 0⟩
def RIM_GLOBAL : Nat := 0x2190000
def RIM_GLOBAL_PLEVEL_MIN : Fld := ⟨RIM_GLOBAL, 63, 56⟩
def RIM_GLOBAL_PLEVEL_MAX : Fld := ⟨RIM_GLOBAL, 55, 48⟩
def RIM_GLOBAL_RTT_MAX_US : Fld := ⟨RIM_GLOBAL, 47, 32⟩

/-! ### Registers of 13_plait.md -/

def RPT_GLOBAL : Nat := 0x2200000
def RPT_GLOBAL_LAST_CODE : Fld := ⟨RPT_GLOBAL, 63, 48⟩
def RPT_GLOBAL_HOP_LIMIT : Fld := ⟨RPT_GLOBAL, 47, 40⟩
def RPT_GLOBAL_INUSE : Fld := ⟨RPT_GLOBAL, 39, 36⟩
def RPT_GLOBAL_SWITCHING : Fld := ⟨RPT_GLOBAL, 35, 35⟩
def RPT_GLOBAL_SWITCH : Fld := ⟨RPT_GLOBAL, 20, 20⟩
def RPT_GLOBAL_NEXT : Fld := ⟨RPT_GLOBAL, 19, 18⟩
def RPT_GLOBAL_ACTIVE : Fld := ⟨RPT_GLOBAL, 17, 16⟩
def RPT_GLOBAL_SELF : Fld := ⟨RPT_GLOBAL, 15, 0⟩
def RPT_RT_SEL : Nat := 0x2200010
def RPT_RT_SEL_MAP : Fld := ⟨RPT_RT_SEL, 17, 16⟩
def RPT_RT_SEL_DEST : Fld := ⟨RPT_RT_SEL, 15, 0⟩
def RPT_RT_DATA : Nat := 0x2200018
def RPT_RT_DATA_VALID : Fld := ⟨RPT_RT_DATA, 7, 7⟩
def RPT_RT_DATA_PORT : Fld := ⟨RPT_RT_DATA, 3, 0⟩
def RPT_COUNT : Nat := 0x2200020
def RPT_COUNT_LOST_TRANSIT : Fld := ⟨RPT_COUNT, 63, 32⟩
def RPT_COUNT_REFUSED : Fld := ⟨RPT_COUNT, 31, 16⟩
def RPT_COUNT_SWITCHES : Fld := ⟨RPT_COUNT, 15, 0⟩
def RPT_MAP_PORT (m : Nat) (p : Nat) : Nat := 0x2201000 + 0x80 * m + 0x8 * p
def RPT_MAP_PORT_LINKS (m : Nat) (p : Nat) : Fld := ⟨RPT_MAP_PORT m p, 35, 0⟩
def RPT_FARIN (k : Nat) : Nat := 0x2202000 + 0x8 * k
def RPT_FARIN_SLOTS (k : Nat) : Fld := ⟨RPT_FARIN k, 63, 40⟩
def RPT_FARIN_BASE (k : Nat) : Fld := ⟨RPT_FARIN k, 38, 16⟩
def PLT_CTRL : Nat := 0x2300000
def PLT_CTRL_GRACE_NS : Fld := ⟨PLT_CTRL, 63, 32⟩
def PLT_CTRL_EARLY_US : Fld := ⟨PLT_CTRL, 31, 16⟩
def PLT_STATUS : Nat := 0x2300008
def PLT_STATUS_LAST_CODE : Fld := ⟨PLT_STATUS, 63, 48⟩
def PLT_STATUS_OPS : Fld := ⟨PLT_STATUS, 47, 32⟩
def PLT_STATUS_CARRY_USED : Fld := ⟨PLT_STATUS, 31, 16⟩
def PLT_STATUS_BUSY : Fld := ⟨PLT_STATUS, 0, 0⟩
def PLT_TRACKER : Nat := 0x2300010
def PLT_TRACKER_HIGH_WATER : Fld := ⟨PLT_TRACKER, 63, 32⟩
def PLT_TRACKER_USED : Fld := ⟨PLT_TRACKER, 31, 0⟩
def PLT_COUNT0 : Nat := 0x2300018
def PLT_COUNT0_OPS_DONE : Fld := ⟨PLT_COUNT0, 63, 32⟩
def PLT_COUNT0_STRAGGLER : Fld := ⟨PLT_COUNT0, 31, 16⟩
def PLT_COUNT0_CARRIED : Fld := ⟨PLT_COUNT0, 15, 0⟩
def PLT_COUNT1 : Nat := 0x2300020
def PLT_COUNT1_LATE_DROP : Fld := ⟨PLT_COUNT1, 63, 32⟩
def PLT_COUNT1_EARLY_DROP : Fld := ⟨PLT_COUNT1, 31, 0⟩

/-! ### Registers of 14_coil_and_handover.md -/

def COL_CTRL (e : Nat) : Nat := 0x2400000 + 0x80 * e
def COL_CTRL_CONTEXT (e : Nat) : Fld := ⟨COL_CTRL e, 63, 52⟩
def COL_CTRL_PART (e : Nat) : Fld := ⟨COL_CTRL e, 51, 48⟩
def COL_CTRL_SIZE (e : Nat) : Fld := ⟨COL_CTRL e, 44, 40⟩
def COL_CTRL_POSITION (e : Nat) : Fld := ⟨COL_CTRL e, 39, 36⟩
def COL_CTRL_ATOMIC (e : Nat) : Fld := ⟨COL_CTRL e, 1, 1⟩
def COL_CTRL_EN (e : Nat) : Fld := ⟨COL_CTRL e, 0, 0⟩
def COL_MEMBERS (e : Nat) : Nat := 0x2400008 + 0x80 * e
def COL_MEMBERS_BASE (e : Nat) : Fld := ⟨COL_MEMBERS e, 38, 12⟩
def COL_IMAGE (e : Nat) : Nat := 0x2400010 + 0x80 * e
def COL_IMAGE_PAGES (e : Nat) : Fld := ⟨COL_IMAGE e, 63, 40⟩
def COL_IMAGE_BASE (e : Nat) : Fld := ⟨COL_IMAGE e, 38, 12⟩
def COL_MIRROR (e : Nat) : Nat := 0x2400018 + 0x80 * e
def COL_MIRROR_PAGES (e : Nat) : Fld := ⟨COL_MIRROR e, 63, 40⟩
def COL_MIRROR_BASE (e : Nat) : Fld := ⟨COL_MIRROR e, 38, 21⟩
def COL_PARITY (e : Nat) : Nat := 0x2400020 + 0x80 * e
def COL_PARITY_PAGES (e : Nat) : Fld := ⟨COL_PARITY e, 63, 40⟩
def COL_PARITY_BASE (e : Nat) : Fld := ⟨COL_PARITY e, 38, 21⟩
def COL_STAGE (e : Nat) : Nat := 0x2400028 + 0x80 * e
def COL_STAGE_PAGES (e : Nat) : Fld := ⟨COL_STAGE e, 63, 40⟩
def COL_STAGE_BASE (e : Nat) : Fld := ⟨COL_STAGE e, 38, 21⟩
def COL_CONTROL (e : Nat) : Nat := 0x2400030 + 0x80 * e
def COL_CONTROL_PAGES (e : Nat) : Fld := ⟨COL_CONTROL e, 63, 40⟩
def COL_CONTROL_BASE (e : Nat) : Fld := ⟨COL_CONTROL e, 38, 21⟩
def COL_STATUS (e : Nat) : Nat := 0x2400038 + 0x80 * e
def COL_STATUS_LAST_CODE (e : Nat) : Fld := ⟨COL_STATUS e, 63, 48⟩
def COL_STATUS_READY (e : Nat) : Fld := ⟨COL_STATUS e, 47, 32⟩
def COL_STATUS_PART_DONE (e : Nat) : Fld := ⟨COL_STATUS e, 8, 8⟩
def COL_STATUS_CAUSE (e : Nat) : Fld := ⟨COL_STATUS e, 7, 4⟩
def COL_STATUS_STATE (e : Nat) : Fld := ⟨COL_STATUS e, 3, 0⟩
def COL_SEQ (e : Nat) : Nat := 0x2400040 + 0x80 * e
def COL_SEQ_CURRENT (e : Nat) : Fld := ⟨COL_SEQ e, 63, 32⟩
def COL_SEQ_COMMITTED (e : Nat) : Fld := ⟨COL_SEQ e, 31, 0⟩
def COL_STEP (e : Nat) : Nat := 0x2400048 + 0x80 * e
def COL_STEP_STEP (e : Nat) : Fld := ⟨COL_STEP e, 63, 0⟩
def COL_CMD (e : Nat) : Nat := 0x2400050 + 0x80 * e
def COL_CMD_DONE (e : Nat) : Fld := ⟨COL_CMD e, 63, 63⟩
def COL_CMD_START (e : Nat) : Fld := ⟨COL_CMD e, 62, 62⟩
def COL_CMD_OP (e : Nat) : Fld := ⟨COL_CMD e, 59, 56⟩
def COL_CMD_KIND (e : Nat) : Fld := ⟨COL_CMD e, 55, 54⟩
def COL_CMD_DIRTY_ONLY (e : Nat) : Fld := ⟨COL_CMD e, 53, 53⟩
def COL_CMD_SOURCE (e : Nat) : Fld := ⟨COL_CMD e, 31, 16⟩
def COL_CMD_RESULT (e : Nat) : Fld := ⟨COL_CMD e, 15, 0⟩
def COL_COUNT (e : Nat) : Nat := 0x2400058 + 0x80 * e
def COL_COUNT_PAGES_SENT (e : Nat) : Fld := ⟨COL_COUNT e, 63, 32⟩
def COL_COUNT_COMMITS (e : Nat) : Fld := ⟨COL_COUNT e, 31, 24⟩
def COL_COUNT_ABORTS (e : Nat) : Fld := ⟨COL_COUNT e, 23, 16⟩
def COL_COUNT_RESTORE_LOST (e : Nat) : Fld := ⟨COL_COUNT e, 15, 8⟩
def COL_COUNT_STALE (e : Nat) : Fld := ⟨COL_COUNT e, 7, 0⟩
def RPL_CTRL : Nat := 0x2410000
def RPL_CTRL_CONTEXT : Fld := ⟨RPL_CTRL, 63, 52⟩
def RPL_CTRL_MODE : Fld := ⟨RPL_CTRL, 1, 0⟩
def RPL_STATUS : Nat := 0x2410008
def RPL_STATUS_LAST_CODE : Fld := ⟨RPL_STATUS, 63, 48⟩
def RPL_STATUS_USED : Fld := ⟨RPL_STATUS, 47, 28⟩
def RPL_STATUS_VALID : Fld := ⟨RPL_STATUS, 0, 0⟩

/-! ### Registers of 15_reset_and_recovery.md -/

def RST_CTRL : Nat := 0x30000
def RST_CTRL_DRAIN_NS : Fld := ⟨RST_CTRL, 63, 32⟩
def RST_CTRL_ALIVE_MS : Fld := ⟨RST_CTRL, 31, 16⟩
def RST_CTRL_STOP_US : Fld := ⟨RST_CTRL, 15, 8⟩
def RST_CTRL_ESCALATE_EN : Fld := ⟨RST_CTRL, 0, 0⟩
def RST_STATUS : Nat := 0x30008
def RST_STATUS_LAST_CODE : Fld := ⟨RST_STATUS, 63, 48⟩
def RST_STATUS_T_DRAIN_US : Fld := ⟨RST_STATUS, 47, 32⟩
def RST_STATUS_SELF_FENCED : Fld := ⟨RST_STATUS, 4, 4⟩
def RST_STATUS_NEED_FULL : Fld := ⟨RST_STATUS, 3, 3⟩
def RST_STATUS_LID_WEDGED : Fld := ⟨RST_STATUS, 2, 2⟩
def RST_STATUS_COMPANION_LOST : Fld := ⟨RST_STATUS, 1, 1⟩
def RST_STATUS_PART_RESET_BUSY : Fld := ⟨RST_STATUS, 0, 0⟩
def RST_PART_CMD : Nat := 0x30010
def RST_PART_CMD_DONE : Fld := ⟨RST_PART_CMD, 63, 63⟩
def RST_PART_CMD_START : Fld := ⟨RST_PART_CMD, 62, 62⟩
def RST_PART_CMD_PART : Fld := ⟨RST_PART_CMD, 51, 48⟩
def RST_PART_CMD_RESULT : Fld := ⟨RST_PART_CMD, 15, 0⟩
def RST_HEARTBEAT : Nat := 0x30018
def RST_HEARTBEAT_SEQ : Fld := ⟨RST_HEARTBEAT, 31, 0⟩
def RST_WD : Nat := 0x30020
def RST_WD_BLOCK_STRIKES : Fld := ⟨RST_WD, 63, 56⟩
def RST_WD_SCHED_STRIKES : Fld := ⟨RST_WD, 55, 48⟩
def RST_WD_COMP_STRIKES : Fld := ⟨RST_WD, 47, 40⟩
def RST_WD_OVERRUN_LIMIT : Fld := ⟨RST_WD, 39, 24⟩
def RST_BORDER : Nat := 0x30028
def RST_BORDER_RIM_DROP : Fld := ⟨RST_BORDER, 63, 32⟩
def RST_BORDER_LOCAL_DROP : Fld := ⟨RST_BORDER, 31, 16⟩
def RST_BORDER_FENCED_DROP : Fld := ⟨RST_BORDER, 15, 0⟩
def RST_PEER_SEL : Nat := 0x30030
def RST_PEER_SEL_ADDR : Fld := ⟨RST_PEER_SEL, 15, 0⟩
def RST_PEER_DATA : Nat := 0x30038
def RST_PEER_DATA_FENCED : Fld := ⟨RST_PEER_DATA, 0, 0⟩
def HLT_COUNT : Nat := 0x30100
def HLT_COUNT_TRANSIENT : Fld := ⟨HLT_COUNT, 63, 48⟩
def HLT_COUNT_REPAIRED : Fld := ⟨HLT_COUNT, 47, 32⟩
def HLT_COUNT_LASTING : Fld := ⟨HLT_COUNT, 31, 16⟩
def HLT_COUNT_CONDITION : Fld := ⟨HLT_COUNT, 15, 0⟩
def HLT_PRIOR : Nat := 0x30108
def HLT_PRIOR_TRANSIENT : Fld := ⟨HLT_PRIOR, 63, 48⟩
def HLT_PRIOR_REPAIRED : Fld := ⟨HLT_PRIOR, 47, 32⟩
def HLT_PRIOR_LASTING : Fld := ⟨HLT_PRIOR, 31, 16⟩
def HLT_PRIOR_CONDITION : Fld := ⟨HLT_PRIOR, 15, 0⟩
def HLT_STATUS : Nat := 0x30110
def HLT_STATUS_BLOCKS_OUT : Fld := ⟨HLT_STATUS, 63, 56⟩
def HLT_STATUS_CONDITIONS : Fld := ⟨HLT_STATUS, 9, 1⟩
def HLT_STATUS_ANY : Fld := ⟨HLT_STATUS, 0, 0⟩
def HLT_RTS : Nat := 0x30118
def HLT_RTS_DONE : Fld := ⟨HLT_RTS, 63, 63⟩
def HLT_RTS_START : Fld := ⟨HLT_RTS, 62, 62⟩
def HLT_RTS_ELAPSED_S : Fld := ⟨HLT_RTS, 47, 32⟩
def HLT_RTS_FOUND : Fld := ⟨HLT_RTS, 31, 16⟩
def HLT_RTS_RESULT : Fld := ⟨HLT_RTS, 15, 0⟩
def HLT_BLOCK_OUT (i : Nat) : Nat := 0x30120 + 0x8 * i
def HLT_BLOCK_OUT_OUT (i : Nat) : Fld := ⟨HLT_BLOCK_OUT i, 63, 0⟩

/-! ### Registers of 16_josil_link.md -/

def JSL_CTRL : Nat := 0x2500000
def JSL_CTRL_REQ_TIMEOUT_US : Fld := ⟨JSL_CTRL, 63, 40⟩
def JSL_CTRL_REPLAY_LIMIT : Fld := ⟨JSL_CTRL, 39, 32⟩
def JSL_CTRL_RETRAIN_LIMIT : Fld := ⟨JSL_CTRL, 31, 28⟩
def JSL_CTRL_NOTIFY_MASK : Fld := ⟨JSL_CTRL, 18, 2⟩
def JSL_CTRL_FLUSH : Fld := ⟨JSL_CTRL, 1, 1⟩
def JSL_CTRL_RETRAIN : Fld := ⟨JSL_CTRL, 0, 0⟩
def JSL_STATUS : Nat := 0x2500008
def JSL_STATUS_LAST_CODE : Fld := ⟨JSL_STATUS, 63, 48⟩
def JSL_STATUS_RX_GOOD : Fld := ⟨JSL_STATUS, 47, 32⟩
def JSL_STATUS_RX_INVERTED : Fld := ⟨JSL_STATUS, 31, 16⟩
def JSL_STATUS_RX_REVERSED : Fld := ⟨JSL_STATUS, 15, 15⟩
def JSL_STATUS_RX_WIDTH : Fld := ⟨JSL_STATUS, 14, 10⟩
def JSL_STATUS_TX_WIDTH : Fld := ⟨JSL_STATUS, 9, 5⟩
def JSL_STATUS_FLUSHING : Fld := ⟨JSL_STATUS, 4, 4⟩
def JSL_STATUS_STATE : Fld := ⟨JSL_STATUS, 3, 0⟩
def JSL_COUNT0 : Nat := 0x2500010
def JSL_COUNT0_CRC_FAIL : Fld := ⟨JSL_COUNT0, 63, 48⟩
def JSL_COUNT0_REPLAYS : Fld := ⟨JSL_COUNT0, 47, 32⟩
def JSL_COUNT0_RETRAINS : Fld := ⟨JSL_COUNT0, 31, 16⟩
def JSL_COUNT0_FEC_UNCORR : Fld := ⟨JSL_COUNT0, 15, 0⟩
def JSL_COUNT1 : Nat := 0x2500018
def JSL_COUNT1_TIMEOUTS : Fld := ⟨JSL_COUNT1, 63, 48⟩
def JSL_COUNT1_LATE_RSP : Fld := ⟨JSL_COUNT1, 47, 32⟩
def JSL_COUNT1_ACCESS_REFUSED : Fld := ⟨JSL_COUNT1, 31, 16⟩
def JSL_COUNT1_NOTIFY_SENT : Fld := ⟨JSL_COUNT1, 15, 0⟩
def JSL_CACHE : Nat := 0x2500020
def JSL_CACHE_LINES_M : Fld := ⟨JSL_CACHE, 63, 48⟩
def JSL_CACHE_LINES_VALID : Fld := ⟨JSL_CACHE, 47, 32⟩
def JSL_CACHE_SNOOPS : Fld := ⟨JSL_CACHE, 31, 0⟩

/-! ### Registers of 17_upsett_and_security.md -/

def LID_STATUS : Nat := 0x20000
def LID_STATUS_LAST_CODE : Fld := ⟨LID_STATUS, 63, 48⟩
def LID_STATUS_STEP : Fld := ⟨LID_STATUS, 47, 44⟩
def LID_STATUS_BOOT_TRIES : Fld := ⟨LID_STATUS, 43, 36⟩
def LID_STATUS_TIME_UNLOCKED : Fld := ⟨LID_STATUS, 4, 4⟩
def LID_STATUS_HOLD : Fld := ⟨LID_STATUS, 3, 3⟩
def LID_STATUS_SESSION : Fld := ⟨LID_STATUS, 2, 2⟩
def LID_STATUS_EXHAUSTED : Fld := ⟨LID_STATUS, 1, 1⟩
def LID_STATUS_READY : Fld := ⟨LID_STATUS, 0, 0⟩
def LID_CMD : Nat := 0x20008
def LID_CMD_DONE : Fld := ⟨LID_CMD, 63, 63⟩
def LID_CMD_START : Fld := ⟨LID_CMD, 62, 62⟩
def LID_CMD_OP : Fld := ⟨LID_CMD, 59, 56⟩
def LID_CMD_LEN : Fld := ⟨LID_CMD, 47, 24⟩
def LID_CMD_RESULT : Fld := ⟨LID_CMD, 15, 0⟩
def LID_BOOT : Nat := 0x20010
def LID_BOOT_ADDR : Fld := ⟨LID_BOOT, 55, 8⟩
def LID_REPAIR : Nat := 0x20018
def LID_REPAIR_ADDR : Fld := ⟨LID_REPAIR, 55, 8⟩
def LID_ATTEST : Nat := 0x20020
def LID_ATTEST_ADDR : Fld := ⟨LID_ATTEST, 55, 8⟩
def LID_EPOCH : Nat := 0x20028
def LID_EPOCH_EPOCH : Fld := ⟨LID_EPOCH, 63, 52⟩
def LID_EPOCH_VALID : Fld := ⟨LID_EPOCH, 51, 51⟩
def LID_EPOCH_USED : Fld := ⟨LID_EPOCH, 50, 34⟩
def LID_EPOCH_BURNED : Fld := ⟨LID_EPOCH, 33, 21⟩
def LID_EPOCH_FLOOR : Fld := ⟨LID_EPOCH, 20, 14⟩
def LID_AUTH : Nat := 0x20030
def LID_AUTH_DEBUG_EN : Fld := ⟨LID_AUTH, 4, 4⟩
def LID_AUTH_REVOKED : Fld := ⟨LID_AUTH, 3, 0⟩
def LID_JOURNAL : Nat := 0x20038
def LID_JOURNAL_SEQ : Fld := ⟨LID_JOURNAL, 63, 0⟩
def LID_JMIRROR : Nat := 0x20040
def LID_JMIRROR_SIZE_LOG2 : Fld := ⟨LID_JMIRROR, 63, 58⟩
def LID_JMIRROR_BASE : Fld := ⟨LID_JMIRROR, 55, 6⟩
def LID_JHEAD (i : Nat) : Nat := 0x20048 + 0x8 * i
def LID_JHEAD_VALUE (i : Nat) : Fld := ⟨LID_JHEAD i, 63, 0⟩
def LID_KEY (i : Nat) : Nat := 0x20068 + 0x8 * i
def LID_KEY_VALUE (i : Nat) : Fld := ⟨LID_KEY i, 63, 0⟩
def LID_IDENT (i : Nat) : Nat := 0x20100 + 0x8 * i
def LID_IDENT_VALUE (i : Nat) : Fld := ⟨LID_IDENT i, 63, 0⟩

/-! ### Registers of 18_pins_power_management.md -/

def PWR_CTRL : Nat := 0x40000
def PWR_CTRL_LIMIT_W : Fld := ⟨PWR_CTRL, 63, 48⟩
def PWR_CTRL_HYST_W : Fld := ⟨PWR_CTRL, 47, 40⟩
def PWR_CTRL_STEP_UP : Fld := ⟨PWR_CTRL, 39, 36⟩
def PWR_CTRL_EXT_LEVEL : Fld := ⟨PWR_CTRL, 35, 30⟩
def PWR_CTRL_TH_START_C : Fld := ⟨PWR_CTRL, 29, 22⟩
def PWR_STATUS : Nat := 0x40008
def PWR_STATUS_LAST_CODE : Fld := ⟨PWR_STATUS, 63, 48⟩
def PWR_STATUS_POWER_W : Fld := ⟨PWR_STATUS, 47, 32⟩
def PWR_STATUS_LEVEL : Fld := ⟨PWR_STATUS, 31, 26⟩
def PWR_STATUS_L_PWR : Fld := ⟨PWR_STATUS, 25, 20⟩
def PWR_STATUS_L_TH : Fld := ⟨PWR_STATUS, 19, 14⟩
def PWR_STATUS_EXT : Fld := ⟨PWR_STATUS, 13, 13⟩
def PWR_STATUS_STOP : Fld := ⟨PWR_STATUS, 12, 12⟩
def PWR_STATUS_CALIBRATED : Fld := ⟨PWR_STATUS, 11, 11⟩
def PWR_THERM : Nat := 0x40010
def PWR_THERM_TJ_MAX : Fld := ⟨PWR_THERM, 63, 48⟩
def PWR_THERM_HOT_SENSOR : Fld := ⟨PWR_THERM, 47, 40⟩
def PWR_THERM_DIODE : Fld := ⟨PWR_THERM, 39, 24⟩
def PWR_THERM_DIODE_OPEN : Fld := ⟨PWR_THERM, 0, 0⟩
def PWR_CLK : Nat := 0x40018
def PWR_CLK_SWITCHES : Fld := ⟨PWR_CLK, 31, 16⟩
def PWR_CLK_SELECT : Fld := ⟨PWR_CLK, 3, 3⟩
def PWR_CLK_B_OK : Fld := ⟨PWR_CLK, 2, 2⟩
def PWR_CLK_A_OK : Fld := ⟨PWR_CLK, 1, 1⟩
def PWR_CLK_SEL : Fld := ⟨PWR_CLK, 0, 0⟩
def PWR_COUNT : Nat := 0x40020
def PWR_COUNT_LIMITED : Fld := ⟨PWR_COUNT, 63, 32⟩
def PWR_COUNT_THERM_STOPS : Fld := ⟨PWR_COUNT, 31, 16⟩
def PWR_COUNT_EXT_ASSERTS : Fld := ⟨PWR_COUNT, 15, 0⟩
def MGT_CTRL : Nat := 0x2600000
def MGT_CTRL_UDP_PORT : Fld := ⟨MGT_CTRL, 63, 48⟩
def MGT_CTRL_TELEM_MS : Fld := ⟨MGT_CTRL, 47, 32⟩
def MGT_CTRL_PORT1_EN : Fld := ⟨MGT_CTRL, 1, 1⟩
def MGT_CTRL_PORT0_EN : Fld := ⟨MGT_CTRL, 0, 0⟩
def MGT_STATUS : Nat := 0x2600008
def MGT_STATUS_KEY_ID : Fld := ⟨MGT_STATUS, 63, 48⟩
def MGT_STATUS_P1_FEC : Fld := ⟨MGT_STATUS, 3, 3⟩
def MGT_STATUS_P0_FEC : Fld := ⟨MGT_STATUS, 2, 2⟩
def MGT_STATUS_P1_UP : Fld := ⟨MGT_STATUS, 1, 1⟩
def MGT_STATUS_P0_UP : Fld := ⟨MGT_STATUS, 0, 0⟩
def MGT_MAC (p : Nat) : Nat := 0x2600010 + 0x8 * p
def MGT_MAC_MAC (p : Nat) : Fld := ⟨MGT_MAC p, 47, 0⟩
def MGT_IP_HI (p : Nat) : Nat := 0x2600020 + 0x10 * p
def MGT_IP_HI_ADDR (p : Nat) : Fld := ⟨MGT_IP_HI p, 63, 0⟩
def MGT_IP_LO (p : Nat) : Nat := 0x2600028 + 0x10 * p
def MGT_IP_LO_ADDR (p : Nat) : Fld := ⟨MGT_IP_LO p, 63, 0⟩
def MGT_FM_IP_HI (p : Nat) : Nat := 0x2600040 + 0x10 * p
def MGT_FM_IP_HI_ADDR (p : Nat) : Fld := ⟨MGT_FM_IP_HI p, 63, 0⟩
def MGT_FM_IP_LO (p : Nat) : Nat := 0x2600048 + 0x10 * p
def MGT_FM_IP_LO_ADDR (p : Nat) : Fld := ⟨MGT_FM_IP_LO p, 63, 0⟩
def MGT_TX_SEQ : Nat := 0x2600060
def MGT_TX_SEQ_SEQ : Fld := ⟨MGT_TX_SEQ, 63, 0⟩
def MGT_RX_HIGH : Nat := 0x2600068
def MGT_RX_HIGH_SEQ : Fld := ⟨MGT_RX_HIGH, 63, 0⟩
def MGT_COUNT : Nat := 0x2600070
def MGT_COUNT_AUTH_FAIL : Fld := ⟨MGT_COUNT, 63, 48⟩
def MGT_COUNT_DUPLICATE : Fld := ⟨MGT_COUNT, 47, 32⟩
def MGT_COUNT_DROPPED : Fld := ⟨MGT_COUNT, 31, 16⟩
def MGT_COUNT_TX_LOST : Fld := ⟨MGT_COUNT, 15, 0⟩
def SMB_CTRL : Nat := 0x2601000
def SMB_CTRL_TARGET_ADDR : Fld := ⟨SMB_CTRL, 22, 16⟩
def SMB_CTRL_RATE : Fld := ⟨SMB_CTRL, 13, 12⟩
def SMB_CTRL_POLL_MS : Fld := ⟨SMB_CTRL, 11, 0⟩
def SMB_STATUS : Nat := 0x2601008
def SMB_STATUS_RECOVERIES : Fld := ⟨SMB_STATUS, 63, 48⟩
def SMB_STATUS_NAKS : Fld := ⟨SMB_STATUS, 47, 32⟩
def SMB_STATUS_CLK_STUCK : Fld := ⟨SMB_STATUS, 2, 2⟩
def SMB_STATUS_DAT_STUCK : Fld := ⟨SMB_STATUS, 1, 1⟩
def SMB_STATUS_BUSY : Fld := ⟨SMB_STATUS, 0, 0⟩
def SMB_VR (i : Nat) : Nat := 0x2601010 + 0x8 * i
def SMB_VR_VOUT_MV (i : Nat) : Fld := ⟨SMB_VR i, 63, 48⟩
def SMB_VR_IOUT (i : Nat) : Fld := ⟨SMB_VR i, 47, 32⟩
def SMB_VR_TEMP_C (i : Nat) : Fld := ⟨SMB_VR i, 31, 24⟩
def SMB_VR_EN (i : Nat) : Fld := ⟨SMB_VR i, 7, 7⟩
def SMB_VR_ADDR (i : Nat) : Fld := ⟨SMB_VR i, 6, 0⟩

/-! ### Registers of 19_perturbation.md -/

def PTB_CTRL : Nat := 0x50000
def PTB_CTRL_LAST_CODE : Fld := ⟨PTB_CTRL, 63, 48⟩
def PTB_CTRL_CLEAR : Fld := ⟨PTB_CTRL, 1, 1⟩
def PTB_CTRL_EN : Fld := ⟨PTB_CTRL, 0, 0⟩
def PTB_SEED : Nat := 0x50008
def PTB_SEED_SEED : Fld := ⟨PTB_SEED, 63, 0⟩
def PTB_COUNT : Nat := 0x50010
def PTB_COUNT_INJECTED : Fld := ⟨PTB_COUNT, 63, 48⟩
def PTB_COUNT_GEN_DROPS : Fld := ⟨PTB_COUNT, 47, 32⟩
def PTB_COUNT_STALLED : Fld := ⟨PTB_COUNT, 31, 0⟩
def PTB_COUNT1 : Nat := 0x50018
def PTB_COUNT1_CRED_DELAYED : Fld := ⟨PTB_COUNT1, 63, 32⟩
def PTB_COUNT1_COMP_DELAYED : Fld := ⟨PTB_COUNT1, 31, 0⟩
def PTB_STALL (i : Nat) : Nat := 0x50020 + 0x8 * i
def PTB_STALL_PROB (i : Nat) : Fld := ⟨PTB_STALL i, 63, 48⟩
def PTB_STALL_LEVEL (i : Nat) : Fld := ⟨PTB_STALL i, 31, 30⟩
def PTB_STALL_UNIT (i : Nat) : Fld := ⟨PTB_STALL i, 29, 23⟩
def PTB_STALL_ARB (i : Nat) : Fld := ⟨PTB_STALL i, 22, 18⟩
def PTB_CRED (i : Nat) : Nat := 0x50060 + 0x8 * i
def PTB_CRED_DELAY_NS (i : Nat) : Fld := ⟨PTB_CRED i, 63, 48⟩
def PTB_CRED_CAP (i : Nat) : Fld := ⟨PTB_CRED i, 47, 32⟩
def PTB_CRED_IFACE (i : Nat) : Fld := ⟨PTB_CRED i, 31, 30⟩
def PTB_CRED_INDEX (i : Nat) : Fld := ⟨PTB_CRED i, 29, 24⟩
def PTB_CRED_ACT (i : Nat) : Fld := ⟨PTB_CRED i, 0, 0⟩
def PTB_DELAY : Nat := 0x500a0
def PTB_DELAY_MAX_NS : Fld := ⟨PTB_DELAY, 63, 48⟩
def PTB_DELAY_MIN_NS : Fld := ⟨PTB_DELAY, 47, 32⟩
def PTB_DELAY_CONTEXT : Fld := ⟨PTB_DELAY, 31, 20⟩
def PTB_DELAY_ALL_CTX : Fld := ⟨PTB_DELAY, 19, 19⟩
def PTB_DELAY_UNITS : Fld := ⟨PTB_DELAY, 18, 14⟩
def PTB_INJ : Nat := 0x500a8
def PTB_INJ_SITE : Fld := ⟨PTB_INJ, 63, 56⟩
def PTB_INJ_COUNT : Fld := ⟨PTB_INJ, 55, 48⟩
def PTB_INJ_UNIT : Fld := ⟨PTB_INJ, 47, 40⟩
def PTB_INJ_COLUMN : Fld := ⟨PTB_INJ, 39, 32⟩
def PTB_INJ_ROW : Fld := ⟨PTB_INJ, 31, 28⟩
def PTB_GEN : Nat := 0x500b0
def PTB_GEN_COUNT : Fld := ⟨PTB_GEN, 63, 48⟩
def PTB_GEN_SRC : Fld := ⟨PTB_GEN, 47, 32⟩
def PTB_GEN_CONTEXT : Fld := ⟨PTB_GEN, 31, 20⟩
def PTB_SKEW : Nat := 0x500b8
def PTB_SKEW_SKEW_NS : Fld := ⟨PTB_SKEW, 31, 0⟩

/-- The fields of the registers of 01_device_map.md. -/
def regTable01 : List RegSpec := [
  -- DIM_ID
  ⟨0x0, [], [⟨63, 48, .ro, .none_, 25600⟩,
    ⟨47, 40, .ro, .none_, 0⟩,
    ⟨39, 32, .ro, .none_, 0⟩,
    ⟨31, 16, .ro, .none_, 0⟩,
    ⟨15, 8, .ro, .none_, 2⟩]⟩,
  -- DIM_UNITS
  ⟨0x8, [], [⟨63, 48, .ro, .none_, 0⟩,
    ⟨47, 40, .ro, .none_, 0⟩,
    ⟨39, 32, .ro, .none_, 0⟩,
    ⟨31, 24, .ro, .none_, 0⟩,
    ⟨23, 20, .ro, .none_, 0⟩,
    ⟨3, 3, .ro, .none_, 0⟩,
    ⟨2, 2, .ro, .none_, 0⟩,
    ⟨1, 1, .ro, .none_, 0⟩,
    ⟨0, 0, .ro, .none_, 0⟩]⟩,
  -- DIM_BLOCK_MASK
  ⟨0x10, [(2, 0x8)], [⟨63, 0, .ro, .none_, 0⟩]⟩,
  -- DIM_RIM_MASK
  ⟨0x20, [], [⟨35, 0, .ro, .none_, 0⟩]⟩,
  -- DIM_ARRAY
  ⟨0x28, [], [⟨63, 56, .ro, .none_, 32⟩,
    ⟨55, 52, .ro, .none_, 2⟩,
    ⟨51, 44, .ro, .none_, 16⟩,
    ⟨43, 32, .ro, .none_, 128⟩,
    ⟨31, 20, .ro, .none_, 512⟩,
    ⟨19, 8, .ro, .none_, 256⟩,
    ⟨7, 0, .ro, .none_, 128⟩]⟩,
  -- DIM_MEMORY
  ⟨0x30, [], [⟨63, 56, .ro, .none_, 8⟩,
    ⟨55, 48, .ro, .none_, 64⟩,
    ⟨47, 36, .ro, .none_, 96⟩,
    ⟨35, 32, .ro, .none_, 4⟩,
    ⟨31, 24, .ro, .none_, 12⟩,
    ⟨23, 16, .ro, .none_, 22⟩,
    ⟨15, 8, .ro, .none_, 18⟩]⟩,
  -- DIM_COMPUTE
  ⟨0x38, [], [⟨63, 48, .ro, .none_, 2700⟩,
    ⟨47, 32, .ro, .none_, 1024⟩,
    ⟨31, 16, .ro, .none_, 256⟩,
    ⟨15, 8, .ro, .none_, 12⟩]⟩,
  -- DIM_SCHED
  ⟨0x40, [], [⟨63, 48, .ro, .none_, 32768⟩,
    ⟨47, 32, .ro, .none_, 4096⟩,
    ⟨31, 16, .ro, .none_, 4096⟩,
    ⟨15, 0, .ro, .none_, 256⟩]⟩,
  -- DIM_FABRIC
  ⟨0x48, [], [⟨63, 44, .ro, .none_, 262144⟩,
    ⟨43, 40, .ro, .none_, 4⟩,
    ⟨39, 32, .ro, .none_, 12⟩,
    ⟨31, 16, .ro, .none_, 0⟩,
    ⟨15, 8, .ro, .none_, 16⟩,
    ⟨7, 0, .ro, .none_, 112⟩]⟩]

/-- The fields of the registers of 02_fabric_time.md. -/
def regTable02 : List RegSpec := [
  -- FTU_NOW
  ⟨0x10000, [], [⟨63, 0, .ro, .none_, 0⟩]⟩,
  -- FTU_STATUS
  ⟨0x10008, [], [⟨63, 32, .ro, .none_, 0⟩,
    ⟨31, 16, .ro, .none_, 65535⟩,
    ⟨15, 12, .ro, .none_, 15⟩,
    ⟨11, 8, .ro, .none_, 0⟩,
    ⟨3, 3, .ro, .none_, 0⟩,
    ⟨2, 2, .ro, .none_, 0⟩,
    ⟨1, 1, .ro, .none_, 0⟩,
    ⟨0, 0, .ro, .none_, 0⟩]⟩,
  -- FTU_CTRL
  ⟨0x10010, [], [⟨63, 48, .rwl, .op, 1000⟩,
    ⟨47, 32, .rwl, .op, 200⟩,
    ⟨31, 24, .rwl, .op, 10⟩,
    ⟨23, 16, .rwl, .op, 0⟩,
    ⟨2, 2, .rwl, .op, 1⟩,
    ⟨1, 1, .rwl, .op, 1⟩,
    ⟨0, 0, .rwl, .op, 1⟩]⟩,
  -- FTU_EPOCH
  ⟨0x10018, [], [⟨31, 0, .rwl, .op, 0⟩]⟩,
  -- FTU_SERVO
  ⟨0x10020, [], [⟨63, 48, .rwl, .op, 50⟩,
    ⟨47, 16, .rwl, .op, 10000⟩,
    ⟨15, 8, .rwl, .op, 4⟩]⟩,
  -- FTU_PATH
  ⟨0x10100, [(38, 0x8)], [⟨63, 32, .ro, .none_, 0⟩,
    ⟨31, 0, .rwl, .op, 0⟩]⟩,
  -- FTU_TRIG_TIME
  ⟨0x11000, [(256, 0x10)], [⟨63, 0, .rwl, .op, 0⟩]⟩,
  -- RGN_TRIG_TIME
  ⟨0x108000, [(4, 0x100000), (256, 0x10)], [⟨63, 0, .rwl, .dr, 0⟩]⟩,
  -- FTU_TRIG_CTRL
  ⟨0x11008, [(256, 0x10)], [⟨63, 32, .rwl, .op, 0⟩,
    ⟨31, 24, .ro, .none_, 0⟩,
    ⟨23, 12, .rwl, .op, 0⟩,
    ⟨11, 8, .rwl, .op, 0⟩,
    ⟨1, 1, .w1c, .none_, 0⟩,
    ⟨0, 0, .rwl, .op, 0⟩]⟩,
  -- RGN_TRIG_CTRL
  ⟨0x108008, [(4, 0x100000), (256, 0x10)], [⟨63, 32, .rwl, .dr, 0⟩,
    ⟨31, 24, .ro, .none_, 0⟩,
    ⟨23, 12, .rwl, .dr, 0⟩,
    ⟨11, 8, .rwl, .dr, 0⟩,
    ⟨1, 1, .w1c, .none_, 0⟩,
    ⟨0, 0, .rwl, .dr, 0⟩]⟩]

/-- The fields of the registers of 04_weave_array.md. -/
def regTable04 : List RegSpec := [
  -- BLK_ARR_CTRL
  ⟨0x1002000, [(128, 0x10000)], [⟨7, 4, .rwl, .op, 4⟩,
    ⟨0, 0, .rwl, .op, 1⟩]⟩,
  -- BLK_ARR_STATUS
  ⟨0x1002008, [(128, 0x10000)], [⟨63, 48, .ro, .none_, 0⟩,
    ⟨47, 40, .ro, .none_, 0⟩,
    ⟨39, 36, .ro, .none_, 0⟩,
    ⟨4, 4, .ro, .none_, 0⟩,
    ⟨3, 3, .ro, .none_, 0⟩,
    ⟨2, 2, .ro, .none_, 0⟩,
    ⟨1, 1, .ro, .none_, 0⟩,
    ⟨0, 0, .ro, .none_, 0⟩]⟩,
  -- BLK_ARR_PROGRESS
  ⟨0x1002010, [(128, 0x10000)], [⟨16, 16, .ro, .none_, 0⟩,
    ⟨12, 8, .ro, .none_, 0⟩,
    ⟨7, 0, .ro, .none_, 0⟩]⟩,
  -- BLK_ARR_REMAP
  ⟨0x1002018, [(128, 0x10000)], [⟨17, 17, .ro, .none_, 0⟩,
    ⟨16, 16, .rwl, .fw, 0⟩,
    ⟨15, 9, .rwl, .fw, 0⟩,
    ⟨8, 8, .ro, .none_, 0⟩,
    ⟨7, 7, .rwl, .fw, 0⟩,
    ⟨6, 0, .rwl, .fw, 0⟩]⟩,
  -- BLK_ARR_COUNT
  ⟨0x1002020, [(128, 0x10000)], [⟨63, 48, .ro, .none_, 0⟩,
    ⟨47, 32, .ro, .none_, 0⟩,
    ⟨31, 16, .ro, .none_, 0⟩,
    ⟨15, 8, .ro, .none_, 0⟩,
    ⟨7, 0, .ro, .none_, 0⟩]⟩,
  -- BLK_ARR_CYCLES
  ⟨0x1002028, [(128, 0x10000)], [⟨63, 0, .ro, .none_, 0⟩]⟩,
  -- BLK_ARR_SKIPPED
  ⟨0x1002030, [(128, 0x10000)], [⟨63, 0, .ro, .none_, 0⟩]⟩,
  -- BLK_ARR_IDLE
  ⟨0x1002038, [(128, 0x10000)], [⟨63, 0, .ro, .none_, 0⟩]⟩]

/-- The fields of the registers of 06_vector_and_twine.md. -/
def regTable06 : List RegSpec := [
  -- BLK_VEC_STATUS
  ⟨0x1003000, [(128, 0x10000)], [⟨63, 48, .ro, .none_, 0⟩,
    ⟨47, 44, .ro, .none_, 0⟩,
    ⟨1, 1, .ro, .none_, 0⟩,
    ⟨0, 0, .ro, .none_, 0⟩]⟩,
  -- BLK_VEC_COUNT
  ⟨0x1003008, [(128, 0x10000)], [⟨63, 32, .ro, .none_, 0⟩,
    ⟨31, 0, .ro, .none_, 0⟩]⟩,
  -- BLK_VEC_FLAGS
  ⟨0x1003010, [(128, 0x10000)], [⟨5, 0, .ro, .none_, 0⟩]⟩]

/-- The fields of the registers of 07_block_core.md. -/
def regTable07 : List RegSpec := [
  -- BLK_CORE_CTRL
  ⟨0x1001000, [(128, 0x10000)], [⟨7, 4, .rwl, .op, 4⟩,
    ⟨1, 1, .wo, .none_, 0⟩,
    ⟨0, 0, .rwl, .dbg, 0⟩]⟩,
  -- BLK_CORE_STATUS
  ⟨0x1001008, [(128, 0x10000)], [⟨63, 48, .ro, .none_, 0⟩,
    ⟨8, 8, .ro, .none_, 0⟩,
    ⟨7, 7, .ro, .none_, 0⟩,
    ⟨6, 6, .ro, .none_, 0⟩,
    ⟨5, 5, .ro, .none_, 0⟩,
    ⟨4, 4, .ro, .none_, 0⟩,
    ⟨3, 3, .ro, .none_, 0⟩,
    ⟨2, 2, .ro, .none_, 0⟩,
    ⟨1, 1, .ro, .none_, 0⟩,
    ⟨0, 0, .ro, .none_, 0⟩]⟩,
  -- BLK_CORE_FAULT
  ⟨0x1001010, [(128, 0x10000)], [⟨63, 48, .ro, .none_, 0⟩,
    ⟨47, 40, .ro, .none_, 0⟩,
    ⟨36, 36, .ro, .none_, 0⟩,
    ⟨35, 32, .ro, .none_, 0⟩,
    ⟨31, 0, .ro, .none_, 0⟩]⟩,
  -- BLK_CORE_FAULT_PC
  ⟨0x1001018, [(128, 0x10000)], [⟨47, 0, .ro, .none_, 0⟩]⟩,
  -- BLK_CORE_RETIRED
  ⟨0x1001020, [(128, 0x10000)], [⟨63, 0, .ro, .none_, 0⟩]⟩,
  -- BLK_CORE_COUNT
  ⟨0x1001028, [(128, 0x10000)], [⟨63, 48, .ro, .none_, 0⟩,
    ⟨47, 32, .ro, .none_, 0⟩,
    ⟨31, 16, .ro, .none_, 0⟩,
    ⟨15, 0, .ro, .none_, 0⟩]⟩]

/-- The fields of the registers of 08_training_numerics.md. -/
def regTable08 : List RegSpec := [
  -- BLK_NUM_PENDING
  ⟨0x1004000, [(128, 0x10000)], [⟨31, 0, .ro, .none_, 0⟩]⟩,
  -- BLK_NUM_COUNT
  ⟨0x1004008, [(128, 0x10000)], [⟨63, 32, .ro, .none_, 0⟩,
    ⟨31, 0, .ro, .none_, 0⟩]⟩]

/-- The fields of the registers of 09_memory.md. -/
def regTable09 : List RegSpec := [
  -- HBM_STATUS
  ⟨0x2000000, [(8, 0x10000)], [⟨63, 48, .ro, .none_, 0⟩,
    ⟨47, 37, .ro, .none_, 0⟩,
    ⟨3, 3, .ro, .none_, 0⟩,
    ⟨2, 2, .ro, .none_, 0⟩,
    ⟨1, 1, .ro, .none_, 0⟩,
    ⟨0, 0, .ro, .none_, 0⟩]⟩,
  -- HBM_COUNT
  ⟨0x2000008, [(8, 0x10000)], [⟨63, 48, .ro, .none_, 0⟩,
    ⟨47, 32, .ro, .none_, 0⟩,
    ⟨31, 16, .ro, .none_, 0⟩,
    ⟨15, 0, .ro, .none_, 0⟩]⟩,
  -- HBM_ILV
  ⟨0x2080000, [], [⟨63, 59, .ro, .none_, 0⟩,
    ⟨58, 0, .rwl, .op, 0⟩]⟩,
  -- HBM_TLBI_ADDR
  ⟨0x2080008, [], [⟨47, 16, .rwl, .dr, 0⟩]⟩,
  -- HBM_TLBI_CTRL
  ⟨0x2080010, [], [⟨63, 63, .ro, .none_, 1⟩,
    ⟨62, 62, .wo, .none_, 0⟩,
    ⟨61, 61, .rwl, .dr, 0⟩,
    ⟨59, 48, .rwl, .dr, 0⟩,
    ⟨31, 0, .rwl, .dr, 0⟩]⟩,
  -- HBM_DIRTY_CTRL
  ⟨0x2080018, [], [⟨1, 1, .wo, .none_, 0⟩,
    ⟨0, 0, .ro, .none_, 0⟩]⟩,
  -- HBM_DIRTY
  ⟨0x2090000, [(2, 0x8000), (3815, 0x8)], [⟨63, 0, .w1c, .none_, 0⟩]⟩,
  -- HBM_SCRUB_BASE
  ⟨0x2080020, [], [⟨38, 16, .rwl, .opDr, 0⟩]⟩,
  -- HBM_SCRUB_CTRL
  ⟨0x2080028, [], [⟨63, 63, .ro, .none_, 1⟩,
    ⟨62, 62, .wo, .none_, 0⟩,
    ⟨31, 0, .rwl, .opDr, 0⟩]⟩,
  -- HBM_PROT
  ⟨0x2080040, [(8, 0x8)], [⟨63, 63, .rwl, .op, 0⟩,
    ⟨62, 40, .rwl, .op, 0⟩,
    ⟨38, 16, .rwl, .op, 0⟩]⟩]

/-- The fields of the registers of 10_arbitration.md. -/
def regTable10 : List RegSpec := [
  -- SCH_ARB_CFG
  ⟨0x88000, [(17, 0x20)], [⟨63, 48, .rwl, .op, 16⟩,
    ⟨47, 40, .rwl, .op, 15⟩,
    ⟨39, 34, .rwl, .op, 0⟩,
    ⟨33, 32, .rwl, .dbg, 2⟩,
    ⟨31, 26, .ro, .none_, 0⟩,
    ⟨4, 4, .wo, .none_, 0⟩,
    ⟨3, 3, .rwl, .dbg, 0⟩,
    ⟨2, 2, .ro, .none_, 1⟩,
    ⟨1, 1, .ro, .none_, 0⟩,
    ⟨0, 0, .ro, .none_, 0⟩]⟩,
  -- RGN_ARB_CFG
  ⟨0x10c000, [(4, 0x100000), (4, 0x20)], [⟨63, 48, .rwl, .op, 16⟩,
    ⟨47, 40, .rwl, .op, 15⟩,
    ⟨39, 34, .rwl, .op, 0⟩,
    ⟨33, 32, .rwl, .dbg, 2⟩,
    ⟨31, 26, .ro, .none_, 0⟩,
    ⟨4, 4, .wo, .none_, 0⟩,
    ⟨3, 3, .rwl, .dbg, 0⟩,
    ⟨2, 2, .ro, .none_, 1⟩,
    ⟨1, 1, .ro, .none_, 0⟩,
    ⟨0, 0, .ro, .none_, 0⟩]⟩,
  -- BLK_ARB_CFG
  ⟨0x1005000, [(128, 0x10000), (21, 0x20)], [⟨63, 48, .rwl, .opDr, 16⟩,
    ⟨47, 40, .rwl, .opDr, 15⟩,
    ⟨39, 34, .ro, .none_, 63⟩,
    ⟨33, 32, .rwl, .dbg, 2⟩,
    ⟨31, 26, .ro, .none_, 0⟩,
    ⟨4, 4, .wo, .none_, 0⟩,
    ⟨3, 3, .rwl, .dbg, 0⟩,
    ⟨2, 2, .ro, .none_, 1⟩,
    ⟨1, 1, .ro, .none_, 0⟩,
    ⟨0, 0, .ro, .none_, 0⟩]⟩,
  -- SCH_ARB_PRIO
  ⟨0x88008, [(17, 0x20)], [⟨63, 0, .rwl, .op, 0⟩]⟩,
  -- RGN_ARB_PRIO
  ⟨0x10c008, [(4, 0x100000), (4, 0x20)], [⟨63, 0, .rwl, .op, 0⟩]⟩,
  -- BLK_ARB_PRIO
  ⟨0x1005008, [(128, 0x10000), (21, 0x20)], [⟨63, 0, .rwl, .opDr, 0⟩]⟩,
  -- SCH_ARB_MASK
  ⟨0x88010, [(17, 0x20)], [⟨63, 0, .ro, .none_, 0⟩]⟩,
  -- RGN_ARB_MASK
  ⟨0x10c010, [(4, 0x100000), (4, 0x20)], [⟨63, 0, .ro, .none_, 0⟩]⟩,
  -- BLK_ARB_MASK
  ⟨0x1005010, [(128, 0x10000), (21, 0x20)], [⟨63, 0, .ro, .none_, 0⟩]⟩,
  -- SCH_ARB_STAT
  ⟨0x88018, [(17, 0x20)], [⟨63, 32, .ro, .none_, 0⟩,
    ⟨31, 16, .ro, .none_, 0⟩,
    ⟨15, 0, .ro, .none_, 0⟩]⟩,
  -- RGN_ARB_STAT
  ⟨0x10c018, [(4, 0x100000), (4, 0x20)], [⟨63, 32, .ro, .none_, 0⟩,
    ⟨31, 16, .ro, .none_, 0⟩,
    ⟨15, 0, .ro, .none_, 0⟩]⟩,
  -- BLK_ARB_STAT
  ⟨0x1005018, [(128, 0x10000), (21, 0x20)], [⟨63, 32, .ro, .none_, 0⟩,
    ⟨31, 16, .ro, .none_, 0⟩,
    ⟨15, 0, .ro, .none_, 0⟩]⟩]

/-- The fields of the registers of 11_scheduling.md. -/
def regTable11 : List RegSpec := [
  -- SCH_CTRL
  ⟨0x80000, [], [⟨63, 32, .rwl, .op, 20000⟩,
    ⟨0, 0, .rwl, .op, 1⟩]⟩,
  -- SCH_STATUS
  ⟨0x80008, [], [⟨63, 48, .ro, .none_, 0⟩,
    ⟨47, 32, .ro, .none_, 0⟩,
    ⟨31, 16, .ro, .none_, 0⟩]⟩,
  -- SCH_QTABLE
  ⟨0x80010, [], [⟨38, 21, .rwl, .op, 0⟩]⟩,
  -- SCH_CTABLE
  ⟨0x80018, [], [⟨38, 21, .rwl, .op, 0⟩]⟩,
  -- SCH_PART_BLOCKS0
  ⟨0x80100, [(16, 0x20)], [⟨63, 0, .rwl, .op, 0⟩]⟩,
  -- SCH_PART_BLOCKS1
  ⟨0x80108, [(16, 0x20)], [⟨63, 0, .rwl, .op, 0⟩]⟩,
  -- SCH_PART_HBM
  ⟨0x80110, [(16, 0x20)], [⟨62, 40, .rwl, .op, 0⟩,
    ⟨38, 16, .rwl, .op, 0⟩]⟩,
  -- SCH_PART_CTRL
  ⟨0x80118, [(16, 0x20)], [⟨63, 52, .rwl, .op, 0⟩,
    ⟨51, 48, .ro, .none_, 0⟩,
    ⟨47, 43, .ro, .none_, 0⟩,
    ⟨0, 0, .ro, .none_, 0⟩]⟩,
  -- SCH_NRING_BASE
  ⟨0x80400, [(17, 0x10)], [⟨63, 48, .ro, .none_, 0⟩,
    ⟨38, 16, .rwl, .ring, 0⟩,
    ⟨4, 0, .rwl, .ring, 0⟩]⟩,
  -- SCH_NRING_IDX
  ⟨0x80408, [(17, 0x10)], [⟨63, 32, .ro, .none_, 0⟩,
    ⟨31, 0, .rwl, .ring, 0⟩]⟩,
  -- SCH_CMD
  ⟨0x80600, [], [⟨63, 63, .ro, .none_, 1⟩,
    ⟨62, 62, .wo, .none_, 0⟩,
    ⟨57, 54, .rwl, .opDr, 0⟩,
    ⟨53, 50, .rwl, .opDr, 0⟩,
    ⟨49, 35, .rwl, .opDr, 0⟩,
    ⟨34, 23, .rwl, .opDr, 0⟩,
    ⟨15, 0, .ro, .none_, 0⟩]⟩,
  -- RGN_SCH_STATUS
  ⟨0x100000, [(4, 0x100000)], [⟨63, 48, .ro, .none_, 0⟩,
    ⟨47, 32, .ro, .none_, 0⟩,
    ⟨31, 16, .ro, .none_, 0⟩]⟩,
  -- RGN_SCH_COUNT
  ⟨0x100008, [(4, 0x100000)], [⟨63, 32, .ro, .none_, 0⟩,
    ⟨31, 0, .ro, .none_, 0⟩]⟩,
  -- DB_TAIL
  ⟨0x3000000, [(32768, 0x200)], [⟨33, 32, .ro, .none_, 0⟩,
    ⟨31, 0, .rw, .none_, 0⟩]⟩,
  -- DB_STATE
  ⟨0x3000008, [(32768, 0x200)], [⟨63, 32, .ro, .none_, 0⟩,
    ⟨31, 0, .ro, .none_, 0⟩]⟩]

/-- The fields of the registers of 12_rim_links.md. -/
def regTable12 : List RegSpec := [
  -- RIM_CTRL
  ⟨0x2100000, [(36, 0x4000)], [⟨63, 48, .rwl, .op, 0⟩,
    ⟨47, 32, .rwl, .op, 2000⟩,
    ⟨31, 24, .rwl, .op, 8⟩,
    ⟨23, 12, .rwl, .op, 1000⟩,
    ⟨7, 7, .rwl, .op, 0⟩,
    ⟨6, 6, .wo, .none_, 0⟩,
    ⟨5, 5, .wo, .none_, 0⟩,
    ⟨4, 4, .wo, .none_, 0⟩,
    ⟨1, 1, .rwl, .op, 0⟩,
    ⟨0, 0, .rwl, .op, 0⟩]⟩,
  -- RIM_STATUS
  ⟨0x2100008, [(36, 0x4000)], [⟨63, 48, .ro, .none_, 0⟩,
    ⟨47, 40, .ro, .none_, 255⟩,
    ⟨39, 32, .ro, .none_, 0⟩,
    ⟨31, 24, .ro, .none_, 0⟩,
    ⟨23, 8, .ro, .none_, 0⟩,
    ⟨6, 6, .ro, .none_, 0⟩,
    ⟨5, 5, .ro, .none_, 0⟩,
    ⟨4, 4, .ro, .none_, 0⟩,
    ⟨3, 0, .ro, .none_, 0⟩]⟩,
  -- RIM_WIRE
  ⟨0x2100010, [(36, 0x4000)], [⟨63, 63, .rwl, .op, 0⟩,
    ⟨5, 0, .rwl, .op, 0⟩]⟩,
  -- RIM_WIRE_DIGEST
  ⟨0x2100018, [(36, 0x4000), (4, 0x8)], [⟨63, 0, .rwl, .op, 0⟩]⟩,
  -- RIM_PEER_DIGEST
  ⟨0x2100038, [(36, 0x4000), (4, 0x8)], [⟨63, 0, .ro, .none_, 0⟩]⟩,
  -- RIM_FAR_WIN
  ⟨0x2100058, [(36, 0x4000)], [⟨63, 40, .rwl, .op, 0⟩,
    ⟨38, 16, .rwl, .op, 0⟩]⟩,
  -- RIM_TIMER
  ⟨0x2100060, [(36, 0x4000)], [⟨31, 16, .rwl, .op, 500⟩,
    ⟨15, 0, .rwl, .op, 1000⟩]⟩,
  -- RIM_OPTICS
  ⟨0x2100068, [(36, 0x4000)], [⟨31, 0, .ro, .none_, 2155905152⟩]⟩,
  -- RIM_COUNT0
  ⟨0x2100070, [(36, 0x4000)], [⟨63, 48, .ro, .none_, 0⟩,
    ⟨47, 32, .ro, .none_, 0⟩,
    ⟨31, 16, .ro, .none_, 0⟩,
    ⟨15, 0, .ro, .none_, 0⟩]⟩,
  -- RIM_COUNT1
  ⟨0x2100078, [(36, 0x4000)], [⟨63, 32, .ro, .none_, 0⟩,
    ⟨31, 24, .ro, .none_, 0⟩,
    ⟨23, 16, .ro, .none_, 0⟩,
    ⟨15, 12, .ro, .none_, 0⟩,
    ⟨11, 8, .ro, .none_, 0⟩,
    ⟨7, 4, .ro, .none_, 0⟩,
    ⟨3, 0, .ro, .none_, 0⟩]⟩,
  -- RIM_SESSION
  ⟨0x2100080, [(36, 0x4000)], [⟨63, 32, .ro, .none_, 0⟩,
    ⟨31, 0, .ro, .none_, 0⟩]⟩,
  -- RIM_GLOBAL
  ⟨0x2190000, [], [⟨63, 56, .rwl, .op, 1⟩,
    ⟨55, 48, .rwl, .op, 2⟩,
    ⟨47, 32, .ro, .none_, 36⟩]⟩]

/-- The fields of the registers of 13_plait.md. -/
def regTable13 : List RegSpec := [
  -- RPT_GLOBAL
  ⟨0x2200000, [], [⟨63, 48, .ro, .none_, 0⟩,
    ⟨47, 40, .rwl, .op, 8⟩,
    ⟨39, 36, .ro, .none_, 0⟩,
    ⟨35, 35, .ro, .none_, 0⟩,
    ⟨20, 20, .wo, .none_, 0⟩,
    ⟨19, 18, .rwl, .op, 0⟩,
    ⟨17, 16, .ro, .none_, 0⟩,
    ⟨15, 0, .rwl, .op, 0⟩]⟩,
  -- RPT_RT_SEL
  ⟨0x2200010, [], [⟨17, 16, .rwl, .op, 0⟩,
    ⟨15, 0, .rwl, .op, 0⟩]⟩,
  -- RPT_RT_DATA
  ⟨0x2200018, [], [⟨7, 7, .rwl, .op, 0⟩,
    ⟨3, 0, .rwl, .op, 0⟩]⟩,
  -- RPT_COUNT
  ⟨0x2200020, [], [⟨63, 32, .ro, .none_, 0⟩,
    ⟨31, 16, .ro, .none_, 0⟩,
    ⟨15, 0, .ro, .none_, 0⟩]⟩,
  -- RPT_MAP_PORT
  ⟨0x2201000, [(4, 0x80), (12, 0x8)], [⟨35, 0, .rwl, .op, 0⟩]⟩,
  -- RPT_FARIN
  ⟨0x2202000, [(36, 0x8)], [⟨63, 40, .rwl, .op, 0⟩,
    ⟨38, 16, .rwl, .op, 0⟩]⟩,
  -- PLT_CTRL
  ⟨0x2300000, [], [⟨63, 32, .rwl, .op, 50000⟩,
    ⟨31, 16, .rwl, .op, 1000⟩]⟩,
  -- PLT_STATUS
  ⟨0x2300008, [], [⟨63, 48, .ro, .none_, 0⟩,
    ⟨47, 32, .ro, .none_, 0⟩,
    ⟨31, 16, .ro, .none_, 0⟩,
    ⟨0, 0, .ro, .none_, 0⟩]⟩,
  -- PLT_TRACKER
  ⟨0x2300010, [], [⟨63, 32, .ro, .none_, 0⟩,
    ⟨31, 0, .ro, .none_, 0⟩]⟩,
  -- PLT_COUNT0
  ⟨0x2300018, [], [⟨63, 32, .ro, .none_, 0⟩,
    ⟨31, 16, .ro, .none_, 0⟩,
    ⟨15, 0, .ro, .none_, 0⟩]⟩,
  -- PLT_COUNT1
  ⟨0x2300020, [], [⟨63, 32, .ro, .none_, 0⟩,
    ⟨31, 0, .ro, .none_, 0⟩]⟩]

/-- The fields of the registers of 14_coil_and_handover.md. -/
def regTable14 : List RegSpec := [
  -- COL_CTRL
  ⟨0x2400000, [(16, 0x80)], [⟨63, 52, .rwl, .opDr, 0⟩,
    ⟨51, 48, .rwl, .opDr, 0⟩,
    ⟨44, 40, .rwl, .opDr, 0⟩,
    ⟨39, 36, .rwl, .opDr, 0⟩,
    ⟨1, 1, .rwl, .opDr, 0⟩,
    ⟨0, 0, .rwl, .opDr, 0⟩]⟩,
  -- COL_MEMBERS
  ⟨0x2400008, [(16, 0x80)], [⟨38, 12, .rwl, .opDr, 0⟩]⟩,
  -- COL_IMAGE
  ⟨0x2400010, [(16, 0x80)], [⟨63, 40, .rwl, .opDr, 0⟩,
    ⟨38, 12, .rwl, .opDr, 0⟩]⟩,
  -- COL_MIRROR
  ⟨0x2400018, [(16, 0x80)], [⟨63, 40, .ro, .none_, 0⟩,
    ⟨38, 21, .rwl, .opDr, 0⟩]⟩,
  -- COL_PARITY
  ⟨0x2400020, [(16, 0x80)], [⟨63, 40, .ro, .none_, 0⟩,
    ⟨38, 21, .rwl, .opDr, 0⟩]⟩,
  -- COL_STAGE
  ⟨0x2400028, [(16, 0x80)], [⟨63, 40, .rwl, .opDr, 0⟩,
    ⟨38, 21, .rwl, .opDr, 0⟩]⟩,
  -- COL_CONTROL
  ⟨0x2400030, [(16, 0x80)], [⟨63, 40, .ro, .none_, 0⟩,
    ⟨38, 21, .rwl, .opDr, 0⟩]⟩,
  -- COL_STATUS
  ⟨0x2400038, [(16, 0x80)], [⟨63, 48, .ro, .none_, 0⟩,
    ⟨47, 32, .ro, .none_, 0⟩,
    ⟨8, 8, .ro, .none_, 0⟩,
    ⟨7, 4, .ro, .none_, 0⟩,
    ⟨3, 0, .ro, .none_, 0⟩]⟩,
  -- COL_SEQ
  ⟨0x2400040, [(16, 0x80)], [⟨63, 32, .rwl, .opDr, 0⟩,
    ⟨31, 0, .ro, .none_, 0⟩]⟩,
  -- COL_STEP
  ⟨0x2400048, [(16, 0x80)], [⟨63, 0, .rwl, .opDr, 0⟩]⟩,
  -- COL_CMD
  ⟨0x2400050, [(16, 0x80)], [⟨63, 63, .ro, .none_, 1⟩,
    ⟨62, 62, .wo, .none_, 0⟩,
    ⟨59, 56, .rwl, .opDr, 0⟩,
    ⟨55, 54, .rwl, .opDr, 0⟩,
    ⟨53, 53, .rwl, .opDr, 0⟩,
    ⟨31, 16, .rwl, .opDr, 0⟩,
    ⟨15, 0, .ro, .none_, 0⟩]⟩,
  -- COL_COUNT
  ⟨0x2400058, [(16, 0x80)], [⟨63, 32, .ro, .none_, 0⟩,
    ⟨31, 24, .ro, .none_, 0⟩,
    ⟨23, 16, .ro, .none_, 0⟩,
    ⟨15, 8, .ro, .none_, 0⟩,
    ⟨7, 0, .ro, .none_, 0⟩]⟩,
  -- RPL_CTRL
  ⟨0x2410000, [], [⟨63, 52, .rwl, .op, 0⟩,
    ⟨1, 0, .rwl, .op, 0⟩]⟩,
  -- RPL_STATUS
  ⟨0x2410008, [], [⟨63, 48, .ro, .none_, 0⟩,
    ⟨47, 28, .ro, .none_, 0⟩,
    ⟨0, 0, .ro, .none_, 0⟩]⟩]

/-- The fields of the registers of 15_reset_and_recovery.md. -/
def regTable15 : List RegSpec := [
  -- RST_CTRL
  ⟨0x30000, [], [⟨63, 32, .rwl, .op, 0⟩,
    ⟨31, 16, .rwl, .op, 100⟩,
    ⟨15, 8, .rwl, .op, 100⟩,
    ⟨0, 0, .rwl, .op, 1⟩]⟩,
  -- RST_STATUS
  ⟨0x30008, [], [⟨63, 48, .ro, .none_, 0⟩,
    ⟨47, 32, .ro, .none_, 1072⟩,
    ⟨4, 4, .ro, .none_, 0⟩,
    ⟨3, 3, .ro, .none_, 0⟩,
    ⟨2, 2, .ro, .none_, 0⟩,
    ⟨1, 1, .ro, .none_, 0⟩,
    ⟨0, 0, .ro, .none_, 0⟩]⟩,
  -- RST_PART_CMD
  ⟨0x30010, [], [⟨63, 63, .ro, .none_, 1⟩,
    ⟨62, 62, .wo, .none_, 0⟩,
    ⟨51, 48, .rwl, .opDr, 0⟩,
    ⟨15, 0, .ro, .none_, 0⟩]⟩,
  -- RST_HEARTBEAT
  ⟨0x30018, [], [⟨31, 0, .rwl, .dr, 0⟩]⟩,
  -- RST_WD
  ⟨0x30020, [], [⟨63, 56, .rwl, .op, 4⟩,
    ⟨55, 48, .rwl, .op, 3⟩,
    ⟨47, 40, .rwl, .op, 5⟩,
    ⟨39, 24, .rwl, .op, 64⟩]⟩,
  -- RST_BORDER
  ⟨0x30028, [], [⟨63, 32, .ro, .none_, 0⟩,
    ⟨31, 16, .ro, .none_, 0⟩,
    ⟨15, 0, .ro, .none_, 0⟩]⟩,
  -- RST_PEER_SEL
  ⟨0x30030, [], [⟨15, 0, .rwl, .op, 0⟩]⟩,
  -- RST_PEER_DATA
  ⟨0x30038, [], [⟨0, 0, .rwl, .op, 0⟩]⟩,
  -- HLT_COUNT
  ⟨0x30100, [], [⟨63, 48, .ro, .none_, 0⟩,
    ⟨47, 32, .ro, .none_, 0⟩,
    ⟨31, 16, .ro, .none_, 0⟩,
    ⟨15, 0, .ro, .none_, 0⟩]⟩,
  -- HLT_PRIOR
  ⟨0x30108, [], [⟨63, 48, .rwl, .fwDr, 0⟩,
    ⟨47, 32, .rwl, .fwDr, 0⟩,
    ⟨31, 16, .rwl, .fwDr, 0⟩,
    ⟨15, 0, .rwl, .fwDr, 0⟩]⟩,
  -- HLT_STATUS
  ⟨0x30110, [], [⟨63, 56, .ro, .none_, 0⟩,
    ⟨9, 1, .ro, .none_, 0⟩,
    ⟨0, 0, .ro, .none_, 0⟩]⟩,
  -- HLT_RTS
  ⟨0x30118, [], [⟨63, 63, .ro, .none_, 1⟩,
    ⟨62, 62, .wo, .none_, 0⟩,
    ⟨47, 32, .ro, .none_, 0⟩,
    ⟨31, 16, .ro, .none_, 0⟩,
    ⟨15, 0, .ro, .none_, 0⟩]⟩,
  -- HLT_BLOCK_OUT
  ⟨0x30120, [(2, 0x8)], [⟨63, 0, .ro, .none_, 0⟩]⟩]

/-- The fields of the registers of 16_josil_link.md. -/
def regTable16 : List RegSpec := [
  -- JSL_CTRL
  ⟨0x2500000, [], [⟨63, 40, .rwl, .dr, 10000⟩,
    ⟨39, 32, .rwl, .dr, 8⟩,
    ⟨31, 28, .rwl, .dr, 4⟩,
    ⟨18, 2, .rwl, .dr, 131071⟩,
    ⟨1, 1, .wo, .none_, 0⟩,
    ⟨0, 0, .wo, .none_, 0⟩]⟩,
  -- JSL_STATUS
  ⟨0x2500008, [], [⟨63, 48, .ro, .none_, 0⟩,
    ⟨47, 32, .ro, .none_, 0⟩,
    ⟨31, 16, .ro, .none_, 0⟩,
    ⟨15, 15, .ro, .none_, 0⟩,
    ⟨14, 10, .ro, .none_, 0⟩,
    ⟨9, 5, .ro, .none_, 0⟩,
    ⟨4, 4, .ro, .none_, 0⟩,
    ⟨3, 0, .ro, .none_, 0⟩]⟩,
  -- JSL_COUNT0
  ⟨0x2500010, [], [⟨63, 48, .ro, .none_, 0⟩,
    ⟨47, 32, .ro, .none_, 0⟩,
    ⟨31, 16, .ro, .none_, 0⟩,
    ⟨15, 0, .ro, .none_, 0⟩]⟩,
  -- JSL_COUNT1
  ⟨0x2500018, [], [⟨63, 48, .ro, .none_, 0⟩,
    ⟨47, 32, .ro, .none_, 0⟩,
    ⟨31, 16, .ro, .none_, 0⟩,
    ⟨15, 0, .ro, .none_, 0⟩]⟩,
  -- JSL_CACHE
  ⟨0x2500020, [], [⟨63, 48, .ro, .none_, 0⟩,
    ⟨47, 32, .ro, .none_, 0⟩,
    ⟨31, 0, .ro, .none_, 0⟩]⟩]

/-- The fields of the registers of 17_upsett_and_security.md. -/
def regTable17 : List RegSpec := [
  -- LID_STATUS
  ⟨0x20000, [], [⟨63, 48, .ro, .none_, 0⟩,
    ⟨47, 44, .ro, .none_, 1⟩,
    ⟨43, 36, .ro, .none_, 0⟩,
    ⟨4, 4, .ro, .none_, 0⟩,
    ⟨3, 3, .ro, .none_, 0⟩,
    ⟨2, 2, .ro, .none_, 0⟩,
    ⟨1, 1, .ro, .none_, 0⟩,
    ⟨0, 0, .ro, .none_, 0⟩]⟩,
  -- LID_CMD
  ⟨0x20008, [], [⟨63, 63, .ro, .none_, 1⟩,
    ⟨62, 62, .wo, .none_, 0⟩,
    ⟨59, 56, .rwl, .dr, 0⟩,
    ⟨47, 24, .rwl, .dr, 0⟩,
    ⟨15, 0, .ro, .none_, 0⟩]⟩,
  -- LID_BOOT
  ⟨0x20010, [], [⟨55, 8, .rwl, .dr, 0⟩]⟩,
  -- LID_REPAIR
  ⟨0x20018, [], [⟨55, 8, .rwl, .dr, 0⟩]⟩,
  -- LID_ATTEST
  ⟨0x20020, [], [⟨55, 8, .rwl, .dr, 0⟩]⟩,
  -- LID_EPOCH
  ⟨0x20028, [], [⟨63, 52, .ro, .none_, 0⟩,
    ⟨51, 51, .ro, .none_, 0⟩,
    ⟨50, 34, .ro, .none_, 0⟩,
    ⟨33, 21, .ro, .none_, 0⟩,
    ⟨20, 14, .ro, .none_, 0⟩]⟩,
  -- LID_AUTH
  ⟨0x20030, [], [⟨4, 4, .ro, .none_, 0⟩,
    ⟨3, 0, .ro, .none_, 0⟩]⟩,
  -- LID_JOURNAL
  ⟨0x20038, [], [⟨63, 0, .ro, .none_, 0⟩]⟩,
  -- LID_JMIRROR
  ⟨0x20040, [], [⟨63, 58, .rwl, .dr, 0⟩,
    ⟨55, 6, .rwl, .dr, 0⟩]⟩,
  -- LID_JHEAD
  ⟨0x20048, [(4, 0x8)], [⟨63, 0, .ro, .none_, 0⟩]⟩,
  -- LID_KEY
  ⟨0x20068, [(4, 0x8)], [⟨63, 0, .wol, .dr, 0⟩]⟩,
  -- LID_IDENT
  ⟨0x20100, [(4, 0x8)], [⟨63, 0, .ro, .none_, 0⟩]⟩]

/-- The fields of the registers of 18_pins_power_management.md. -/
def regTable18 : List RegSpec := [
  -- PWR_CTRL
  ⟨0x40000, [], [⟨63, 48, .rwl, .op, 0⟩,
    ⟨47, 40, .rwl, .op, 20⟩,
    ⟨39, 36, .rwl, .op, 4⟩,
    ⟨35, 30, .rwl, .op, 32⟩,
    ⟨29, 22, .rwl, .op, 95⟩]⟩,
  -- PWR_STATUS
  ⟨0x40008, [], [⟨63, 48, .ro, .none_, 0⟩,
    ⟨47, 32, .ro, .none_, 0⟩,
    ⟨31, 26, .ro, .none_, 0⟩,
    ⟨25, 20, .ro, .none_, 0⟩,
    ⟨19, 14, .ro, .none_, 0⟩,
    ⟨13, 13, .ro, .none_, 0⟩,
    ⟨12, 12, .ro, .none_, 0⟩,
    ⟨11, 11, .ro, .none_, 0⟩]⟩,
  -- PWR_THERM
  ⟨0x40010, [], [⟨63, 48, .ro, .none_, 0⟩,
    ⟨47, 40, .ro, .none_, 0⟩,
    ⟨39, 24, .ro, .none_, 0⟩,
    ⟨0, 0, .ro, .none_, 0⟩]⟩,
  -- PWR_CLK
  ⟨0x40018, [], [⟨31, 16, .ro, .none_, 0⟩,
    ⟨3, 3, .wo, .none_, 0⟩,
    ⟨2, 2, .ro, .none_, 0⟩,
    ⟨1, 1, .ro, .none_, 0⟩,
    ⟨0, 0, .ro, .none_, 0⟩]⟩,
  -- PWR_COUNT
  ⟨0x40020, [], [⟨63, 32, .ro, .none_, 0⟩,
    ⟨31, 16, .ro, .none_, 0⟩,
    ⟨15, 0, .ro, .none_, 0⟩]⟩,
  -- MGT_CTRL
  ⟨0x2600000, [], [⟨63, 48, .rwl, .dr, 7462⟩,
    ⟨47, 32, .rwl, .dr, 1000⟩,
    ⟨1, 1, .rwl, .dr, 1⟩,
    ⟨0, 0, .rwl, .dr, 1⟩]⟩,
  -- MGT_STATUS
  ⟨0x2600008, [], [⟨63, 48, .ro, .none_, 0⟩,
    ⟨3, 3, .ro, .none_, 0⟩,
    ⟨2, 2, .ro, .none_, 0⟩,
    ⟨1, 1, .ro, .none_, 0⟩,
    ⟨0, 0, .ro, .none_, 0⟩]⟩,
  -- MGT_MAC
  ⟨0x2600010, [(2, 0x8)], [⟨47, 0, .ro, .none_, 0⟩]⟩,
  -- MGT_IP_HI
  ⟨0x2600020, [(2, 0x10)], [⟨63, 0, .rwl, .dr, 0⟩]⟩,
  -- MGT_IP_LO
  ⟨0x2600028, [(2, 0x10)], [⟨63, 0, .rwl, .dr, 0⟩]⟩,
  -- MGT_FM_IP_HI
  ⟨0x2600040, [(2, 0x10)], [⟨63, 0, .rwl, .dr, 0⟩]⟩,
  -- MGT_FM_IP_LO
  ⟨0x2600048, [(2, 0x10)], [⟨63, 0, .rwl, .dr, 0⟩]⟩,
  -- MGT_TX_SEQ
  ⟨0x2600060, [], [⟨63, 0, .ro, .none_, 0⟩]⟩,
  -- MGT_RX_HIGH
  ⟨0x2600068, [], [⟨63, 0, .ro, .none_, 0⟩]⟩,
  -- MGT_COUNT
  ⟨0x2600070, [], [⟨63, 48, .ro, .none_, 0⟩,
    ⟨47, 32, .ro, .none_, 0⟩,
    ⟨31, 16, .ro, .none_, 0⟩,
    ⟨15, 0, .ro, .none_, 0⟩]⟩,
  -- SMB_CTRL
  ⟨0x2601000, [], [⟨22, 16, .rwl, .dr, 76⟩,
    ⟨13, 12, .rwl, .dr, 1⟩,
    ⟨11, 0, .rwl, .dr, 1⟩]⟩,
  -- SMB_STATUS
  ⟨0x2601008, [], [⟨63, 48, .ro, .none_, 0⟩,
    ⟨47, 32, .ro, .none_, 0⟩,
    ⟨2, 2, .ro, .none_, 0⟩,
    ⟨1, 1, .ro, .none_, 0⟩,
    ⟨0, 0, .ro, .none_, 0⟩]⟩,
  -- SMB_VR
  ⟨0x2601010, [(9, 0x8)], [⟨63, 48, .ro, .none_, 0⟩,
    ⟨47, 32, .ro, .none_, 0⟩,
    ⟨31, 24, .ro, .none_, 0⟩,
    ⟨7, 7, .rwl, .dr, 1⟩,
    ⟨6, 0, .rwl, .dr, 64⟩]⟩]

/-- The fields of the registers of 19_perturbation.md. -/
def regTable19 : List RegSpec := [
  -- PTB_CTRL
  ⟨0x50000, [], [⟨63, 48, .ro, .none_, 0⟩,
    ⟨1, 1, .wo, .none_, 0⟩,
    ⟨0, 0, .rwl, .dbg, 0⟩]⟩,
  -- PTB_SEED
  ⟨0x50008, [], [⟨63, 0, .rwl, .dbg, 0⟩]⟩,
  -- PTB_COUNT
  ⟨0x50010, [], [⟨63, 48, .ro, .none_, 0⟩,
    ⟨47, 32, .ro, .none_, 0⟩,
    ⟨31, 0, .ro, .none_, 0⟩]⟩,
  -- PTB_COUNT1
  ⟨0x50018, [], [⟨63, 32, .ro, .none_, 0⟩,
    ⟨31, 0, .ro, .none_, 0⟩]⟩,
  -- PTB_STALL
  ⟨0x50020, [(8, 0x8)], [⟨63, 48, .rwl, .dbg, 0⟩,
    ⟨31, 30, .rwl, .dbg, 0⟩,
    ⟨29, 23, .rwl, .dbg, 0⟩,
    ⟨22, 18, .rwl, .dbg, 0⟩]⟩,
  -- PTB_CRED
  ⟨0x50060, [(8, 0x8)], [⟨63, 48, .rwl, .dbg, 0⟩,
    ⟨47, 32, .rwl, .dbg, 0⟩,
    ⟨31, 30, .rwl, .dbg, 0⟩,
    ⟨29, 24, .rwl, .dbg, 0⟩,
    ⟨0, 0, .rwl, .dbg, 0⟩]⟩,
  -- PTB_DELAY
  ⟨0x500a0, [], [⟨63, 48, .rwl, .dbg, 0⟩,
    ⟨47, 32, .rwl, .dbg, 0⟩,
    ⟨31, 20, .rwl, .dbg, 0⟩,
    ⟨19, 19, .rwl, .dbg, 0⟩,
    ⟨18, 14, .rwl, .dbg, 0⟩]⟩,
  -- PTB_INJ
  ⟨0x500a8, [], [⟨63, 56, .rwl, .dbg, 0⟩,
    ⟨55, 48, .rwl, .dbg, 0⟩,
    ⟨47, 40, .rwl, .dbg, 0⟩,
    ⟨39, 32, .rwl, .dbg, 255⟩,
    ⟨31, 28, .rwl, .dbg, 0⟩]⟩,
  -- PTB_GEN
  ⟨0x500b0, [], [⟨63, 48, .rwl, .dbg, 0⟩,
    ⟨47, 32, .rwl, .dbg, 65535⟩,
    ⟨31, 20, .rwl, .dbg, 0⟩]⟩,
  -- PTB_SKEW
  ⟨0x500b8, [], [⟨31, 0, .rwl, .dbg, 0⟩]⟩]

/-- Every register of the control aperture. -/
def regTable : List RegSpec :=
  regTable01 ++ regTable02 ++ regTable04 ++ regTable06 ++ regTable07 ++ regTable08 ++ regTable09 ++ regTable10 ++ regTable11 ++ regTable12 ++ regTable13 ++ regTable14 ++ regTable15 ++ regTable16 ++ regTable17 ++ regTable18 ++ regTable19

/-- The indices that offset `d` from a register's base stands for, if it is one of the register's array. -/
def regIndex : List (Nat × Nat) → Nat → Option (List Nat)
  | [], d => if d = 0 then some [] else none
  | (n, st) :: ds, d =>
    if d / st < n then (regIndex ds (d % st)).map (d / st :: ·) else none

/-- The register at an offset, with its indices. -/
def findReg : List RegSpec → Nat → Option (RegSpec × List Nat)
  | [], _ => none
  | r :: rs, off =>
    if off < r.base then findReg rs off
    else match regIndex r.dims (off - r.base) with
      | some ix => some (r, ix)
      | none => findReg rs off

/-- The reset value that a list of fields gives. -/
def fieldsReset : List FieldSpec → Nat
  | [] => 0
  | f :: fs => f.rst * 2 ^ f.lo + fieldsReset fs

/-- The value that the register at `off` holds after a full device reset; SMB_VR[i].ADDR is 0x40 + i. -/
def regReset (off : Nat) : Word :=
  match findReg regTable off with
  | none => 0
  | some (r, ix) =>
    BitVec.ofNat 64 (fieldsReset r.fields + (if r.base = SMB_VR 0 then ix.headD 0 * 2 ^ 0 else 0))

end Sys2Proof.Machine
end

