-- ==== Sys2Proof/Syntax.lean ====
section
/-!
DEFINITION. The commands of the device: one constructor of `Instr` per row of spec/opcode_table.json, with the operands
that the row needs. A row of the block core's instruction set carries the block `b`, the register set `f` (`false` MAIN,
`true` FILL, R177) and the instruction word `w` as it was fetched (R160). A row that is a register write carries the
authority and the path of the write (R492, R495). A row that is an event of the hardware carries what the outside world
supplies with it: received fields, measured values, the outcome of a self-test.
-/

namespace Sys2Proof

/-- Authority classes of a write (R492). -/
inductive Auth
  | firmware | operator | driver | tenant | debug | device
  deriving DecidableEq, Repr

/-- The paths on which a write reaches the device (R495, byte 17). -/
inductive Path
  | internal | josil | mgmt0 | mgmt1 | trigger | debugPort
  deriving DecidableEq, Repr

/-- Kinds of access that a translation is made for (R233). -/
inductive Access
  | read | write | fetch
  deriving DecidableEq, Repr

/-- An arbiter (R258): chip arbiter `a`, region `r`'s arbiter `a`, block `b`'s arbiter `a`; where a block arbiter governs a
read port and a write port, `wr` says which. -/
inductive ArbId
  | chip (a : Nat) | region (r a : Nat) | block (b a : Nat) (wr : Bool) | cell (b row : Nat) (wr : Bool)
  deriving DecidableEq, Repr

/-- An arbiter that a request passes (R258, R259): its requester index there, the address where it begins, and its length there, in bytes
or, at an arbiter whose beat is a slot part, a walk or a packet, in those. -/
structure Hop where
  arb : ArbId
  idx : Nat
  addr : Nat
  len : Nat
  deriving DecidableEq, Repr

/-- A request that enters the device's arbitration: the arbiters that it has to pass, and the clk in which the device accepted its flit or
packet at the edge, or its engine formed it (R261). -/
structure ArbNew where
  hops : List Hop
  stamp : Nat
  deriving DecidableEq, Repr

/-- Who has asked for a walk or for HBM data (R236, R246): the fetch of a register set, the instruction `w` of a set, a move, the load at
the head of a block's stake queue, the entry at the head of its vector queue or of its plait queue, an operation of the plait engine,
a unit that acts for the context as a whole, or the companion. -/
inductive Reader
  | fetch (b : Nat) (f : Bool) | core (b : Nat) (f : Bool) (w : Word) | move (id : Nat) | stake (b : Nat) | vector (b : Nat)
  | issue (b : Nat) | plait (slot : Nat) | context | companion
  deriving DecidableEq, Repr

/-- What a walk is made for: the kind of access, and who has asked (R233, R236). -/
structure WalkFor where
  acc : Access
  who : Reader
  deriving DecidableEq, Repr

/-- What a read of HBM is made for: a table entry of a walk or data, under a tag, and who has asked (R246). -/
structure ReadFor where
  walk : Bool
  tag : Nat
  who : Reader
  deriving DecidableEq, Repr

/-- A transaction-layer packet (R350): the header fields and the data bytes. -/
structure Pkt where
  ptype : Nat
  hops : Nat
  dst : Nat
  src : Nat
  tag : Nat
  poison : Bool
  opid : Nat
  stamp : Nat
  offset : Nat
  aux : Nat
  data : List Byte
  deriving DecidableEq, Repr

/-- A received or sent DATA or IDLE rim frame (R319), with the packets of its payload. -/
structure Frame where
  seq : Nat
  ack : Nat
  nak : Bool
  replay : Bool
  map : Nat
  srcLink : Nat
  txTime : Nat
  pkts : List Pkt
  deriving DecidableEq, Repr

/-- The header fields of a received CTRL frame that the receiver uses: every frame carries an ACK and may carry a NAK (R319, R321). -/
structure CtrlHdr where
  ack : Nat
  nak : Bool
  deriving DecidableEq, Repr

/-- A fabric time with its fraction in units of 2^-32 ns (R18). -/
structure FracTime where
  ns : Nat
  frac : Nat
  deriving DecidableEq, Repr

/-- The times of a PROBE_REPLY: T1 of its PROBE, and TURN (R328). -/
structure ReplyTimes where
  t1 : Nat
  turn : Nat
  deriving DecidableEq, Repr

/-- What the march test of HBM finds failed: frames and channels, each by its stack (R434). -/
structure HbmFound where
  frames : List (Nat × Nat)
  channels : List (Nat × Nat)
  deriving DecidableEq, Repr

/-- What a pattern test finds failed in a block (R424, R431, R434): positions of columns, 128 and 129 the spares; the plane bus; the core;
the vector or mask registers; bank rows as bank × 256 + row (R248). -/
structure BlockFound where
  block : Nat
  columns : List Nat
  bus : Bool
  core : Bool
  regs : Bool
  rows : List Nat
  deriving DecidableEq, Repr

/-- Why a received rim frame is discarded: its CRC or its FTYPE, an uncorrectable codeword that it overlaps (R320), or the CTYPE of a CTRL
frame whose CRC holds (R327). -/
inductive BadFrame
  | crc | fec | ctype (c : Nat) (hd : CtrlHdr)
  deriving DecidableEq, Repr

/-- The payload of a HELLO (R327). Digests are 256-bit numbers, byte 0 lowest. -/
structure Hello where
  state : Nat
  link : Nat
  far : Bool
  checked : Bool
  fwLevel : Nat
  plMin : Nat
  plMax : Nat
  digest : Nat
  session : Nat
  rxSession : Nat
  rxNext : Nat
  echoLink : Nat
  echoDigest : Nat
  farRttUs : Nat
  deriving DecidableEq, Repr

/-- A HELLO as it arrives: its frame's header fields and its payload. -/
structure HelloIn where
  hd : CtrlHdr
  msg : Hello
  deriving DecidableEq, Repr

/-- The header of a Josil message (R448). -/
structure JHdr where
  opc : Nat
  poison : Bool
  noCtx : Bool
  wbPending : Bool
  fillPending : Bool
  len : Nat
  tid : Nat
  tag : Nat
  addr : Nat
  status : Nat
  deriving DecidableEq, Repr

/-- A received Josil flit (R442): its 256 bytes, and whether its FEC codewords could be corrected. -/
structure Flit where
  bytes : List Byte
  fecOk : Bool
  deriving DecidableEq, Repr

/-- A UDP datagram that a management port receives (R519, R521): the address and the port that it is for, and its payload. An address is IPv6,
or IPv4 written as IPv4-mapped IPv6. -/
structure Datagram where
  dest : Nat
  udpPort : Nat
  bytes : List Byte
  deriving DecidableEq, Repr

/-- Frames that reach a management port at the network layer (R519): an ARP request or a neighbour solicitation for an address, and an
echo request to one, each with its sender and, for an echo, what is to come back; and any other frame. -/
inductive NetFrame
  | arp (target sender : Nat)
  | neighbourSolicitation (target sender : Nat)
  | echo (target sender : Nat) (data : List Byte)
  | other
  deriving DecidableEq, Repr

/-- The commands: one constructor per row of spec/opcode_table.json, in the table's order but for the rows of
instruction words, which all stand among the first 244 (DESIGN CHOICE, log entry 10) (DESIGN CHOICE, log entry 85). -/
inductive Instr
  -- fabric time
  | ftuEpochWrite (a : Auth) (p : Path) (v : Word)
  | ptpMessage (port seqId : Nat) (slave : Bool) (offset : Int) (pathDelay : Nat)
  | holdoverLimit
  | timeRelock
  | triggerArm (a : Auth) (p : Path) (region : Option Nat) (i : Nat) (v : Word)
  | triggerFire (region : Option Nat) (i : Nat)
  | mapSwitch (a : Auth) (p : Path) (v : Word)
  | mapSwitchDrained
  -- weave array
  | weave (b : Nat) (f : Bool) (w : Word)
  | weaveAccept (b : Nat)
  | weaverRowArrive (b : Nat)
  | randBoundary (b : Nat)
  | originReloadDone (b : Nat)
  | arrSelftestDone (b : Nat) (pass : Bool)
  | replayLimitReached (b : Nat)
  | spareFillDone (b : Nat)
  | stakeLd (b : Nat) (f : Bool) (w : Word)
  | stakeQueueStart (b : Nat)
  | stakeLdDone (b : Nat)
  | stakeInv (b : Nat) (f : Bool) (w : Word)
  | stakeStat (b : Nat) (f : Bool) (w : Word)
  -- vector engine and twine unit
  | vsetvl (b : Nat) (f : Bool) (w : Word)
  | vmvS (b : Nat) (f : Bool) (w : Word)
  | vcfg (b : Nat) (f : Bool) (w : Word)
  | vcfgRd (b : Nat) (f : Bool) (w : Word)
  | mpop (b : Nat) (f : Bool) (w : Word)
  | vmvV (b : Nat) (f : Bool) (w : Word)
  | vadd (b : Nat) (f : Bool) (w : Word)
  | vsub (b : Nat) (f : Bool) (w : Word)
  | vmul (b : Nat) (f : Bool) (w : Word)
  | vdiv (b : Nat) (f : Bool) (w : Word)
  | vmin (b : Nat) (f : Bool) (w : Word)
  | vmax (b : Nat) (f : Bool) (w : Word)
  | vabs (b : Nat) (f : Bool) (w : Word)
  | vneg (b : Nat) (f : Bool) (w : Word)
  | vfma (b : Nat) (f : Bool) (w : Word)
  | vfms (b : Nat) (f : Bool) (w : Word)
  | vfnma (b : Nat) (f : Bool) (w : Word)
  | vcmpEq (b : Nat) (f : Bool) (w : Word)
  | vcmpLt (b : Nat) (f : Bool) (w : Word)
  | vcmpLe (b : Nat) (f : Bool) (w : Word)
  | vcmpUn (b : Nat) (f : Bool) (w : Word)
  | mand (b : Nat) (f : Bool) (w : Word)
  | mor (b : Nat) (f : Bool) (w : Word)
  | mxor (b : Nat) (f : Bool) (w : Word)
  | mnot (b : Nat) (f : Bool) (w : Word)
  | viadd (b : Nat) (f : Bool) (w : Word)
  | visub (b : Nat) (f : Bool) (w : Word)
  | vimul (b : Nat) (f : Bool) (w : Word)
  | vand (b : Nat) (f : Bool) (w : Word)
  | vor (b : Nat) (f : Bool) (w : Word)
  | vxor (b : Nat) (f : Bool) (w : Word)
  | vsll (b : Nat) (f : Bool) (w : Word)
  | vsrl (b : Nat) (f : Bool) (w : Word)
  | vsra (b : Nat) (f : Bool) (w : Word)
  | vcvt (b : Nat) (f : Bool) (w : Word)
  | vexp (b : Nat) (f : Bool) (w : Word)
  | vexp2 (b : Nat) (f : Bool) (w : Word)
  | vlog (b : Nat) (f : Bool) (w : Word)
  | vlog2 (b : Nat) (f : Bool) (w : Word)
  | vrcp (b : Nat) (f : Bool) (w : Word)
  | vsqrt (b : Nat) (f : Bool) (w : Word)
  | vrsqrt (b : Nat) (f : Bool) (w : Word)
  | vtanh (b : Nat) (f : Bool) (w : Word)
  | vsigmoid (b : Nat) (f : Bool) (w : Word)
  | verf (b : Nat) (f : Bool) (w : Word)
  | vsin (b : Nat) (f : Bool) (w : Word)
  | vcos (b : Nat) (f : Bool) (w : Word)
  | vslidedn (b : Nat) (f : Bool) (w : Word)
  | vslideup (b : Nat) (f : Bool) (w : Word)
  | vperm (b : Nat) (f : Bool) (w : Word)
  | vmerge (b : Nat) (f : Bool) (w : Word)
  | vld (b : Nat) (f : Bool) (w : Word)
  | vst (b : Nat) (f : Bool) (w : Word)
  | vstSp (b : Nat) (f : Bool) (w : Word)
  | vrb (b : Nat) (f : Bool) (w : Word)
  | vldSp (b : Nat) (f : Bool) (w : Word)
  | vsmxStat (b : Nat) (f : Bool) (w : Word)
  | vsmxMerge (b : Nat) (f : Bool) (w : Word)
  | vsmxWgt (b : Nat) (f : Bool) (w : Word)
  | vsmxNorm (b : Nat) (f : Bool) (w : Word)
  | voptApply (b : Nat) (f : Bool) (w : Word)
  | voptRd (b : Nat) (f : Bool) (w : Word)
  | vrngU32 (b : Nat) (f : Bool) (w : Word)
  | vrngUnif (b : Nat) (f : Bool) (w : Word)
  | vrngKeep (b : Nat) (f : Bool) (w : Word)
  | twSum (b : Nat) (f : Bool) (w : Word)
  | twSumsq (b : Nat) (f : Bool) (w : Word)
  | twMax (b : Nat) (f : Bool) (w : Word)
  | twMin (b : Nat) (f : Bool) (w : Word)
  | twAmax (b : Nat) (f : Bool) (w : Word)
  | twArgmax (b : Nat) (f : Bool) (w : Word)
  | twCountNonfinite (b : Nat) (f : Bool) (w : Word)
  | twCrd (b : Nat) (f : Bool) (w : Word)
  | twCclr (b : Nat) (f : Bool) (w : Word)
  | vregSelftestDone (b : Nat) (pass : Bool)
  -- block core
  | add (b : Nat) (f : Bool) (w : Word)
  | sub (b : Nat) (f : Bool) (w : Word)
  | and (b : Nat) (f : Bool) (w : Word)
  | or (b : Nat) (f : Bool) (w : Word)
  | xor (b : Nat) (f : Bool) (w : Word)
  | sll (b : Nat) (f : Bool) (w : Word)
  | srl (b : Nat) (f : Bool) (w : Word)
  | sra (b : Nat) (f : Bool) (w : Word)
  | slt (b : Nat) (f : Bool) (w : Word)
  | sltu (b : Nat) (f : Bool) (w : Word)
  | mul (b : Nat) (f : Bool) (w : Word)
  | mulh (b : Nat) (f : Bool) (w : Word)
  | mulhu (b : Nat) (f : Bool) (w : Word)
  | div (b : Nat) (f : Bool) (w : Word)
  | divu (b : Nat) (f : Bool) (w : Word)
  | rem (b : Nat) (f : Bool) (w : Word)
  | remu (b : Nat) (f : Bool) (w : Word)
  | min (b : Nat) (f : Bool) (w : Word)
  | max (b : Nat) (f : Bool) (w : Word)
  | minu (b : Nat) (f : Bool) (w : Word)
  | maxu (b : Nat) (f : Bool) (w : Word)
  | clz (b : Nat) (f : Bool) (w : Word)
  | ctz (b : Nat) (f : Bool) (w : Word)
  | popc (b : Nat) (f : Bool) (w : Word)
  | addi (b : Nat) (f : Bool) (w : Word)
  | andi (b : Nat) (f : Bool) (w : Word)
  | ori (b : Nat) (f : Bool) (w : Word)
  | xori (b : Nat) (f : Bool) (w : Word)
  | slli (b : Nat) (f : Bool) (w : Word)
  | srli (b : Nat) (f : Bool) (w : Word)
  | srai (b : Nat) (f : Bool) (w : Word)
  | slti (b : Nat) (f : Bool) (w : Word)
  | sltiu (b : Nat) (f : Bool) (w : Word)
  | movi (b : Nat) (f : Bool) (w : Word)
  | movhi (b : Nat) (f : Bool) (w : Word)
  | fadd (b : Nat) (f : Bool) (w : Word)
  | fsub (b : Nat) (f : Bool) (w : Word)
  | fmul (b : Nat) (f : Bool) (w : Word)
  | fdiv (b : Nat) (f : Bool) (w : Word)
  | fsqrt (b : Nat) (f : Bool) (w : Word)
  | fmin (b : Nat) (f : Bool) (w : Word)
  | fmax (b : Nat) (f : Bool) (w : Word)
  | fma (b : Nat) (f : Bool) (w : Word)
  | fcmpEq (b : Nat) (f : Bool) (w : Word)
  | fcmpLt (b : Nat) (f : Bool) (w : Word)
  | fcmpLe (b : Nat) (f : Bool) (w : Word)
  | fcvtI (b : Nat) (f : Bool) (w : Word)
  | fcvtF (b : Nat) (f : Bool) (w : Word)
  | fcvtP (b : Nat) (f : Bool) (w : Word)
  | ldlB (b : Nat) (f : Bool) (w : Word)
  | ldlBu (b : Nat) (f : Bool) (w : Word)
  | ldlH (b : Nat) (f : Bool) (w : Word)
  | ldlHu (b : Nat) (f : Bool) (w : Word)
  | ldlW (b : Nat) (f : Bool) (w : Word)
  | ldlWu (b : Nat) (f : Bool) (w : Word)
  | ldlD (b : Nat) (f : Bool) (w : Word)
  | stlB (b : Nat) (f : Bool) (w : Word)
  | stlH (b : Nat) (f : Bool) (w : Word)
  | stlW (b : Nat) (f : Bool) (w : Word)
  | stlD (b : Nat) (f : Bool) (w : Word)
  | ldv (b : Nat) (f : Bool) (w : Word)
  | stv (b : Nat) (f : Bool) (w : Word)
  | amoadd (b : Nat) (f : Bool) (w : Word)
  | amoswap (b : Nat) (f : Bool) (w : Word)
  | amocas (b : Nat) (f : Bool) (w : Word)
  | beq (b : Nat) (f : Bool) (w : Word)
  | bne (b : Nat) (f : Bool) (w : Word)
  | blt (b : Nat) (f : Bool) (w : Word)
  | bge (b : Nat) (f : Bool) (w : Word)
  | bltu (b : Nat) (f : Bool) (w : Word)
  | bgeu (b : Nat) (f : Bool) (w : Word)
  | jal (b : Nat) (f : Bool) (w : Word)
  | jalr (b : Nat) (f : Bool) (w : Word)
  | wait (b : Nat) (f : Bool) (w : Word)
  | waitany (b : Nat) (f : Bool) (w : Word)
  | waitT (b : Nat) (f : Bool) (w : Word)
  | tkst (b : Nat) (f : Bool) (w : Word)
  | ftnow (b : Nat) (f : Bool) (w : Word)
  | ftwait (b : Nat) (f : Bool) (w : Word)
  | ftstat (b : Nat) (f : Bool) (w : Word)
  | exit (b : Nat) (f : Bool) (w : Word)
  | fence (b : Nat) (f : Bool) (w : Word)
  | csrr (b : Nat) (f : Bool) (w : Word)
  | csrw (b : Nat) (f : Bool) (w : Word)
  | nop (b : Nat) (f : Bool) (w : Word)
  | brk (b : Nat) (f : Bool) (w : Word)
  | coreResume (a : Auth) (p : Path) (b : Nat) (v : Word)
  | coreSelftestDone (b : Nat) (pass : Bool)
  | coreReplayLimit (b : Nat)
  -- moves and memory
  | move (b : Nat) (f : Bool) (w : Word)
  | moveFill (b : Nat) (f : Bool) (w : Word)
  | moveNc (b : Nat) (f : Bool) (w : Word)
  | plait (b : Nat) (f : Bool) (w : Word)
  | plaitFence (b : Nat) (f : Bool) (w : Word)
  | plaitHrel (b : Nat) (f : Bool) (w : Word)
  | illegalInstruction (b : Nat) (f : Bool) (w : Word)
  | moveBurst (id : Nat)
  | pageWalk (tag : Nat) (va : Word) (req : WalkFor)
  | hbmReread (dpa fails : Nat) (req : ReadFor)
  | frameTestDone (k : Nat) (pass channelOk : Bool)
  | sramRowTestDone (b : Nat) (pass : Bool)
  | tlbiStart (a : Auth) (p : Path) (v : Word)
  | tlbiDone
  | dirtySwap (a : Auth) (p : Path) (v : Word)
  | dirtyClear (a : Auth) (p : Path) (bank idx : Nat) (v : Word)
  | hbmIlvWrite (a : Auth) (p : Path) (v : Word)
  | scrubStart (a : Auth) (p : Path) (v : Word)
  | scrubDone
  -- arbitration
  | arbDecision (id : ArbId) (new : List ArbNew)
  | burstLimitExpire (id : ArbId)
  | quotaExhausted (id : ArbId) (req : Nat)
  | arbStatClear (a : Auth) (p : Path) (id : ArbId) (v : Word)
  -- scheduling
  | makePart (a : Auth) (p : Path) (v : Word)
  | freePart (a : Auth) (p : Path) (v : Word)
  | admitCtx (a : Auth) (p : Path) (v : Word)
  | release (a : Auth) (p : Path) (v : Word)
  | bindQ (a : Auth) (p : Path) (v : Word)
  | unbindQ (a : Auth) (p : Path) (v : Word)
  | stopQ (a : Auth) (p : Path) (v : Word)
  | startQ (a : Auth) (p : Path) (v : Word)
  | doorbellWrite (a : Auth) (p : Path) (q : Nat) (v : Word)
  | entryRead (q : Nat)
  | taskStart (q : Nat)
  | fillTaskStart (q : Nat)
  | taskExit (b : Nat) (f : Bool)
  | chooseIdle (part : Nat)
  | latencySwitchIn (part : Nat)
  | contextBlocked (c : Nat)
  | debtExpire (c : Nat)
  | blockStopped (b : Nat)
  | saveDone (b : Nat) (ok : Bool) (code : Nat)
  | blockScrubDone (b : Nat)
  | restoreDone (b : Nat) (ok : Bool) (code : Nat)
  -- rim links
  | dataFrame (k : Nat) (fr : Frame)
  | idleFrame (k : Nat) (fr : Frame)
  | hello (k : Nat) (m : HelloIn)
  | beacon (k : Nat) (hd : CtrlHdr) (hops : Nat) (locked : Bool) (epoch : Nat) (time : FracTime)
  | probe (k : Nat) (hd : CtrlHdr) (t1 : Nat)
  | probeReply (k : Nat) (hd : CtrlHdr) (times : ReplyTimes)
  | helloSend (k : Nat)
  | probeSend (k : Nat)
  | beaconSend (k : Nat)
  | ackTimeout (k : Nat)
  | errorRate (k : Nat)
  | alignmentLost (k : Nat)
  | linkLightDelay (k : Nat)
  | lightReceived (k : Nat)
  | lightLost (k : Nat)
  | linkOpen (k : Nat)
  | pcsLock (k : Nat)
  | lockTimeout (k : Nat)
  | helloTimeout (k : Nat)
  | probeTimeout (k : Nat)
  | halfTimeout (k : Nat)
  | holdExpire (k : Nat)
  | linkEnable (a : Auth) (p : Path) (k : Nat) (v : Word)
  | linkDisable (a : Auth) (p : Path) (k : Nat) (v : Word)
  | linkFence (a : Auth) (p : Path) (k : Nat) (v : Word)
  | linkUnfence (a : Auth) (p : Path) (k : Nat) (v : Word)
  | linkRetrain (a : Auth) (p : Path) (k : Nat) (v : Word)
  | wireWrite (a : Auth) (p : Path) (k : Nat) (v : Word)
  | peerOpenWrite (a : Auth) (p : Path) (k : Nat) (v : Word)
  | creditReturn (k : Nat)
  -- rim ports and the plait engine
  | plaitAccept (b : Nat)
  | writePacket (k : Nat) (pk : Pkt)
  | resultPacket (k : Nat) (pk : Pkt)
  | summaryPacket (k : Nat) (pk : Pkt)
  | versionPacket (k : Nat) (pk : Pkt)
  | creditPacket (k : Nat) (pk : Pkt)
  | doorbellPacket (k : Nat) (pk : Pkt)
  | earlyTimeout (i : Nat)
  | plaitWaitEnd (slot : Nat)
  | plaitSummaryTimeout (slot : Nat)
  | portMapWrite (a : Auth) (p : Path) (m port : Nat) (v : Word)
  | rtDataWrite (a : Auth) (p : Path) (v : Word)
  -- coil checkpoints and the recorder
  | coilEnable (a : Auth) (p : Path) (e : Nat) (v : Word)
  | coilOpen (a : Auth) (p : Path) (e : Nat) (v : Word)
  | coilCommit (a : Auth) (p : Path) (e : Nat) (v : Word)
  | coilDiscard (a : Auth) (p : Path) (e : Nat) (v : Word)
  | coilRestore (a : Auth) (p : Path) (e : Nat) (v : Word)
  | coilPark (a : Auth) (p : Path) (e : Nat) (v : Word)
  | coilDissolve (a : Auth) (p : Path) (e : Nat) (v : Word)
  | coilPage (k : Nat) (pk : Pkt)
  | coilDelta (k : Nat) (pk : Pkt)
  | coilAck (k : Nat) (pk : Pkt)
  | coilReady (k : Nat) (pk : Pkt)
  | coilEnd (k : Nat) (pk : Pkt)
  | coilRestoreReq (k : Nat) (pk : Pkt)
  | coilRestorePage (k : Nat) (pk : Pkt)
  | rplModeWrite (a : Auth) (p : Path) (v : Word)
  -- hangs, resets and recovery
  | wdNoRetire (b : Nat)
  | wdSchedHeartbeat (r : Nat)
  | wdPlaitOverrun
  | wdCompanionLost
  | wdLid
  | heartbeatWrite (a : Auth) (p : Path) (v : Word)
  | blockHung (b : Nat)
  | fullResetNeeded (part : Nat)
  | partReset (a : Auth) (p : Path) (part : Nat)
  | partResetDone (part : Nat) (found : List BlockFound)
  | drainEnd (c : Nat)
  | fullReset
  | peerReset (port addr kind part step : Nat)
  | fencePeer (port addr digest : Nat)
  | readmitPeer (port addr digest : Nat)
  | fenceSelf (port : Nat)
  | readmitSelf (port : Nat)
  | peerFenceWrite (a : Auth) (p : Path) (v : Word)
  | rtsStart (a : Auth) (p : Path)
  | rtsResult (elapsedS : Nat) (found : List BlockFound) (hbm : HbmFound)
  | alive
  -- Josil link
  | jslDetectEnd (signal : Nat)
  | jslEqualiseDone
  | jslAlignDone (low high : List (List Byte)) (crReq crData crMsg : Nat)
  | flitReceive (fl : Flit)
  | flitAckTimeout
  | jslLaneFecLoss (lane : Nat)
  | jslRetrainWrite (a : Auth) (p : Path) (v : Word)
  | jslRetrainDone (low high : List (List Byte))
  | rdNc (h : JHdr)
  | wrNc (h : JHdr) (data : List Byte)
  | snpInv (h : JHdr)
  | snpData (h : JHdr)
  | cmp (h : JHdr)
  | cmpData (h : JHdr) (data : List Byte)
  | grantS (h : JHdr) (data : List Byte)
  | grantE (h : JHdr) (data : List Byte)
  | jslTimeout (tid : Nat)
  | flush (a : Auth) (p : Path) (v : Word)
  | flushDone
  -- upsett, firmware and security
  | upsettStart
  | powerGood (refA refB : Bool)
  | upsettStepEnd (step : Nat) (found : List BlockFound)
  | step6Limit
  | loadImage (fetched : Bool) (image : List Byte)
  | loadRepair (fetched : Bool) (table : List Byte)
  | attest (fetched : Bool) (request : List Byte)
  | epochTreeDone (pos : Nat)
  | installKey (a : Auth) (p : Path) (v : Word)
  | attestReq (port nonce part : Nat)
  | debugEnable (port : Nat)
  | raiseFloor (port : Nat)
  | debugWrite (port off : Nat) (v : Word)
  | debugPortAccess (write : Bool) (off : Nat) (v : Word)
  | echo (body : List Byte)
  | registerWrite (a : Auth) (p : Path) (off : Nat) (v : Word)
  -- power, clocks and management ports
  | railOrderFault (rail : Nat)
  | underVoltage (rail : Nat)
  | refclkLoss (clkB : Bool)
  | refclkBothLost
  | refclkRecover (clkB : Bool)
  | clockSelect (a : Auth) (p : Path) (v : Word)
  | thermalSample (temps : List Int)
  | thermalStopRelease
  | diodeSample (milliVolt : Nat) (temp : Int)
  | powerWindowEnd (estimateW : Nat)
  | regulatorPoll (i : Nat) (ok : Bool) (voutMv iout tempC : Nat)
  | throtReqAssert
  | throtReqDeassert
  | mgmtPortDown (port : Nat)
  | mgmtPortUp (port : Nat) (fec : Bool)
  | mgmtDatagram (port : Nat) (d : Datagram)
  | mgmtNetworkFrame (port : Nat) (fr : NetFrame)
  | regRead (port off : Nat)
  | regWrite (port off : Nat) (v : Word)
  | telemetry
  | smbStatusRead
  | smbTjRead
  | smbPowerRead
  | smbFaultCauseRead
  | alertResponse
  | smbusStuck (clkLine recovered : Bool)
  | smbusRecoveryRetry (recovered : Bool)
  | smbTargetTimeout
  -- perturbation
  | ptbEnable (a : Auth) (p : Path) (v : Word)
  | ptbClear (a : Auth) (p : Path) (v : Word)
  | ptbSeedWrite (a : Auth) (p : Path) (v : Word)
  | ptbInjWrite (a : Auth) (p : Path) (v : Word)
  | ptbGenWrite (a : Auth) (p : Path) (v : Word)
  | ptbSkewWrite (a : Auth) (p : Path) (v : Word)
  | ptbDelayedCompletion (i : Nat)
  | ptbCreditRelease (i : Nat)
  -- rows that stand at the end of the table
  | holdover (source : Nat)
  | frameCrcFail (k : Nat) (why : BadFrame)
  | frameSlot (k : Nat)
  | flitSlot
  | vectorInstructionComplete (b : Nat)
  | timedWaitDeadline (b : Nat) (f : Bool)
  | hbmTrainFailed (k : Nat)
  | powerOff
  | smbusLinesHigh
  deriving DecidableEq, Repr

end Sys2Proof
end

