-- ==== Sys2Proof/Machine/State.lean ====
section
/-!
DEFINITION. The state of the device, as plain data: the control aperture's stored registers, HBM, every block, the
scheduler's contexts and queues, the links, the engines, the lid, the power and management units, and the queue of
commands that wait. A table with many entries is a sparse map; an unlisted entry is in its reset condition.
-/

namespace Sys2Proof.Machine

/-- Why a step stops with a fault. No command does: every fault of the specification is a change of state (a completion
word, a notification, a teardown), so this type has no constructor. Nobody raises it, which is safe. -/
inductive Fault
  deriving DecidableEq, Repr

/-- Why a command is refused. -/
inductive Refusal
  /-- Raised by the dispatcher for a command that has no meaning yet; safe, nothing is claimed of it. -/
  | notModelled (mnemonic : String)
  deriving DecidableEq, Repr

/-! ### The block core (R173, R177, R193) -/

/-- The states of a ticket (R173). -/
inductive TkState
  | free | busy | done
  deriving DecidableEq, Repr

/-- One ticket: state, unit (R175), address of the instruction that took it (R187), completion word. -/
structure Ticket where
  st : TkState
  unit : Nat
  addr : Nat
  word : Word
  deriving DecidableEq, Repr

/-- A ticket at task entry (R173). -/
def Ticket.reset : Ticket := ⟨.free, 0, 0, 0⟩

/-- What an instruction that has not retired waits for (R174, R176, R179, R183). -/
inductive Wait
  /-- nothing -/
  | none
  /-- a queue entry, a BUSY ticket or the fetch, at issue -/
  | stall
  /-- tickets: WAIT, or WAITANY where `any` holds, with its mask -/
  | tickets (any : Bool) (mask : Nat)
  /-- WAIT.T: destination register, deadline in ns and ticket mask -/
  | deadline (dst target mask : Nat)
  /-- FTWAIT: destination register and target in ns -/
  | time (dst target : Nat)
  /-- EXIT: tickets and queues -/
  | exit
  /-- past issue: a synchronous instruction that waits, for the stake queue where `stake` holds, or a result that is executed again -/
  | sync (stake : Bool)
  deriving DecidableEq, Repr

/-- A fault that a set has seen and not reported yet (R187, R188), with the tag of the context at that time. -/
structure CoreErr where
  tag : Nat
  kind : Nat
  code : Nat
  pc : Nat
  word : Nat
  deriving DecidableEq, Repr

/-- One register set of a core, MAIN or FILL (R177), with the task it runs. -/
structure CoreSet where
  /-- a task is placed in the set -/
  placed : Bool
  pc : Word
  /-- s1 to s31; s0 reads 0 (R163) -/
  s : SMap Word
  tk : SMap Ticket
  user : SMap Word
  cycles : Word
  retired : Word
  taskPc : Word
  /-- queue and sequence number of the task's entry -/
  queue : Nat
  seq : Nat
  /-- FILL: 1 + the shard hold that fences the task, 0 for none (R286) -/
  hold : Nat
  wait : Wait
  /-- the exit value reported to the scheduler (R183) -/
  exited : Option Word
  /-- the fault state of the set: the fault that it is to report (R177, R188) -/
  fault : Option CoreErr
  deriving DecidableEq, Repr

/-- A set in which no task has run since reset (DESIGN CHOICE, log entry 1). -/
def CoreSet.reset : CoreSet := ⟨false, 0, [], [], [], 0, 0, 0, 0, 0, 0, .none, none, none⟩

/-! ### The weave array and the stake slots -/

/-- A WEAVE as it stands in the array queue (R67, R91, R92). -/
structure WeaveOp where
  f : Bool
  ticket : Nat
  rows : Nat
  slot : Nat
  wfmt : Nat
  sfmt : Nat
  aset : Nat
  acc : Bool
  skip : Bool
  wide : Bool
  kg : Nat
  nc : Nat
  row0 : Nat
  sig : Nat
  exp : Nat
  /-- place in the order of issue of the block (R62) -/
  order : Nat
  deriving DecidableEq, Repr

/-- The WEAVE that the array runs: next row to be written, consecutive failures of that row's rand (R77), whether a row
waits for the operand store (R82), whether the front latch holds the slot (for a wide stake: its first part, with no reload due), and whether the slots are to be checked again as
at acceptance before the next rand (R85). -/
structure WeaveRun where
  op : WeaveOp
  next : Nat
  fails : Nat
  rowWait : Bool
  latched : Bool
  stale : Bool
  /-- the rand that was in its plane cycles when the block was asked to stop has run (R82) -/
  closed : Bool
  deriving DecidableEq, Repr

/-- A stake queue entry: STAKE.LD or STAKE.INV (R102, R110). -/
structure StakeOp where
  load : Bool
  f : Bool
  ticket : Nat
  slot : Nat
  /-- slots covered -/
  count : Nat
  fmt : Nat
  space : Bool
  sig : Nat
  exp : Nat
  stride : Nat
  nc : Nat
  kg : Nat
  order : Nat
  /-- it has begun to write (R192) -/
  started : Bool
  deriving DecidableEq, Repr

/-- States of an origin record (R107). -/
inductive OriginState
  | empty | valid | lost
  deriving DecidableEq, Repr

/-- The origin record of a slot (R61, R106). -/
structure Origin where
  st : OriginState
  space : Bool
  sig : Nat
  exp : Nat
  stride : Nat
  nc : Nat
  kg : Nat
  fmt : Nat
  part : Nat
  crc : BitVec 32
  deriving DecidableEq, Repr

/-- A record with every field 0 (R547). -/
def Origin.reset : Origin := ⟨.empty, false, 0, 0, 0, 0, 0, 0, 0, 0⟩

/-- One slot of one cell (R59): 32 lanes of 8 bits, lane 0 lowest, and the exponent store entry. -/
structure StakeCell where
  lanes : BitVec 256
  exp : Byte
  deriving DecidableEq, Repr

/-- A cell that holds zeros. -/
def StakeCell.reset : StakeCell := ⟨0, 0⟩

/-- The sites at which the device checks (R72, R196, R246, R535). Those of the second line have no PTB_INJ code: the scalar floating-point
unit, reads of the ticket table and the CSRs, of the accumulator store outside the array, of the core scratch, of a line of the Josil cache (R463) and of the instruction
cache, a move's data between read and write, and write data at a stack's interface (R246). -/
inductive Site
  | planeBus | cell | ktree | update | stakeBank | accRead | opsRead | aluResidue | regParity | vregParity | hbmRead | rimCrc
  | fpuResidue | tableParity | accPlain | scratchRead | cacheLine | instrCache | moveData | hbmWrite
  deriving DecidableEq, Repr

/-- A physical upset that the next matching check event will find: nature's counterpart of PTB_INJ (R535). `col` and
`row` are the location, `col = 255` any column, and `part` the slot part of a stake bank read (R543) (DESIGN CHOICE, log entry 9). -/
structure Upset where
  site : Site
  unit : Nat
  col : Nat
  row : Nat
  part : Nat
  deriving DecidableEq, Repr

/-- A targeted self-test that is due or running: where the failure was found (R76), and whether it was injected (R537). -/
structure ArrTest where
  site : Site
  col : Nat
  row : Nat
  slot : Nat
  running : Bool
  injected : Bool
  deriving DecidableEq, Repr

/-! ### Vector engine and twine unit -/

/-- A counter bank (R142) (DESIGN CHOICE, log entry 86). -/
structure Bank where
  exact : Nat
  inexact : Nat
  saturated : Nat
  nonfinite : Nat
  amax : BitVec 32
  deriving DecidableEq, Repr

/-- A cleared bank. -/
def Bank.reset : Bank := ⟨0, 0, 0, 0, 0⟩

/-- An entry of the vector queue (R121, R187): its effect stands in the state already, and what is left is its completion (DEDUCED, log entry 30). -/
structure VEntry where
  f : Bool
  ticket : Option Nat
  pc : Nat
  code : Nat
  twine : Bool
  deriving DecidableEq, Repr

/-- An entry of a block's plait queue (R356): a PLAIT with its descriptor's address, or a PLAIT.FENCE, with the tag and the home
index of the block for the completion. -/
structure PlaitIssue where
  fence : Bool
  f : Bool
  ticket : Nat
  value : Word
  tag : Nat
  idx : Nat
  deriving DecidableEq, Repr

/-- The state of a block that belongs to the context on it: what a switch saves and restores (R126, R193, R302). -/
structure BlkState where
  main : CoreSet
  fill : CoreSet
  parked : Bool
  /-- block-local memory by address (R164) -/
  mem : SMap Byte
  /-- poisoned 256-byte lines, by address / 256 (R251) -/
  poison : SMap Bool
  /-- vector registers, 4 KiB each, byte 0 lowest (R117) -/
  vregs : SMap (BitVec 32768)
  mregs : SMap (BitVec 1024)
  vl : Nat
  vtype : Nat
  /-- configuration items 0 to 4 (R156) -/
  cfg : SMap Word
  banks : SMap Bank
  vq : List VEntry
  aq : List WeaveOp
  run : Option WeaveRun
  sq : List StakeOp
  /-- cell (r, n) of slot `t` under `2048 t + 128 r + n` -/
  slots : SMap StakeCell
  origin : SMap Origin
  /-- NUM_PENDING (R201) -/
  pending : Nat
  /-- instructions issued to the array and stake queues so far, for R62 -/
  order : Nat
  /-- slots that were not live at the save and that the restore reloads from their origins (R303) -/
  reloads : List Nat
  deriving DecidableEq, Repr

/-- A block that holds nothing of any context (DESIGN CHOICE, log entry 1). -/
def BlkState.reset : BlkState :=
  ⟨.reset, .reset, false, [], [], [], [], 0, 0, [], [], [], [], none, [], [], [], 0, 0, []⟩

/-- The steps of a block switch (R300). -/
inductive SwPhase
  | idle | stopping | saving | scrubbing | restoring
  deriving DecidableEq, Repr

/-- One block: the context state on it and what stays with the hardware. -/
structure Blk where
  st : BlkState
  /-- context on the block -/
  ctx : Option Nat
  phase : SwPhase
  /-- the plait queue; its entries go on while their context is away (R192) -/
  pq : List PlaitIssue
  /-- context that the switch brings in -/
  incoming : Option Nat
  /-- the switch belongs to a teardown or a partition compute reset: nothing is saved -/
  discard : Bool
  /-- fabric time of the stop request (R421) -/
  stopAt : Nat
  /-- the block is idle for its partition's pattern test (R424) -/
  inReset : Bool
  arrTest : Option ArrTest
  /-- slot reload from its origin under way (R75), and whether the running WEAVE waits for it -/
  reload : Option Nat
  /-- column retirement under way: logical column, the next slot to be reloaded where the banks are refilled from their origins (R78),
  and what ARR_REMAP held before -/
  spareFill : Option (Nat × Option Nat × Word)
  /-- spare position 128 has been written later than 129 (R78): which of them serves a column that ARR_REMAP names twice -/
  spare0Later : Bool
  /-- consecutive residue failures of the instruction at issue (R198) -/
  coreFails : Nat
  /-- bank rows due for a test (R248): bank × 256 + row, injected -/
  rowTests : List (Nat × Bool)
  /-- spare rows in use: bank × 256 + row to spare (R248) -/
  rowSpares : SMap Nat
  /-- spare rows that have failed: bank × 4 + spare (R248) -/
  deadSpares : List Nat
  coreTestInjected : Bool
  vregTest : Bool
  vregTestInjected : Bool
  /-- throttle debt (R517) -/
  debt : Int
  deriving DecidableEq, Repr

/-- A block after a full device reset. -/
def Blk.reset : Blk :=
  ⟨.reset, none, .idle, [], none, false, 0, false, none, none, none, false, 0, [], [], [], false, false, false, 0⟩

/-! ### The scheduler -/

/-- States of a context (R281). -/
inductive CtxState
  | free | swapped | resident | quarantine
  deriving DecidableEq, Repr

/-- The accounting record (R309). -/
structure Acct where
  held : Nat
  busy : Nat
  fill : Nat
  queueWait : Nat
  tasks : Nat
  preemptions : Nat
  evictions : Nat
  startMissed : Nat
  debtRepaid : Nat
  debtMissed : Nat
  stepLate : Nat
  deriving DecidableEq, Repr

/-- An accounting record of zeros. -/
def Acct.reset : Acct := ⟨0, 0, 0, 0, 0, 0, 0, 0, 0, 0, 0⟩

/-- A quarantine range, with the generation whose transfers may still write it: an entry of the table, a page of 2 MiB, or the HBM range of a
partition that the table could not hold (R416, R418). -/
structure Quar where
  base : Nat
  len : Nat
  gen : Nat
  wide : Bool
  deriving DecidableEq, Repr

/-- The device's copy of a context record (R280), the saved state of its blocks by home index (R302), and its quarantine. -/
structure Ctx where
  st : CtxState
  gen : Nat
  part : Nat
  cls : Nat
  home : Nat
  share : Nat
  ptRoot : Nat
  saveBase : Nat
  liveMap : Nat
  startUs : Nat
  charge : Nat
  debt : Nat
  debtAge : Nat
  acct : Acct
  saved : SMap BlkState
  /-- saved ticket completions that arrive while a block is between stop and restore (R193): home index, set, ticket, word -/
  held : List (Nat × Bool × Nat × Word)
  /-- fabric time up to which charging has been done -/
  chargedTo : Nat
  /-- since when it has been runnable while swapped -/
  runSince : Option Nat
  /-- since when the condition of a blocked resident has held, and its count of progress then (R294) -/
  stallSince : Option (Nat × Nat)
  /-- end of the drain (R418) -/
  drainAt : Nat
  quar : List Quar
  /-- the quarantine table could not hold the ranges (R416) -/
  quarWide : Bool
  /-- step of the teardown: whether the home blocks' scrubs are still due -/
  tearing : Bool
  deriving DecidableEq, Repr

/-- A FREE context. -/
def Ctx.reset : Ctx :=
  ⟨.free, 0, 0, 0, 0, 0, 0, 0, 0, 0, 0, 0, 0, .reset, [], [], 0, none, none, 0, [], false, false⟩

/-- States of a queue (R284, byte 24). -/
inductive QState
  | unbound | run | stopped
  deriving DecidableEq, Repr

/-- A task entry as read into the scoreboard (R286). -/
structure Entry where
  seq : Nat
  pc : Word
  args : List Word
  /-- valid dependencies: queue and sequence number -/
  deps : List (Nat × Nat)
  hold : Nat
  notifyExit : Bool
  deriving DecidableEq, Repr

/-- A queue record (R284), the entry read but not started (R288), and exited entries not yet below DONE. -/
structure Queue where
  base : Nat
  ctx : Nat
  sizeLog2 : Nat
  kind : Nat
  head : Nat
  tail : Nat
  done : Nat
  st : QState
  headStamp : Nat
  entry : Option Entry
  exited : List Nat
  /-- taken entries whose exit is to be notified -/
  notify : List Nat
  deriving DecidableEq, Repr

/-- An unbound queue. -/
def Queue.reset : Queue := ⟨0, 0, 0, 0, 0, 0, 0, .unbound, 0, none, [], []⟩

/-- What the scheduler keeps for a partition besides its registers: fabric time of the last accepted slice boundary; and of
the partition compute reset in progress (R423) its request's time, its blocks, and whether the last request of RST_PART_CMD
named it. -/
structure Part where
  sliceAt : Nat
  resetAt : Option Nat
  resetBlocks : List Nat
  /-- the quarantine of a context that this reset bumped is wide (R416) -/
  wide : Bool
  cmd : Bool
  deriving DecidableEq, Repr

/-- A partition's reset condition. -/
def Part.reset : Part := ⟨0, none, [], false, false⟩

/-! ### Memory -/

/-- A cached translation (R234, R235): tag, page base and length in bytes, leaf target, physical base, permissions. -/
structure Xl where
  tag : Nat
  vbase : Nat
  len : Nat
  target : Nat
  pbase : Nat
  w : Bool
  x : Bool
  deriving DecidableEq, Repr

/-- A burst's end: block-local, HBM or companion memory, with its physical address. -/
inductive Place
  | blk (a : Nat) | hbm (a : Nat) | comp (a : Nat)
  deriving DecidableEq, Repr

/-- A move (R238, R243): its instruction, its owner and how far it has come. `blk` is `none` once the context is away. -/
structure Move where
  id : Nat
  blk : Nat
  /-- home index of the block, for the saved ticket table -/
  ctx : Nat
  tag : Nat
  f : Bool
  ticket : Nat
  /-- 0 MOVE, 1 MOVE.FILL, 2 MOVE.NC -/
  kind : Nat
  src : Word
  dst : Word
  srcVirt : Bool
  dstVirt : Bool
  rows : Nat
  len : Nat
  srcStride : Nat
  dstStride : Nat
  row : Nat
  col : Nat
  /-- first row that carried poison -/
  poisonRow : Option Nat
  paused : Bool
  /-- the destination of the burst under way, as it was translated before the burst was read (R235, R240) -/
  dest : Option Place
  /-- data of the burst from the companion that cannot be written yet -/
  got : Option (List (Byte × Bool))
  /-- re-issues of the burst after a mismatch (R246) -/
  again : Nat
  /-- source bytes as they were before the move wrote them (R240) -/
  olds : SMap Byte
  deriving DecidableEq, Repr

/-- The range of a save in HBM that nothing has written since (R302): from `lo` up to `hi`, of the save that began at `base`. -/
structure SaveArea where
  lo : Nat
  hi : Nat
  base : Nat
  id : Nat
  deriving DecidableEq, Repr

/-- Does a range hold a byte? -/
def SaveArea.has (r : SaveArea) (a : Nat) : Bool := decide (r.lo ≤ a) && decide (a < r.hi)

/-- An HBM frame test (R247): stack, frame, the units lost, injected. -/
structure FrameTest where
  stack : Nat
  frame : Nat
  injected : Bool
  /-- the frame's contents are staged on die: the march test runs (R247) -/
  staged : Bool
  deriving DecidableEq, Repr

/-- A scrub that is running (R254): DPA base and length, and the octet or context it belongs to. -/
inductive ScrubFor
  | command | octet (o : Nat) | quarantine (c gen : Nat)
  deriving DecidableEq, Repr

/-! ### Rim links -/

/-- A control message that waits for a slot (R321, R338): a reply holds T1 and the clk in which its PROBE arrived. -/
inductive Ctrl
  | beacon | probe | hello | probeReply (t1 at_ : Nat)
  deriving DecidableEq, Repr

/-- The payload of a CTRL frame (R327, R328). -/
inductive CtrlMsg
  | hello (h : Hello)
  | beacon (hops : Nat) (locked : Bool) (epoch time frac : Nat)
  | probe (t1 : Nat)
  | probeReply (t1 turn : Nat)
  deriving DecidableEq, Repr

/-- What a link sent, in order: what its peer can see. The frame of a control message has its header fields and no packets. -/
inductive RimOut
  | data (fr : Frame)
  | idle (fr : Frame)
  | ctrl (fr : Frame) (m : CtrlMsg)
  deriving DecidableEq, Repr

/-- The state of a rim link besides its registers (R322, R323, R329, R331, R335, R352). -/
structure Link where
  txSeq : Nat
  rxNext : Nat
  gap : Bool
  nak : Bool
  window : List Frame
  /-- frames still to be retransmitted in the replay in progress -/
  replay : List Frame
  replayAt : Option (Nat × Nat)
  /-- times each frame of the window has been replayed, by SEQ (R323) -/
  tries : SMap Nat
  /-- where in the far window in HBM each frame of the window lies, by SEQ: its DPA and 1 more (R325) -/
  stored : SMap Nat
  /-- the next place of the far window -/
  farPos : Nat
  ctrl : List Ctrl
  sinceCtrl : Nat
  out : List RimOut
  last : Option Hello
  probes : Nat
  replies : Nat
  rttMin : Option Nat
  /-- the round trip of this training has been measured (R329) -/
  rttDone : Bool
  /-- the wiring map entry that this training uses: link index and digest (R331) -/
  wire : Option (Nat × Nat)
  /-- what this training took from the registers: far mode, FAR_RTT_US, window frames, ingress packets (R325, R352) -/
  far : Bool
  farRttUs : Nat
  farFrames : Nat
  farBase : Nat
  farSlots : Nat
  farInBase : Nat
  /-- where in the far ingress area each packet of the buffer lies: its DPA (R352) -/
  farIn : List (Pkt × Nat)
  /-- the model's own: frames received, for the free number of symbols corrected -/
  rxFrames : Nat
  discarded : Nat
  consec : Nat
  /-- since when a window is held, with the peer's digest and link -/
  hold : Option (Nat × Nat × Nat)
  /-- digest and link of the peer for whose session RX_NEXT is kept while the link is not UP (R335) -/
  rxHold : Option (Nat × Nat)
  frozenAck : Nat
  credits : Nat
  owed : Nat
  /-- packets in the ingress buffer, with the fabric times at which their frames arrived -/
  ingress : List (Pkt × Nat)
  /-- packets of the buffer that act at the end of this clk (R382) -/
  due : List Pkt
  deriving DecidableEq, Repr

/-- A link after a full device reset. -/
def Link.reset : Link :=
  ⟨0, 0, false, false, [], [], none, [], [], 0, [], 64, [], none, 0, 0, none, false, none, false, 0, 0, 0, 0, 0, [], 0, 0, 0, none, none, 0, 0, 0, [], []⟩

/-- A packet that waits at a port, with the map it was last routed under and the tag of the context it was formed for (none
for a transit packet and for a CREDIT packet), the link that a transit packet came in on, and whether
it was queued when the switch in progress began (R348). -/
structure QPkt where
  pk : Pkt
  map : Nat
  ctxTag : Option Nat
  from_ : Option Nat
  old : Bool
  deriving DecidableEq, Repr

/-! ### The plait engine -/

/-- A plait descriptor (R357). -/
structure Desc where
  op : Nat
  red : Nat
  dtype : Nat
  flags : Nat
  hold : Nat
  root : Nat
  groupVa : Nat
  sendVa : Nat
  recvVa : Nat
  countsVa : Nat
  units : Nat
  unitElems : Nat
  deadline : Nat
  stageVa : Nat
  step : Nat
  opid : Nat
  bufid : Nat
  versionVa : Nat
  versionsVa : Nat
  statsVa : Nat
  tensor : Nat
  statTag : Nat
  mode : Nat
  reservedZero : Bool
  deriving DecidableEq, Repr

/-- A decision on a segment as a SUMMARY carries it (R351). -/
structure Summary where
  missed : Nat
  lowMissing : Nat
  carried : Bool
  corrected : Bool
  poison : Bool
  deriving DecidableEq, Repr

/-- An accepted operation (R358, R371): owner, group, counts, and what has arrived from each rank. -/
structure PlaitOp where
  desc : Desc
  ctx : Nat
  tag : Nat
  blk : Nat
  f : Bool
  ticket : Nat
  acceptedAt : Nat
  deadline : Nat
  myRank : Nat
  /-- fabric address and tag of each rank -/
  group : List (Nat × Nat)
  counts : List Nat
  /-- it runs in owner mode (R365) -/
  owner : Bool
  /-- it waits to take its gather hold, and has sent nothing yet (R376) -/
  holdPending : Bool
  /-- bytes arrived on time from each rank, and late bytes that carry keeps -/
  got : SMap Nat
  late : SMap Nat
  /-- packets of the blocks and results that are not complete yet: they are written when they are (R364, R372, R375) -/
  parts : List Pkt
  /-- latest arrival on time -/
  lastArrival : Nat
  poisoned : Bool
  waitEnded : Bool
  /-- its next time limit has come, and acts at the end of this clk (R382) -/
  endDue : Bool
  /-- decisions by rank, its own among them -/
  summaries : SMap (Option Summary)
  /-- bytes arrived of each owner's RESULT -/
  results : SMap Nat
  /-- ranks whose version has arrived on time -/
  versions : SMap Bool
  /-- tracker entries that it holds (R381) -/
  tracker : Nat
  deriving DecidableEq, Repr

/-- The carried contributions of an operation (R373): for each rank, the bytes that have arrived and the late packets among
them. -/
structure Carry where
  op : PlaitOp
  ranks : List (Nat × Nat × Nat)
  deriving DecidableEq, Repr

/-- A PLAIT.FENCE that the engine has accepted: the engine slots that it waits for (R359). -/
structure PlaitFence where
  blk : Nat
  tag : Nat
  idx : Nat
  f : Bool
  ticket : Nat
  waits : List Nat
  deriving DecidableEq, Repr

/-- A packet in the early buffer (R354) with its arrival time. -/
structure Early where
  pk : Pkt
  at_ : Nat
  deriving DecidableEq, Repr

/-! ### Coil checkpoints -/

/-- A ring entry besides its registers (R390 to R399). Pieces are 256-byte pieces: page × 8,192 + piece. -/
structure Coil where
  /-- extents of the image as EN = 1 validated them: pages and DPA (R387) -/
  extents : List (Nat × Nat)
  pending : SMap Bool
  snap : SMap Bool
  /-- pieces of each snapshot page that the mirror holder has acknowledged, and the pages acknowledged whole -/
  ackCount : SMap Nat
  acked : SMap Bool
  /-- pieces received from the predecessor for the mirror -/
  rx : SMap Bool
  /-- pages of the parity area that δs of this checkpoint were added to -/
  parityRx : List Nat
  /-- δ pieces sent to parity holders and not yet acknowledged -/
  deltas : SMap Bool
  /-- page count that the predecessor's END announced -/
  endCount : Option Nat
  /-- pieces acknowledged to the predecessor -/
  ackedRx : Nat
  /-- pages that the stage holds, in stage order: DPA / 2 MiB of the area page each is for -/
  stagePages : List Nat
  /-- snapshot pages that this member has still to send, and then END: none when END has gone or no window is open (R394) -/
  toSend : Option (List Nat)
  /-- image pages on which a write has been held, first come first (R392) -/
  asked : List Nat
  /-- the open checkpoint is FULL (R391) -/
  full : Bool
  /-- label of the last commit -/
  step : Nat
  /-- pieces that a restore still waits for, and the contributions that each still lacks; pages that it lost -/
  want : SMap Nat
  lost : SMap Bool
  deriving DecidableEq, Repr

/-- An entry after a full device reset. -/
def Coil.reset : Coil := ⟨[], [], [], [], [], [], [], [], none, 0, [], none, [], false, 0, [], []⟩

/-- A record of the step replay area (R406). -/
structure RplRec where
  kind : Nat
  time : Nat
  body : List Byte
  deriving DecidableEq, Repr

/-! ### The Josil link -/

/-- States of a line of the Josil cache (R459). -/
inductive LineState
  | invalid | shared | exclusive | modified
  deriving DecidableEq, Repr

/-- A line of the Josil cache, keyed by companion address / 128: state, data, poison, fill requested, eviction in flight. -/
structure Line where
  st : LineState
  data : List Byte
  poison : Bool
  filling : Bool
  evicting : Bool
  /-- tag whose request for the line ended with a code, and the code, for the access that waits (R451, R463) -/
  err : Option (Nat × Nat)
  deriving DecidableEq, Repr

/-- A line that the cache does not hold. -/
def Line.reset : Line := ⟨.invalid, [], false, false, false, none⟩

/-- What an outstanding device request belongs to. -/
inductive JWho
  | fill (line : Nat) | evict (line : Nat) | move (id : Nat) | lid | lidRead
  deriving DecidableEq, Repr

/-- An outstanding request of the device (R451). -/
structure JReq where
  tid : Nat
  tag : Nat
  noCtx : Bool
  opc : Nat
  addr : Nat
  len : Nat
  at_ : Nat
  who : JWho
  deriving DecidableEq, Repr

/-- A message that the device sends (R448): precedence class (0 snoop, 1 response, 2 message, 3 request; R452), header, data. -/
structure JMsg where
  cls : Nat
  hdr : JHdr
  mtype : Nat
  data : List Byte
  deriving DecidableEq, Repr

/-- A flit as the device sends it (R442). -/
structure OutFlit where
  payload : Bool
  nak : Bool
  replay : Bool
  seq : Nat
  ack : Nat
  crReq : Nat
  crData : Nat
  crMsg : Nat
  slots : List (List Byte)
  deriving DecidableEq, Repr

/-- A request of the lid to companion memory: opcode, address, length, data, and what it is for. -/
structure LidReq where
  opc : Nat
  addr : Nat
  len : Nat
  data : List Byte
  who : JWho
  deriving DecidableEq, Repr

/-- The Josil link besides its registers (R439 to R452): sequence state, the flits that are not acknowledged and those that are to
be replayed, how often each has been replayed, retrains in a row, lanes with signal, credits held and owed, slots received of a
message that is not complete, messages received that have not acted, messages queued, slots left of the message being sent,
flits sent, the device's requests, identities retired by timeout, the lines of the cache, the widths before
a retrain, the training sets that the device's lanes repeat, the logical lanes on which it transmits, the request, data and message
credits that it granted in ALIGN (R450), the lines that a flush evicts when their fill ends (R462), and the lid's writes that wait for a
fill. -/
structure Josil where
  txSeq : Nat
  rxNext : Nat
  gap : Bool
  nak : Bool
  window : List OutFlit
  replay : List OutFlit
  tries : SMap Nat
  retrains : Nat
  signal : Nat
  crReq : Nat
  crData : Nat
  crMsg : Nat
  owedReq : Nat
  owedData : Nat
  owedMsg : Nat
  rxSlots : List (List Byte)
  inbox : List JMsg
  queue : List JMsg
  txSlots : List (List Byte)
  out : List OutFlit
  reqs : List JReq
  retired : List (Nat × Nat)
  lines : SMap Line
  oldWidths : Nat × Nat
  sets : List (List Byte)
  txLanes : List Nat
  granted : Nat × Nat × Nat
  flush : List Nat
  lidWaits : List LidReq
  deriving DecidableEq, Repr

/-- The link after a full device reset. -/
def Josil.reset : Josil :=
  ⟨0, 0, false, false, [], [], [], 0, 0, 0, 0, 0, 0, 0, 0, [], [], [], [], [], [], [], [], (0, 0), [], [], (0, 0, 0), [], []⟩

/-! ### The lid, power and management -/

/-- What the fuses hold: the device's identity, which a full device reset does not change (R8, R479, R485, R487). -/
structure Fuses where
  grade : Nat
  stepping : Nat
  blocks : Nat
  links : Nat
  secret : Nat
  mac0 : Nat
  mac1 : Nat
  /-- burned positions of the epoch array -/
  epochs : List Nat
  /-- positions that do not burn when tried -/
  weak : List Nat
  floor : Nat
  revoked : Nat
  deriving DecidableEq, Repr

/-- A journal record (R495). -/
structure JRec where
  seq : Nat
  time : Nat
  cls : Auth
  path : Path
  kind : Nat
  offset : Nat
  old : Word
  new : Word
  loc : Nat
  chain : Nat
  deriving DecidableEq, Repr

/-- A message the device sent to the fabric manager (R521): type, sequence number, key identifier and payload. -/
structure MgmtOut where
  type : Nat
  seq : Nat
  keyId : Nat
  /-- fabric time at sending, and the ports it went out on -/
  time : Nat
  ports : List Nat
  payload : List Byte
  /-- SRC, the UDP port on both ends, and the addresses of the device and of the fabric manager on each of those ports -/
  src : Nat
  udpPort : Nat
  addrs : List (Nat × Nat)
  /-- the datagrams that went out on each port, each with its TAG (R522) -/
  wire : List (List Byte)
  deriving DecidableEq, Repr

/-- What the device answers at the network layer (R519): its address and the MAC of the port, or an echo's data, and to whom. -/
inductive NetAnswer
  | here (addr mac to_ : Nat)
  | echo (addr to_ : Nat) (data : List Byte)
  deriving DecidableEq, Repr

/-- What the lid fetches from companion memory for a command (R480, R483, R489): the command's OP, the address of the next byte to be asked
for and how many are left, the bytes so far, and whether every read has returned OK. -/
structure LidFetch where
  op : Nat
  addr : Nat
  left : Nat
  bytes : List Byte
  ok : Bool
  deriving DecidableEq, Repr

/-- A record of the repair table (R482): KIND, UNIT, INDEX and VALUE. -/
structure Repair where
  kind : Nat
  unit : Nat
  index : Nat
  value : Nat
  deriving DecidableEq, Repr

/-- Who waits for an attestation: the driver's command with the destination address, or the operator's message. -/
inductive Asker
  | command (dest : Nat) | message
  deriving DecidableEq, Repr

/-- A write that starts a command, kept while the command waits: its register, its class and path, and the register before it and with START
as the journal shows them. -/
structure WaitCmd where
  off : Nat
  auth : Auth
  path : Path
  old : Word
  new : Word
  deriving DecidableEq, Repr

/-- The lid besides its registers. -/
structure Lid where
  upsett : Bool
  /-- commands of SCH_CMD and COL[e].CMD, and writes of COL[e].CTRL, that wait for a frame under test (R247) -/
  waits : List WaitCmd
  /-- ns since the deassertion of JL_RESET_N (R474), in units of 1/27 ns -/
  loc : Nat
  journal : List JRec
  /-- records dropped from the full buffer before HBM trained (R497) -/
  gap : Nat
  head : Nat
  /-- the bytes that a command fetches: the image buffer of R480, a repair table or a request block -/
  fetch : Option LidFetch
  /-- the sections of the image that runs, as they were placed: type and bytes (R480) -/
  sections : List (Nat × List Byte)
  /-- the image that runs (R480): verified, its digest, SEC_LEVEL -/
  imageOk : Bool
  imageDigest : Nat
  secLevel : Nat
  /-- the repair table that was loaded (R483): its digest and records -/
  repairOk : Bool
  repairDigest : Nat
  repairs : List Repair
  key : Option Nat
  /-- a key that was installed in this clk: it applies from the next one on (R493) -/
  newKey : Option Nat
  /-- the identity certificate has verified (R486) -/
  identityOk : Bool
  /-- positions whose epoch trees the background computation has completed (R488) -/
  trees : List Nat
  /-- an advance of the epoch waits for the tree of the position that burned (R488) -/
  advancing : Bool
  /-- attestation requests that wait for the advance: nonce, PART, and who asked -/
  waiting : List (Nat × Nat × Asker)
  /-- an HBM stack has failed to train at step 4 (R476) -/
  trainFailed : Bool
  /-- LOCAL at the start of step 6, in ns, and, once fabric time has locked, the fabric time at which the step ends anyway (R474, R475) -/
  step6At : Nat
  step6Due : Option Nat
  /-- mails sent since upsett -/
  mailSeq : Nat
  /-- sequence numbers accepted from the fabric manager, among the last 1,024 (R523) -/
  rxSeen : List Nat
  /-- messages sent to the fabric manager, and frames answered by port -/
  out : List MgmtOut
  answered : List (Nat × NetAnswer)
  /-- values read at the debug port, oldest first -/
  debugOut : List Word
  rtsRunning : Bool
  deriving DecidableEq, Repr

/-- The lid after a full device reset. -/
def Lid.reset : Lid :=
  { upsett := false, waits := [], loc := 0, journal := [], gap := 0, head := 0, fetch := none, sections := [],
    imageOk := false, imageDigest := 0, secLevel := 0,
    repairOk := false, repairDigest := 0, repairs := [], key := none, newKey := none, identityOk := false, trees := [], advancing := false,
    waiting := [], trainFailed := false, step6At := 0, step6Due := none, mailSeq := 0, rxSeen := [], out := [], answered := [], debugOut := [], rtsRunning := false }

/-- Supplies, pins, clocks and sensors (R501, R505 to R518, R525). -/
structure Power where
  /-- VDD_IO and the rails above it are up -/
  railsOn : Bool
  /-- PWR_GOOD is high, and which reference clocks are present -/
  pwrGood : Bool
  refA : Bool
  refB : Bool
  /-- every unit is held stopped by a power or clock fault, until JL_RESET_N is cycled or the rails fall -/
  held : Bool
  /-- FAULT_CAUSE: cause in bits 3 to 0, rail index in bits 7 to 4 -/
  faultCause : Nat
  /-- JL_RESET_N, PWR_FAULT_N, THERM_TRIP_N, SMB_ALERT_N, THROT_REQ_N: true is high -/
  resetN : Bool
  pwrFaultN : Bool
  thermTripN : Bool
  smbAlertN : Bool
  throtReqN : Bool
  /-- last readings of the on-die sensors and of the diode, in 0.125 °C; none before the first sample, and while the diode is open -/
  temps : List Int
  diode : Option Int
  /-- L_ext in force (R518) -/
  lExt : Nat
  /-- PWR_CTRL as in force until the window ends (R518) -/
  ctrl : Word
  /-- the SMBus target's last answer -/
  smbAnswer : Option Nat
  deriving DecidableEq, Repr

/-- Supplies after a full device reset: rails up, JL_RESET_N low, PWR_CTRL at its reset value (DESIGN CHOICE, log entry 1). -/
def Power.reset : Power :=
  ⟨true, false, false, false, false, 0, false, true, true, true, true, [], none, 0, 0x144817C00000, none⟩

/-- A time source of the servo (R20): valid, offset in units of 2^-32 ns (a positive value: the estimate is ahead), hop count,
the last PTP sequence identifier. -/
structure Source where
  valid : Bool
  offset : Int
  hops : Nat
  seqId : Option Nat
  deriving DecidableEq, Repr

/-- A source that has delivered nothing. -/
def Source.reset : Source := ⟨false, 0, 15, none⟩

/-- The servo besides its registers. -/
structure Servo where
  /-- the estimate, in units of 2^-32 ns (R17) -/
  est : Nat
  /-- fabric time has been locked since the full reset -/
  everLocked : Bool
  /-- the phase correction (R23): the offset that the slew in progress has still to remove -/
  slew : Int
  /-- the frequency correction (R23), in units of 2^-32 ns for each clk -/
  freq : Int
  /-- ERR_BOUND at the start of the holdover, and the fabric time of its start -/
  holdErr : Nat
  holdAt : Nat
  /-- since when a source has been in use and within OUTLIER_NS during holdover -/
  goodSince : Option Nat
  /-- acquisition has been restarted by a change of epoch (R16) -/
  reacquire : Bool
  /-- draws of the free slew so far: the model's own counter (log entry 90) -/
  draws : Nat
  /-- fabric time as this clk began, by which trigger slots fire in it (R22, R25); none before the first lock -/
  fireAt : Option Nat
  /-- the control registers of the slots written in this clk, which fire in the next one at the earliest (R25, R32) -/
  fresh : List Nat
  deriving DecidableEq, Repr

/-- The servo after a full device reset. -/
def Servo.reset : Servo := ⟨0, false, 0, 0, 0xFFFF, 0, none, false, 0, none, []⟩

/-- A recovery action that needs arbiters (R271): a frame's staging and march test, the scrub of a partition compute reset, the self-tests
of a block's array, core, vector registers and bank rows, a spare fill, and the reload of a slot from its origin. -/
inductive RecAct
  | frame (stack frame : Nat) | scrub (b : Nat) | array (b : Nat) | core (b : Nat) | vregs (b : Nat) | row (b row : Nat)
  | spare (b : Nat) | reload (b slot : Nat)
  deriving DecidableEq, Repr

/-- The ownership of an arbiter's port (R264, R265, R268, R272), keyed by the offset of its ARB_CFG, plus 4 for a write port, or for a CELL
arbiter twice its column row, plus 1 for a write port. -/
structure Arb where
  owner : Option Nat
  /-- the burst limit has expired: the grant ends at the owner's next break point -/
  expired : Bool
  /-- beats of the grant so far, and its burst limit, as the decision that made it found it (R265, R266) -/
  beats : Nat
  limit : Nat
  /-- grants to high-priority requesters in this window -/
  grants : SMap Nat
  /-- the emergency requester holds the beats, and the owner that it has displaced -/
  emergency : Option (Option Nat)
  /-- QUOTA in force since the last window boundary (R266) -/
  quota : Nat
  /-- clk of the last rotation (R270) -/
  rotAt : Option Nat
  /-- the clk of the last beat or decision, and how many it has had (R258) -/
  used : Nat × Nat
  /-- ARB_CFG and ARB_PRIO as they were before the clk in which they were last written (R266) -/
  old : Option (Nat × Word × Word)
  /-- the recovery action that holds the emergency requester (R271) -/
  held : Option RecAct
  deriving DecidableEq, Repr

/-- An arbiter with no owner. -/
def Arb.reset : Arb := ⟨none, false, 0, 0, [], none, 16, none, (0, 0), none, none⟩

/-- A request in the device's arbitration (R261, R262). -/
structure ArbReq where
  /-- the arbiters that it has still to pass: it waits at the first -/
  hops : List Hop
  /-- the clk with which it was stamped -/
  stamp : Nat
  /-- how much of it has been transferred where it waits -/
  served : Nat
  /-- it has lost a decision where it waits -/
  lost : Bool
  /-- the block whose unit made it -/
  src : Option Nat
  deriving DecidableEq, Repr

/-- A watchdog (R419): latched progress, none before the first firing, and strikes. -/
structure Wd where
  latched : Option Nat
  strikes : Nat
  deriving DecidableEq, Repr

/-- A watchdog that has not fired. -/
def Wd.reset : Wd := ⟨none, 0⟩

/-- What a watchdog that has expired watched (R420). -/
inductive Watched
  | block (b : Nat) | sched (r : Nat) | overrun | companion
  deriving DecidableEq, Repr

/-- A completion word whose delivery PTB_DELAY holds back (R534). -/
structure Delayed where
  dueNs : Nat
  blk : Nat
  tag : Nat
  /-- home index of the block -/
  idx : Nat
  f : Bool
  ticket : Nat
  unit : Nat
  word : Word
  deriving DecidableEq, Repr

/-- The device. -/
structure State where
  /-- commands that wait, first in, first out -/
  pending : List Instr
  /-- clk cycles -/
  clk : Nat
  /-- stored registers of the control aperture by offset; an unlisted one holds its reset value -/
  regs : SMap Word
  /-- HBM by device physical address -/
  hbm : SMap Byte
  /-- poisoned 256-byte units of HBM, by address / 256 (R251) -/
  hbmPoison : SMap Bool
  /-- writes to a snapshot page of an open checkpoint, held in order: address, bytes, the offsets among them that carry poison,
  and the companion response that waits (R392) -/
  heldWrites : List (Nat × List Byte × List Nat × Option JHdr)
  /-- notifications whose record cannot be written yet: ring and record (R247, R311, R392) -/
  ringWaits : List (Nat × List Byte)
  /-- the ranges that saves have written, in the device's own layout (R302) -/
  saveAreas : List SaveArea
  /-- the model's own: the number of saves so far, for their free bytes -/
  saveDraws : Nat
  /-- channels of a stack that have failed their interface test (R247) -/
  badChannels : List (Nat × Nat)
  /-- remap tables: stack × 2^23 + frame to spare frame (R249) -/
  remap : SMap (Option Nat)
  frameTests : List FrameTest
  /-- scrubs in progress: base, length, purpose (R254) -/
  scrubs : List (Nat × Nat × ScrubFor)
  /-- ranges whose scrub has completed: base, length, fabric time (R489) -/
  scrubLog : List (Nat × Nat × Nat)
  tlb : List Xl
  moves : List Move
  moveId : Nat
  blks : SMap Blk
  parts : SMap Part
  ctxs : SMap Ctx
  queues : SMap Queue
  links : SMap Link
  ports : SMap (List QPkt)
  /-- route tables: map × 65,536 + address to egress port (R343) -/
  routes : SMap Nat
  plait : SMap (Option PlaitOp)
  early : List Early
  carries : List Carry
  /-- gather holds: partition × 1,024 + index to the context that holds it (R376) -/
  holds : SMap (Option Nat)
  fences : List PlaitFence
  /-- operations that have completed, by tag and OPID: a packet of one is late (R373) -/
  plaitDone : SMap Bool
  coils : SMap Coil
  /-- records of the step replay area, oldest first (R406) -/
  recorder : List RplRec
  /-- the area filled up during the recording (R406) -/
  rplFull : Bool
  /-- records that a replay has not used yet (R407) -/
  replay : List RplRec
  fence : SMap Bool
  /-- watchdogs by slot: region r's slot i and block 32 r + j under ((r × 256 + i) × 32 + j), chip slot i under 32,768 + i -/
  wds : SMap Wd
  /-- watchdogs that have expired and whose expiry has not acted yet, oldest first: what it watched, TARGET, fabric time -/
  expiries : List (Watched × Nat × Nat)
  /-- straggler completions since the last firing of the overrun watchdog -/
  overruns : Nat
  /-- heartbeat counts of the region schedulers 0 to 3, and under 4 of the companion -/
  heartbeats : SMap Nat
  josil : Josil
  lid : Lid
  power : Power
  servo : Servo
  sources : SMap Source
  arbs : SMap Arb
  /-- the requests in the device's arbitration (R261, R262), in the order in which they came to wait where they are -/
  arbReqs : List ArbReq
  delayed : List Delayed
  /-- credits delayed under PTB_CRED (R533): due time, interface (a rim link, 64 for the Josil link, or 128 and a stack), class, number -/
  credits : List (Nat × Nat × Nat × Nat)
  /-- the values that the PTB registers written in this clk had before: what the events of the clk use (R531) -/
  ptbOld : List (Nat × Word)
  stallDraws : Nat
  delayDraws : Nat
  upsets : List Upset
  fuses : Fuses
  /-- full device resets so far: the model's own counter, by which the free values of one are told from those of another (log entry 90) -/
  resets : Nat
  deriving DecidableEq, Repr

/-- The fuses of the device as the model starts it: grade A, everything present (DESIGN CHOICE, log entry 1). -/
def Fuses.reset : Fuses :=
  ⟨1, 1, 2 ^ 128 - 1, 2 ^ 36 - 1, 0, 0, 0, [], [], 0, 0⟩

/-- The device right after a full device reset, with JL_RESET_N still low: every register at its reset value, every
table empty (DESIGN CHOICE, log entry 1). -/
def State.reset : State where
  pending := []
  clk := 0
  regs := []
  hbm := []
  hbmPoison := []
  heldWrites := []
  ringWaits := []
  saveAreas := []
  saveDraws := 0
  badChannels := []
  remap := []
  frameTests := []
  scrubs := []
  scrubLog := []
  tlb := []
  moves := []
  moveId := 0
  blks := []
  parts := []
  ctxs := []
  queues := []
  links := []
  ports := []
  routes := []
  plait := []
  early := []
  carries := []
  holds := []
  fences := []
  plaitDone := []
  coils := []
  recorder := []
  rplFull := false
  replay := []
  fence := []
  wds := []
  expiries := []
  overruns := 0
  heartbeats := []
  josil := .reset
  lid := .reset
  power := .reset
  servo := .reset
  sources := []
  arbs := []
  arbReqs := []
  delayed := []
  credits := []
  ptbOld := []
  stallDraws := 0
  delayDraws := 0
  upsets := []
  fuses := .reset
  resets := 0

end Sys2Proof.Machine
end

