-- ==== Sys2Proof/Machine/Ops.lean ====
section
/-!
DEFINITION. The named operations that every unit shares: bit fields, stored registers and their fields, fabric time, the
tables of the state, HBM bytes with poison and dirty bits, journal records, notifications, health events and the messages
that leave the device.
-/

namespace Sys2Proof.Machine

/-- What a command answers. -/
abbrev Out := Host.Outcome State Fault Refusal

/-! ### Bits -/

/-- Bits `hi` to `lo` of `n`. -/
def bits (n hi lo : Nat) : Nat := n / 2 ^ lo % 2 ^ (hi + 1 - lo)

/-- `n` with bits `hi` to `lo` replaced by the low bits of `v`. -/
def withBits (n hi lo v : Nat) : Nat :=
  n / 2 ^ (hi + 1) * 2 ^ (hi + 1) + v % 2 ^ (hi + 1 - lo) * 2 ^ lo + n % 2 ^ lo

/-- Bit `i` of `n`. -/
def bitOf (n i : Nat) : Bool := n / 2 ^ i % 2 == 1

/-- A Boolean as a bit. -/
def b2n (b : Bool) : Nat := if b then 1 else 0

/-- The number below 2^w that stands for the integer `x` in two's complement. -/
def wrap (w : Nat) (x : Int) : Nat := (x % (2 ^ w : Nat)).toNat

/-- The integer that the low `w` bits of `n` stand for in two's complement. -/
def signed (w n : Nat) : Int :=
  if n % 2 ^ w < 2 ^ (w - 1) then (n % 2 ^ w : Nat) else (n % 2 ^ w : Nat) - (2 ^ w : Nat)

/-- Rounding up in a division. -/
def ceilDiv (a b : Nat) : Nat := (a + b - 1) / b

/-- The positions below `n` at which `p` holds. -/
def positions (n : Nat) (p : Nat → Bool) : List Nat := (List.range n).filter p

/-! ### CRC-32C (R61, R319) -/

/-- One bit of the CRC, reflected Castagnoli polynomial. -/
def crcBit (c : BitVec 32) : BitVec 32 := if c.getLsbD 0 then (c >>> 1) ^^^ 0x82F63B78 else c >>> 1

/-- One byte of the CRC. -/
def crcByte (c : BitVec 32) (x : Byte) : BitVec 32 :=
  crcBit (crcBit (crcBit (crcBit (crcBit (crcBit (crcBit (crcBit (c ^^^ x.setWidth 32))))))))

/-- CRC-32C of a list of bytes. -/
def crc32c (l : List Byte) : BitVec 32 := ~~~(l.foldl crcByte 0xFFFFFFFF)

/-! ### Stored registers -/

/-- The word stored in a register. -/
def State.reg (s : State) (off : Nat) : Word := SMap.get regReset s.regs off

/-- Store a word in a register. -/
def State.setReg (s : State) (off : Nat) (v : Word) : State := { s with regs := SMap.set regReset s.regs off v }

/-- A field of a stored register. -/
def State.fld (s : State) (f : Fld) : Nat := bits (s.reg f.off).toNat f.hi f.lo

/-- Is a one-bit field 1? -/
def State.flag (s : State) (f : Fld) : Bool := s.fld f == 1

/-- Store a field of a register. -/
def State.setFld (s : State) (f : Fld) (v : Nat) : State :=
  s.setReg f.off (BitVec.ofNat 64 (withBits (s.reg f.off).toNat f.hi f.lo v))

/-- Store a one-bit field. -/
def State.setFlag (s : State) (f : Fld) (b : Bool) : State := s.setFld f (b2n b)

/-- Add to a counter that saturates at the largest value of its field. -/
def State.count (s : State) (f : Fld) (k : Nat) : State :=
  s.setFld f (Nat.min (s.fld f + k) (2 ^ (f.hi + 1 - f.lo) - 1))

/-- Set a number of one-bit positions of a whole-register mask. -/
def State.setMaskBit (s : State) (off i : Nat) (b : Bool) : State :=
  s.setReg off (BitVec.ofNat 64 (withBits (s.reg off).toNat i i (b2n b)))

/-! ### Time -/

/-- Fabric time in ns: the integer part of the estimate, 0 before the first lock (R17). -/
def State.now (s : State) : Nat := s.servo.est / 2 ^ 32

/-- Ns on the lid's local counter (R474). -/
def State.local (s : State) : Nat := s.lid.loc / 27

/-! ### Tables -/

/-- Block `b`. -/
def State.blk (s : State) (b : Nat) : Blk := SMap.get (fun _ => Blk.reset) s.blks b
def State.setBlk (s : State) (b : Nat) (x : Blk) : State := { s with blks := SMap.set (fun _ => Blk.reset) s.blks b x }
def State.modBlk (s : State) (b : Nat) (g : Blk → Blk) : State := s.setBlk b (g (s.blk b))

/-- The context state on block `b`. -/
def State.bst (s : State) (b : Nat) : BlkState := (s.blk b).st
def State.modBst (s : State) (b : Nat) (g : BlkState → BlkState) : State :=
  s.modBlk b fun x => { x with st := g x.st }

/-- A register set of block `b`: FILL where `f` holds, else MAIN (R177). -/
def BlkState.set (x : BlkState) (f : Bool) : CoreSet := if f then x.fill else x.main
def BlkState.modSet (x : BlkState) (f : Bool) (g : CoreSet → CoreSet) : BlkState :=
  if f then { x with fill := g x.fill } else { x with main := g x.main }
def State.cset (s : State) (b : Nat) (f : Bool) : CoreSet := (s.bst b).set f
def State.modSet (s : State) (b : Nat) (f : Bool) (g : CoreSet → CoreSet) : State :=
  s.modBst b fun x => x.modSet f g

def State.ctxOf (s : State) (c : Nat) : Ctx := SMap.get (fun _ => Ctx.reset) s.ctxs c
def State.setCtx (s : State) (c : Nat) (x : Ctx) : State := { s with ctxs := SMap.set (fun _ => Ctx.reset) s.ctxs c x }
def State.modCtx (s : State) (c : Nat) (g : Ctx → Ctx) : State := s.setCtx c (g (s.ctxOf c))

def State.queueOf (s : State) (q : Nat) : Queue := SMap.get (fun _ => Queue.reset) s.queues q
def State.setQueue (s : State) (q : Nat) (x : Queue) : State :=
  { s with queues := SMap.set (fun _ => Queue.reset) s.queues q x }
def State.modQueue (s : State) (q : Nat) (g : Queue → Queue) : State := s.setQueue q (g (s.queueOf q))

def State.partOf (s : State) (p : Nat) : Part := SMap.get (fun _ => Part.reset) s.parts p
def State.modPart (s : State) (p : Nat) (g : Part → Part) : State :=
  { s with parts := SMap.modify (fun _ => Part.reset) s.parts p g }

def State.link (s : State) (k : Nat) : Link := SMap.get (fun _ => Link.reset) s.links k
def State.modLink (s : State) (k : Nat) (g : Link → Link) : State :=
  { s with links := SMap.modify (fun _ => Link.reset) s.links k g }

def State.coil (s : State) (e : Nat) : Coil := SMap.get (fun _ => Coil.reset) s.coils e
def State.modCoil (s : State) (e : Nat) (g : Coil → Coil) : State :=
  { s with coils := SMap.modify (fun _ => Coil.reset) s.coils e g }

/-- A plait engine slot (R358). -/
def State.plaitSlot (s : State) (i : Nat) : Option PlaitOp := SMap.get (fun _ => none) s.plait i
def State.setPlaitSlot (s : State) (i : Nat) (o : Option PlaitOp) : State :=
  { s with plait := SMap.set (fun _ => none) s.plait i o }

def State.port (s : State) (k : Nat) : List QPkt := SMap.get (fun _ => []) s.ports k
def State.setPort (s : State) (k : Nat) (l : List QPkt) : State := { s with ports := SMap.set (fun _ => []) s.ports k l }

def State.arb (s : State) (off : Nat) : Arb := SMap.get (fun _ => Arb.reset) s.arbs off
def State.modArb (s : State) (off : Nat) (g : Arb → Arb) : State :=
  { s with arbs := SMap.modify (fun _ => Arb.reset) s.arbs off g }

def State.line (s : State) (n : Nat) : Line := SMap.get (fun _ => Line.reset) s.josil.lines n
def State.modJosil (s : State) (g : Josil → Josil) : State := { s with josil := g s.josil }
def State.modLid (s : State) (g : Lid → Lid) : State := { s with lid := g s.lid }
def State.modPower (s : State) (g : Power → Power) : State := { s with power := g s.power }
def State.modServo (s : State) (g : Servo → Servo) : State := { s with servo := g s.servo }
def State.setLine (s : State) (n : Nat) (x : Line) : State :=
  s.modJosil fun j => { j with lines := SMap.set (fun _ => Line.reset) j.lines n x }

/-- Apply `g` for each member of a list, in order. -/
def State.forEach {α : Type} (s : State) (l : List α) (g : State → α → State) : State := l.foldl g s

/-! ### Units present and in service -/

/-- Is block `b` fused in (R2)? (DESIGN CHOICE, log entry 3). -/
def State.blockPresent (s : State) (b : Nat) : Bool :=
  decide (b < 128) && bitOf (s.reg (DIM_BLOCK_MASK (b / 64))).toNat (b % 64)

/-- Is block `b` out of service (R13)? -/
def State.blockOut (s : State) (b : Nat) : Bool := bitOf (s.reg (HLT_BLOCK_OUT (b / 64))).toNat (b % 64)

/-- Is rim link `k` fused in? (DESIGN CHOICE, log entry 3). -/
def State.linkPresent (s : State) (k : Nat) : Bool := decide (k < 36) && bitOf (s.reg DIM_RIM_MASK).toNat k

/-- Every main supply and clock is present and JL_RESET_N is high, so that the units run (DEDUCED, log entry 8). -/
def State.powered (s : State) : Bool := s.power.railsOn && s.power.resetN && !s.power.held

/-- What an event does on a device whose units run; on any other it does nothing (log entry 8) (DESIGN CHOICE, log entry 3). -/
def State.whenOn (s : State) (g : State → State) : State := if s.powered then g s else s

/-- Upsett is complete. -/
def State.ready (s : State) : Bool := s.flag LID_STATUS_READY

/-- Does the device drive its outputs: has step 1 of upsett ended (R473, R508)? -/
def State.driven (s : State) : Bool := s.powered && (s.ready || decide (2 ≤ s.fld LID_STATUS_STEP))

/-- HBM has trained (step 4 of upsett). -/
def State.hbmTrained (s : State) : Bool := (List.range 8).any fun k => s.flag (HBM_STATUS_TRAINED k)

/-! ### Partitions and tags -/

/-- Does partition `p` exist? -/
def State.partExists (s : State) (p : Nat) : Bool := decide (p < 16) && s.flag (SCH_PART_CTRL_VALID p)

/-- The partitions that exist. -/
def State.partList (s : State) : List Nat := positions 16 s.partExists

/-- The blocks that SCH_PART[p].BLOCKS0 and BLOCKS1 name, ascending. -/
def State.partBlocks (s : State) (p : Nat) : List Nat :=
  positions 128 fun b =>
    bitOf (s.reg (if b < 64 then SCH_PART_BLOCKS0 p else SCH_PART_BLOCKS1 p)).toNat (b % 64)

/-- The partition that block `b` belongs to. -/
def State.blockPart (s : State) (b : Nat) : Option Nat := s.partList.find? fun p => (s.partBlocks p).contains b

/-- The groups of a context's home: HOME 0 means every group of the partition (R280). -/
def State.homeGroups (s : State) (c : Nat) : List Nat :=
  let x := s.ctxOf c
  let n := (s.partBlocks x.part).length / 8
  if x.home = 0 then List.range n else positions n (bitOf x.home)

/-- The blocks of some groups of a partition (R274). -/
def State.groupBlocks (s : State) (p : Nat) (gs : List Nat) : List Nat :=
  let bs := s.partBlocks p
  gs.flatMap fun g => (bs.drop (8 * g)).take 8

/-- The home blocks of a context, ascending. -/
def State.homeBlocks (s : State) (c : Nat) : List Nat := s.groupBlocks (s.ctxOf c).part (s.homeGroups c)

/-- The lowest home block of a context: the one that a fault of the memory system names where no block is known. -/
def State.firstBlock (s : State) (c : Nat) : Nat := (s.homeBlocks c).headD 0

/-- Index of block `b` among its context's home blocks (R302). -/
def State.homeIndex (s : State) (c b : Nat) : Nat := (s.homeBlocks c).findIdx (· == b)

/-- The 20-bit tag of a context (R279). -/
def State.tagOf (s : State) (c : Nat) : Nat := c * 256 + (s.ctxOf c).gen

/-- The border's test of a tag (R412): the context is SWAPPED or RESIDENT and the generation is current. -/
def State.tagCurrent (s : State) (tag : Nat) : Bool :=
  let x := s.ctxOf (tag / 256 % 4096)
  (x.st == .swapped || x.st == .resident) && tag % 256 == x.gen

/-- Lead region of a partition (R277). -/
def State.leadRegion (s : State) (p : Nat) : Nat := ((s.partBlocks p).headD 0) / 32

/-- The contexts that the tables list. -/
def State.ctxList (s : State) : List Nat := s.ctxs.map (·.1)

/-- The contexts of a partition that are not FREE. -/
def State.partCtxs (s : State) (p : Nat) : List Nat :=
  s.ctxList.filter fun c => (s.ctxOf c).st != .free && (s.ctxOf c).part == p

/-- The queues that the tables list, bound to a context. -/
def State.ctxQueues (s : State) (c : Nat) : List Nat :=
  (s.queues.map (·.1)).filter fun q => (s.queueOf q).st != .unbound && (s.queueOf q).ctx == c

/-! ### The Josil link -/

/-- Remove the first member that matches. -/
def takeFirst {α : Type} (p : α → Bool) : List α → Option α × List α
  | [] => (none, [])
  | x :: xs => if p x then (some x, xs) else
    let r := takeFirst p xs
    (r.1, x :: r.2)

/-- Change the first member that matches. -/
def replaceFirst {α : Type} (p : α → Bool) (g : α → α) : List α → List α
  | [] => []
  | x :: xs => if p x then g x :: xs else x :: replaceFirst p g xs

/-- A transaction identity that is free (R451). -/
def freeTid (js : Josil) : Nat → Nat → Nat
  | 0, n => n
  | fuel + 1, n =>
    if js.reqs.any (fun r => r.tid == n) || js.retired.any (fun r => r.1 == n) then freeTid js fuel (n + 1) else n

/-- Queue a message for the companion (R448, R452). -/
def State.sendJosil (s : State) (m : JMsg) : State := s.modJosil fun j => { j with queue := j.queue ++ [m] }

/-- A response to a request: TID and TAG are echoed, and STATUS is given (R448, R449). -/
def response (opc : Nat) (h : JHdr) (poison : Bool) (status len : Nat) : JHdr :=
  ⟨opc, poison, h.noCtx, false, false, len, h.tid, h.tag, 0, status⟩

/-- Is a message of the companion one of its uncached requests (R449)? -/
def JMsg.isAccess (m : JMsg) : Bool := m.hdr.opc == 1 || m.hdr.opc == 2

/-- Take a message that has arrived and not acted: an uncached request only if it is the oldest of those (R454). -/
def State.takeMsg (s : State) (p : JMsg → Bool) : Option JMsg × State :=
  let inOrder (m : JMsg) : Bool := !m.isAccess || s.josil.inbox.find? JMsg.isAccess == some m
  match takeFirst (fun m => p m && inOrder m) s.josil.inbox with
  | (none, _) => (none, s)
  | (some m, rest) => (some m, s.modJosil fun j => { j with inbox := rest })

/-- The opcodes of R449. -/
def opcRdNc : Nat := 0x01
def opcWrNc : Nat := 0x02
def opcRdShared : Nat := 0x03
def opcRdOwn : Nat := 0x04
def opcWbDirty : Nat := 0x05
def opcEvictClean : Nat := 0x06
def opcSnpInv : Nat := 0x08
def opcSnpData : Nat := 0x09
def opcCmp : Nat := 0x10
def opcCmpData : Nat := 0x11
def opcGrantS : Nat := 0x12
def opcGrantE : Nat := 0x13
def opcSnpRsp : Nat := 0x14
def opcSnpRspData : Nat := 0x15
def opcGrantAck : Nat := 0x16
def opcMsg : Nat := 0x20

/-- Make a request of the companion (R451, R458): the tag of a context, or none for the device itself. -/
def State.josilRequest (s : State) (opc addr len : Nat) (tag : Option Nat) (poison : Bool) (data : List Byte)
    (who : JWho) : State :=
  let again := 2000 * Nat.max 1 (s.fld JSL_CTRL_REQ_TIMEOUT_US)
  let s := s.modJosil fun j => { j with retired := j.retired.filter fun r => decide (s.now < r.2 + again) }
  let tid := freeTid s.josil 65536 0
  let h : JHdr := ⟨opc, poison, tag.isNone, false, false, len, tid, tag.getD 0, addr, 0⟩
  let s := s.sendJosil ⟨3, h, 0, data⟩
  s.modJosil fun j => { j with reqs := j.reqs ++ [⟨tid, tag.getD 0, tag.isNone, opc, addr, len, s.now, who⟩] }

/-! ### Lines of the Josil cache (R459, R462) -/

/-- Cut `n` bytes from `a` at multiples of `g`: start and length of each piece. -/
def spans (g : Nat) : Nat → Nat → Nat → List (Nat × Nat)
  | 0, _, _ => []
  | fuel + 1, a, n =>
    if n = 0 then []
    else
      let k := Nat.min n (g - a % g)
      (a, k) :: spans g fuel (a + k) (n - k)

/-- The lines that a range of companion memory touches, as pieces. -/
def linePieces (a n : Nat) : List (Nat × Nat) := spans 128 (n / 128 + 2) a n

/-- Lines of 128 bytes. -/
def lineOf (pa : Nat) : Nat := pa / 128

/-- Evict a line: WB_DIRTY where it is modified, EVICT_CLEAN where it is not; it is filled again only after the CMP. -/
def State.evictLine (s : State) (n : Nat) : State :=
  let l := s.line n
  let s' := s.setLine n { Line.reset with evicting := true, err := l.err }
  match l.st with
  | .invalid => s
  | .modified => s'.josilRequest opcWbDirty (n * 128) 128 none l.poison l.data (.evict n)
  | _ => s'.josilRequest opcEvictClean (n * 128) 0 none false [] (.evict n)

/-- Does a range touch a line whose fill is outstanding? One fill of a line is outstanding at a time, and what comes later waits for it
(R459). -/
def State.fillsIn (s : State) (a n : Nat) : Bool := (linePieces a n).any fun p => (s.line (lineOf p.1)).filling

/-- Before an uncached request that covers a held line, the line is written back and set to I. -/
def State.uncache (s : State) (a n : Nat) : State := s.forEach ((linePieces a n).map fun p => lineOf p.1) State.evictLine

/-- The lid's requests that no fill holds, in order. -/
def State.lidGo (s : State) : (fuel : Nat) → State
  | 0 => s
  | fuel + 1 => match s.josil.lidWaits with
    | [] => s
    | q :: rest =>
      if s.fillsIn q.addr q.len then s
      else
        let s := (s.modJosil fun j => { j with lidWaits := rest }).uncache q.addr q.len
        (s.josilRequest q.opc q.addr q.len none false q.data q.who).lidGo fuel

/-- An uncached request of the lid to companion memory (R458): the lines that it covers are written back first, and it waits for the fill of
one (R459, R462) (DEDUCED, log entry 69). -/
def State.lidRequest (s : State) (q : LidReq) : State :=
  (s.modJosil fun j => { j with lidWaits := j.lidWaits ++ [q] }).lidGo (s.josil.lidWaits.length + 1)

/-- A write of the lid to companion memory with WR_NC. -/
def State.lidWrite (s : State) (a : Nat) (d : List Byte) : State := s.lidRequest ⟨opcWrNc, a, d.length, d, .lid⟩

/-- The fill of a line has ended: a flush that waits for it evicts the line (R462), and the lid's requests that wait go. -/
def State.fillEnded (s : State) (n : Nat) : State :=
  let s := if s.josil.flush.contains n then (s.modJosil fun j => { j with flush := j.flush.filter (· != n) }).evictLine n else s
  s.lidGo s.josil.lidWaits.length

/-- The lid asks for the next bytes of what it fetches, one read at a time, within 4 KiB (R449, R480) (DEDUCED, log entry 76). -/
def State.lidAsk (s : State) : State :=
  match s.lid.fetch with
  | some f =>
    if f.left = 0 || !f.ok then s
    else
      let k := Nat.min f.left (4096 - f.addr % 4096)
      let s := s.modLid fun l => { l with fetch := some { f with addr := f.addr + k, left := f.left - k } }
      s.lidRequest ⟨opcRdNc, f.addr, k, [], .lidRead⟩
  | none => s

/-- A read of the lid has ended: with data, or with none where it has failed; one that carries poison has failed (DEDUCED, log entry 76). -/
def State.lidReadEnds (s : State) (d : Option (List Byte)) : State :=
  match s.lid.fetch with
  | some f => (s.modLid fun l => { l with fetch := some { f with bytes := f.bytes ++ d.getD [], ok := f.ok && d.isSome } }).lidAsk
  | none => s

/-- Does a read of the lid stand at the companion, or wait to? -/
def State.lidReading (s : State) : Bool :=
  (s.josil.reqs.any fun r => r.who == .lidRead) || s.josil.lidWaits.any fun q => q.who == .lidRead

/-- Has the lid fetched, for a command, just these bytes, or failed to fetch them? -/
def State.lidFetched (s : State) (op : Nat) (fetched : Bool) (l : List Byte) : Bool :=
  match s.lid.fetch with
  | some f => f.op == op && !s.lidReading && (f.left == 0 || !f.ok) && f.ok == fetched && (!fetched || f.bytes == l)
  | none => false

/-- The header of a message of the message class. -/
def msgHdr (len : Nat) : JHdr := ⟨opcMsg, false, true, false, false, len, 0, 0, 0, 0⟩

/-- Replace the first queued message that matches, or append (R465, R498). -/
def replaceOrAppend {α : Type} (p : α → Bool) (x : α) : List α → List α
  | [] => [x]
  | y :: ys => if p y then x :: ys else y :: replaceOrAppend p x ys

/-- Queue or update NOTIFY for ring `i` (R464, R465). -/
def State.sendNotify (s : State) (i wr time : Nat) : State :=
  if bitOf (s.fld JSL_CTRL_NOTIFY_MASK) i then
    let d := leBytes i 2 ++ [0, 0] ++ leBytes wr 4 ++ leBytes time 8
    s.modJosil fun j =>
      { j with queue := replaceOrAppend (fun m => m.mtype == 1 && leNat (m.data.take 2) == i) ⟨2, msgHdr 16, 1, d⟩ j.queue }
  else s

/-- Queue a mail of the lid (R498); a JOURNAL mail replaces an unsent one (DESIGN CHOICE, log entry 21). -/
def State.sendMail (s : State) (kind : Nat) (body : List Byte) : State :=
  let seq := s.lid.mailSeq
  let d := leBytes kind 2 ++ [0, 0] ++ leBytes ((Config.mailSeq0 + seq) % 2 ^ 32) 4 ++ (body ++ List.replicate 24 0).take 24
  let s := s.modLid fun l => { l with mailSeq := (seq + 1) % 2 ^ 32 }
  s.modJosil fun j =>
    { j with queue := replaceOrAppend (fun m => kind == 5 && m.mtype == 0x10 && leNat (m.data.take 2) == 5)
                        ⟨2, msgHdr 32, 0x10, d⟩ j.queue }

/-! ### Management messages -/

/-- The clk after an INSTALL_KEY: the key applies, and the numbering of messages starts anew (R493, R523). -/
def State.takeKey (s : State) : State :=
  match s.lid.newKey with
  | none => s
  | some k =>
    let s := ((s.setFld MGT_STATUS_KEY_ID (s.fld MGT_STATUS_KEY_ID + 1)).setReg MGT_TX_SEQ 0).setReg MGT_RX_HIGH 0
    s.modLid fun l => { l with key := some k, newKey := none, rxSeen := [] }

/-- The management ports that messages go out on: those that are up (R520, R523). -/
def State.upPorts (s : State) : List Nat :=
  (if s.flag MGT_STATUS_P0_UP then [0] else []) ++ (if s.flag MGT_STATUS_P1_UP then [1] else [])

/-- The datagrams of a message (R521, R522), with the session key. -/
def MgmtOut.datagrams (m : MgmtOut) (key : Option Nat) : List (List Byte) :=
  let n := Nat.max 1 (ceilDiv m.payload.length 1380)
  (List.range n).map fun i =>
    let p := (m.payload.drop (1380 * i)).take 1380
    let h := leBytes 0x484D 2 ++ [1, BitVec.ofNat 8 m.type] ++ leBytes p.length 2 ++
      [BitVec.ofNat 8 i, BitVec.ofNat 8 n] ++ leBytes m.seq 8 ++ leBytes m.time 8 ++ leBytes m.src 2 ++
      leBytes m.keyId 2 ++ [0, 0, 0, 0] ++ p
    let tag := match key with
      | none => List.replicate 32 0
      | some k => kmac256 (bytes32 k) h ("Izzia mgmt".toUTF8.toList.map fun u => BitVec.ofNat 8 u.toNat)
    h ++ tag

/-- The device's address on a management port, and the fabric manager's (R519). -/
def State.mgtAddr (s : State) (p : Nat) : Nat := s.fld (MGT_IP_HI_ADDR p) * 2 ^ 64 + s.fld (MGT_IP_LO_ADDR p)
def State.fmAddr (s : State) (p : Nat) : Nat := s.fld (MGT_FM_IP_HI_ADDR p) * 2 ^ 64 + s.fld (MGT_FM_IP_LO_ADDR p)

/-- Send a message to the fabric manager (R521 to R523): nothing is sent before step 1 of upsett ends (R508); dropped and counted while both
ports are down; before a key is installed only ALIVE and ANNOUNCE go out, under KEY_ID 0. -/
def State.sendFm (s : State) (type : Nat) (payload : List Byte) : State :=
  if !s.driven || (s.lid.key.isNone && type != 0x40 && type != 0x45) then s
  else if s.upPorts.isEmpty then s.count MGT_COUNT_TX_LOST 1
  else
    let seq := if s.lid.key.isSome then s.fld ⟨MGT_TX_SEQ, 63, 0⟩ + 1 else s.fld ⟨MGT_TX_SEQ, 63, 0⟩
    let m : MgmtOut := ⟨type, seq, s.fld MGT_STATUS_KEY_ID, s.now, s.upPorts, payload, s.fld RPT_GLOBAL_SELF, s.fld MGT_CTRL_UDP_PORT,
      s.upPorts.map fun p => (s.mgtAddr p, s.fmAddr p), []⟩
    let m := { m with wire := m.datagrams s.lid.key }
    (s.setReg MGT_TX_SEQ (BitVec.ofNat 64 seq)).modLid fun l => { l with out := l.out ++ [m] }

/-! ### The journal (R495 to R497) -/

/-- The code of an authority class (R492). -/
def authCode : Auth → Nat
  | .firmware => 0
  | .operator => 1
  | .driver => 2
  | .tenant => 3
  | .debug => 4
  | .device => 5

/-- The code of a path (R495). -/
def pathCode : Path → Nat
  | .internal => 0
  | .josil => 1
  | .mgmt0 => 2
  | .mgmt1 => 3
  | .trigger => 4
  | .debugPort => 5

/-- KIND of a journal record. -/
def jWrite : Nat := 0
def jRefused : Nat := 1
def jCommand : Nat := 2
def jEvent : Nat := 3

/-- Bytes 0 to 47 of a record. -/
def JRec.body (r : JRec) : List Byte :=
  leBytes r.seq 8 ++ leBytes r.time 8 ++
    [BitVec.ofNat 8 (authCode r.cls), BitVec.ofNat 8 (pathCode r.path), BitVec.ofNat 8 r.kind, 0] ++
    leBytes r.offset 4 ++ leBytes r.old.toNat 8 ++ leBytes r.new.toNat 8 ++ leBytes r.loc 8

/-- The next journal head. -/
def nextHead (head : Nat) (body : List Byte) : Nat := leNat (shake256 (bytes32 head ++ body) 32)

/-- SEQ of the next record. -/
def State.journalSeq (s : State) : Nat := (s.reg LID_JOURNAL).toNat

/-- Append one record: the head advances, the record enters the ring (or the buffer of 1,024 before HBM has trained), and it
is mirrored to the companion. -/
def State.journal (s : State) (a : Auth) (p : Path) (kind off : Nat) (old new : Word) : State :=
  let seq := s.journalSeq
  let r0 : JRec := ⟨seq, s.now, a, p, kind, off, old, new, s.local, 0⟩
  let head := nextHead s.lid.head r0.body
  let r := { r0 with chain := head % 2 ^ 128 }
  let full := !s.hbmTrained && decide (1024 ≤ s.lid.journal.length)
  let s := s.modLid fun l =>
    { l with
      head := head
      journal := if full then l.journal else (r :: l.journal).take (2 ^ 20)
      gap := if full then l.gap + 1 else l.gap }
  let s := s.setReg LID_JOURNAL (BitVec.ofNat 64 (seq + 1))
  let n := s.fld LID_JMIRROR_SIZE_LOG2
  if n = 0 then s
  else
    let addr := s.fld LID_JMIRROR_BASE * 64 + 64 * (seq % 2 ^ n)
    let s := s.lidWrite addr (r.body ++ leBytes r.chain 16)
    s.sendMail 5 (leBytes seq 8)

/-- A code that the device can report (R6): 0, or one whose high byte is that of a subject; which of them a number that the rules leave open
stands for. -/
def realCode (n : Nat) : Nat :=
  let c := n % 65536
  if 1 ≤ c / 256 && c / 256 ≤ 10 then c else 0

/-- An EVENT record of the device's own. -/
def State.journalEvent (s : State) (code : Nat) (new : Word) : State :=
  s.journal .device .internal jEvent code 0 new

/-- The LAST_CODE field that a code of each subject is shown in, where the chapter of the code has one. -/
def State.lastCode (s : State) (f : Fld) (code : Nat) : State := s.setFld f code

/-! ### Upsets and injections (R535 to R537) -/

/-- What a check found: the location, and whether it was injected. -/
structure Hit where
  col : Nat
  row : Nat
  injected : Bool
  deriving DecidableEq, Repr

/-- What two checks of one clk find, handled as one mismatch: a real one before an injected one (R537), else the first. -/
def Hit.join : Option Hit → Option Hit → Option Hit
  | some x, some y => some (if x.injected && !y.injected then y else x)
  | some x, none => some x
  | none, y => y

/-- The SITE code of PTB_INJ; 256 is no value of the field. -/
def Site.code : Site → Nat
  | .planeBus => 1
  | .cell => 2
  | .ktree => 3
  | .update => 4
  | .stakeBank => 5
  | .accRead => 6
  | .opsRead => 7
  | .aluResidue => 8
  | .regParity => 9
  | .vregParity => 10
  | .hbmRead => 11
  | .rimCrc => 12
  | .fpuResidue | .tableParity | .accPlain | .scratchRead | .cacheLine | .instrCache | .moveData | .hbmWrite => 256

/-- Does the site use the column (R535)? -/
def Site.usesCol : Site → Bool
  | .cell | .ktree | .update | .stakeBank => true
  | _ => false

/-- Does the site use the column row? -/
def Site.usesRow : Site → Bool
  | .planeBus | .cell | .stakeBank => true
  | _ => false

/-- The device as the perturbations see it: the PTB registers written in this clk still hold their old values (R531). -/
def State.ptb (s : State) : State :=
  { s with regs := s.ptbOld.foldl (fun m e => SMap.set regReset m e.1 e.2) s.regs }

/-- A PTB register is about to be written: its value is in force for the rest of the clk. -/
def State.keepPtb (s : State) (off : Nat) : State :=
  if s.ptbOld.any (·.1 == off) then s else { s with ptbOld := s.ptbOld ++ [(off, s.reg off)] }

/-- Set a field of a PTB register as it is in force: a register written in this clk keeps what was written (DESIGN CHOICE,
log entry 83). -/
def State.setPtb (s : State) (f : Fld) (v : Nat) : State :=
  if s.ptbOld.any (·.1 == f.off) then
    { s with ptbOld := s.ptbOld.map fun e =>
        if e.1 = f.off then (e.1, BitVec.ofNat 64 (withBits e.2.toNat f.hi f.lo v)) else e }
  else s.setFld f v

/-- The active PTB_CRED entry of an interface: 0 and a link, 1 for the Josil link, or 2 and a stack (DESIGN CHOICE, log entry 83). -/
def State.credEntry (s : State) (iface index : Nat) : Option Nat :=
  if s.ptb.flag PTB_CTRL_EN then
    (List.range 8).find? fun i => s.ptb.flag (PTB_CRED_ACT i) && s.ptb.fld (PTB_CRED_IFACE i) == iface &&
      (iface == 1 || s.ptb.fld (PTB_CRED_INDEX i) == index)
  else none

/-- The credits of a count that are usable at once: at most CAP. -/
def State.usableCredits (s : State) (iface index n : Nat) : Nat :=
  match s.credEntry iface index with
  | some i => if s.ptb.fld (PTB_CRED_CAP i) = 0 then n else Nat.min n (s.ptb.fld (PTB_CRED_CAP i))
  | none => n

/-- `n` credits of a class are returned while `have_` are held: how many take effect now, after what an entry delays or withholds
has been counted. -/
def State.gainCredits (s : State) (iface index cls have_ n : Nat) : Nat × State :=
  match s.credEntry iface index with
  | none => (n, s)
  | some i =>
    if s.ptb.fld (PTB_CRED_DELAY_NS i) ≠ 0 then
      let key := if iface = 1 then 64 else if iface = 2 then 128 + index else index
      (0, ({ s with credits := s.credits ++ [(s.now + s.ptb.fld (PTB_CRED_DELAY_NS i), key, cls, n)] } : State).count
        PTB_COUNT1_CRED_DELAYED n)
    else
      let cap := s.ptb.fld (PTB_CRED_CAP i)
      (n, if cap = 0 then s else s.count PTB_COUNT1_CRED_DELAYED (n - (cap - have_)))

/-- Sum of counts. -/
def sumNat (l : List Nat) : Nat := l.foldl (· + ·) 0

/-- Does a stack admit a unit now? CAP is the most that have been admitted and whose credit has not come back; a stack's own number of credits
is not stated (R533) (DESIGN CHOICE, log entry 83). -/
def State.stackAdmits (s : State) (k : Nat) : Bool :=
  match s.credEntry 2 k with
  | some i =>
    let out := sumNat ((s.credits.filter fun e => e.2.1 == 128 + k).map fun e => e.2.2.2)
    s.ptb.fld (PTB_CRED_CAP i) == 0 || decide (out < s.ptb.fld (PTB_CRED_CAP i))
  | none => true

/-- A stack returns the credit of a unit that it has admitted: an entry delays it (R533). -/
def State.stackCredit (s : State) (k : Nat) : State := (s.gainCredits 2 k 0 0 1).2

/-- Is PTB_INJ active for the site and unit? -/
def State.injActive (s : State) (site : Site) (unit : Nat) : Bool :=
  s.ptb.flag PTB_CTRL_EN && s.ptb.fld PTB_INJ_SITE == site.code && s.ptb.fld PTB_INJ_COUNT != 0 && s.ptb.fld PTB_INJ_UNIT == unit

/-- An injection takes place: COUNT falls, INJECTED rises and an EVENT record is written (R530, R535) (DESIGN CHOICE, log entry 9). -/
def State.inject (s : State) : State :=
  let v := s.ptb.reg PTB_INJ
  let s := s.setPtb PTB_INJ_COUNT (s.ptb.fld PTB_INJ_COUNT - 1)
  let s := s.count PTB_COUNT_INJECTED 1
  let s := s.lastCode PTB_CTRL_LAST_CODE 0x0990
  s.journalEvent 0x0990 v

/-- One check event, of slot part `part` where the site is a stake bank. `offers col row` says which positions take part, `anyCol row` is the position that an injection without
a column acts on, and `atLimit` says that one more failure would reach the replay limit, where injection is skipped (DESIGN CHOICE, log entry 9). -/
def State.check (s : State) (site : Site) (unit : Nat) (offers : Nat → Nat → Bool) (anyCol : Nat → Nat) (atLimit : Bool)
    (part : Nat := 0) : Option Hit × State :=
  let r := takeFirst (fun u : Upset => u.site == site && u.unit == unit && u.part == part &&
    (offers (if site.usesCol && u.col == 255 then anyCol u.row else u.col) u.row || (!site.usesCol && !site.usesRow))) s.upsets
  let iRow := if site.usesRow then s.ptb.fld PTB_INJ_ROW else 0
  let iCol := if site.usesCol then (if s.ptb.fld PTB_INJ_COLUMN = 255 then anyCol iRow else s.ptb.fld PTB_INJ_COLUMN) else 0
  let inj := s.injActive site unit && !atLimit && (offers iCol iRow || (!site.usesCol && !site.usesRow))
  let s' := if inj then s.inject else s
  match r.1 with
  | some u => (some ⟨if u.col = 255 then anyCol u.row else u.col, u.row, false⟩, { s' with upsets := r.2 })
  | none => (if inj then some ⟨iCol, iRow, true⟩ else none, s')

/-- A check at a site without a location. -/
def State.checkUnit (s : State) (site : Site) (unit : Nat) (atLimit : Bool) : Option Hit × State :=
  s.check site unit (fun _ _ => true) (fun _ => 0) atLimit

/-! ### HBM bytes (R228, R244, R251, R253) -/

/-- End of usable HBM. -/
def usableEnd : Nat := 0x7735940000

/-- The stack of a DPA and the offset in it (R229). -/
def State.locate (s : State) (dpa : Nat) : Nat × Nat :=
  let o := dpa / 2 ^ 33
  let x := dpa % 2 ^ 33
  if 59 ≤ o || !bitOf (s.fld HBM_ILV_LOCAL) o then
    let u := x / 256
    ((u ^^^ (u / 8) ^^^ (u / 64)) % 8, o * 2 ^ 30 + u / 8 * 256 + dpa % 256)
  else
    let u := x % 2 ^ 31 / 256
    (2 * (x / 2 ^ 31) + (u ^^^ (u / 2) ^^^ (u / 4)) % 2, o * 2 ^ 30 + u / 2 * 256 + dpa % 256)

/-- The frame of a DPA: stack and 8 KiB frame number in the stack (R247). -/
def State.frameOf (s : State) (a : Nat) : Nat × Nat := ((s.locate a).1, (s.locate a).2 / 8192)

/-- Is a byte's frame under test? Accesses to it wait. -/
def State.frameBusy (s : State) (a : Nat) : Bool :=
  let f := s.frameOf a
  s.frameTests.any fun t => t.stack == f.1 && t.frame == f.2

/-- A byte of HBM; a byte that nothing has written reads 0 (log entry 5), and one that a save has written is of the device's own layout
(R302, log entry 32). -/
def State.hbmByte (s : State) (a : Nat) : Byte :=
  match s.saveAreas.find? fun r => r.has a with
  | some r => Config.saveByte r.id (a - r.base)
  | none => SMap.get (fun _ => 0) s.hbm a

/-- `n` bytes of HBM from `a`. -/
def State.hbmBytes (s : State) (a n : Nat) : List Byte := (List.range n).map fun i => s.hbmByte (a + i)

/-- Is the 256-byte unit of `a` poisoned? (DESIGN CHOICE, log entry 5). -/
def State.hbmPoisoned (s : State) (a : Nat) : Bool := SMap.get (fun _ => false) s.hbmPoison (a / 256)

/-- Is any unit of `n` bytes from `a` poisoned? -/
def State.hbmPoisonedRange (s : State) (a n : Nat) : Bool :=
  (List.range (ceilDiv (a % 256 + n) 256)).any fun i => s.hbmPoisoned (a + 256 * i)

/-- Poison or clean the unit of `a`. -/
def State.setPoison (s : State) (a : Nat) (p : Bool) : State :=
  { s with hbmPoison := SMap.set (fun _ => false) s.hbmPoison (a / 256) p }

/-- Write a list of bytes into a byte table from a key on. -/
def putBytes (m : SMap Byte) (a : Nat) : List Byte → SMap Byte
  | [] => m
  | x :: xs => putBytes (SMap.set (fun _ => 0) m a x) (a + 1) xs

/-- The whole 256-byte units inside `n` bytes from `a`. -/
def wholeUnits (a n : Nat) : List Nat :=
  let u0 := ceilDiv a 256
  (List.range ((a + n) / 256 - u0)).map (u0 + ·)

/-- What is left of the saves' ranges when the bytes from `lo` up to `hi` are written. -/
def cutAreas (l : List SaveArea) (lo hi : Nat) : List SaveArea :=
  l.flatMap fun r => [{ r with hi := Nat.min r.hi lo }, { r with lo := Nat.max r.lo hi }].filter fun x => decide (x.lo < x.hi)

/-- Set the dirty bits of a write, in the active bank (R244). -/
def State.markDirty (s : State) (a n : Nat) : State :=
  if n = 0 then s else
  let p0 := a / 2 ^ 21
  s.forEach ((List.range ((a + n - 1) / 2 ^ 21 - p0 + 1)).map (p0 + ·)) fun s p =>
    if p * 2 ^ 21 < usableEnd then s.setMaskBit (HBM_DIRTY (s.fld HBM_DIRTY_CTRL_ACTIVE) (p / 64)) (p % 64) true else s

/-- Commit a write of bytes: whole units lose their poison (R253); `dirty` says whether the write is one that R244 records. -/
def State.commitHbm (s : State) (a : Nat) (l : List Byte) (dirty : Bool) : State :=
  let s := { s with hbm := putBytes s.hbm a l
                    hbmPoison := (wholeUnits a l.length).foldl (fun m u => SMap.set (fun _ => false) m u false) s.hbmPoison
                    saveAreas := cutAreas s.saveAreas a (a + l.length) }
  if dirty then s.markDirty a l.length else s

/-- The 256-byte units that `n` bytes from `a` touch. -/
def unitsOf (a n : Nat) : List Nat := if n = 0 then [] else (List.range ((a + n - 1) / 256 - a / 256 + 1)).map (a / 256 + ·)

/-- A unit of HBM is lost: poisoned and counted. -/
def State.loseUnit (s : State) (dpa : Nat) : State :=
  (s.setPoison dpa true).count (HBM_COUNT_LOST (s.frameOf dpa).1) 1

/-- The units of a write whose data fail the check at the interface of their stack (R246). -/
def State.writeLosses (s : State) (a n : Nat) : List Nat × State :=
  if !s.upsets.any (fun u => u.site == .hbmWrite) then ([], s)
  else (unitsOf a n).foldl (fun r u => match r.2.checkUnit .hbmWrite (s.frameOf (u * 256)).1 false with
    | (some _, s) => (r.1 ++ [u], s)
    | (none, s) => (r.1, s)) ([], s)

/-- Unit `u` of a write is lost: the writer raises HBM_WRITE_LOST (R246). -/
def State.loseWrite (s : State) (u : Nat) : State :=
  (s.loseUnit (u * 256)).lastCode (HBM_STATUS_LAST_CODE (s.frameOf (u * 256)).1) HBM_WRITE_LOST

/-- Poison the units of some offsets from `a`. -/
def State.poisonAt (s : State) (a : Nat) (off : List Nat) : State := s.forEach off fun s i => s.setPoison (a + i) true

/-- Commit a write with the offsets that carry poison, but for the units whose data fail at the interface: they are not written, and are lost
(R246). Answers whether all of it was written. -/
def State.commitChecked (s : State) (a : Nat) (l : List Byte) (off : List Nat) (dirty : Bool) : Bool × State :=
  let r := s.writeLosses a l.length
  if r.1.isEmpty then (true, (r.2.commitHbm a l dirty).poisonAt a off)
  else
    (false, r.2.forEach (unitsOf a l.length) fun s u =>
      if r.1.contains u then s.loseWrite u
      else
        let lo := Nat.max a (u * 256)
        let hi := Nat.min (a + l.length) (u * 256 + 256)
        (s.commitHbm lo ((l.drop (lo - a)).take (hi - lo)) dirty).poisonAt a (off.filter fun i => decide (lo ≤ a + i) && decide (a + i < hi)))

/-- The image page that a DPA lies in, counted through the extents from page `n` on (R387). -/
def imagePageOf (a : Nat) : List (Nat × Nat) → Nat → Option Nat
  | [], _ => none
  | (k, base) :: es, n =>
    if base ≤ a && decide (a < base + k * 2 ^ 21) then some (n + (a - base) / 2 ^ 21) else imagePageOf a es (n + k)

/-- The DPA of image page `n`. -/
def imagePageDpa : List (Nat × Nat) → Nat → Option Nat
  | [], _ => none
  | (k, base) :: es, n => if n < k then some (base + n * 2 ^ 21) else imagePageDpa es (n - k)

/-- Does an entry hold writes to image page `n`: a page of its snapshot that the mirror holder has not acknowledged, in a window or in
an aborted checkpoint (R392)? -/
def State.pageHeld (s : State) (e n : Nat) (c : Coil) : Bool :=
  (s.fld (COL_STATUS_STATE e) == 3 || s.fld (COL_STATUS_STATE e) == 4) &&
    SMap.get (fun _ => false) c.snap n && !SMap.get (fun _ => false) c.acked n

/-- Is a byte in a page of a checkpoint's snapshot that is held (R392)? -/
def State.snapshotHeld (s : State) (a : Nat) : Bool :=
  s.coils.any fun (e, c) =>
    match imagePageOf a c.extents 0 with
    | some n => s.pageHeld e n c
    | none => false

/-- A write at `a` is held: the pages that hold it are sent before all others (R392). -/
def State.noteHeld (s : State) (a : Nat) : State :=
  { s with coils := s.coils.map fun (e, c) =>
      match imagePageOf a c.extents 0 with
      | some n => (e, if s.pageHeld e n c && !c.asked.contains n then { c with asked := c.asked ++ [n] } else c)
      | none => (e, c) }

/-- The state where an access has to wait: what it asked of the companion and the pages whose hold it met stay, nothing else does. -/
def State.onlyAsked (s t : State) : State := { s with josil := t.josil, coils := t.coils }

/-- Must a write of `n` bytes from `a` wait: for a frame under test (R247), or for a page of a snapshot (R392)? -/
def State.writeHeld (s : State) (a n : Nat) : Bool :=
  s.snapshotHeld a || s.snapshotHeld (a + n - 1) ||
    (!s.frameTests.isEmpty && (List.range (ceilDiv (a % 256 + n) 256)).any fun i => s.frameBusy (a + 256 * i))

/-- A write to HBM by any writer that R244 records, with the offsets that carry poison and the response that it gives: it waits where it is
held, else it is committed. A companion write that is lost in part is answered LOST (DEDUCED, log entry 98). -/
def State.writeHbmFull (s : State) (a : Nat) (l : List Byte) (off : List Nat) (h : Option JHdr) : State :=
  if s.writeHeld a l.length then
    (({ s with heldWrites := s.heldWrites ++ [(a, l, off, h)] } : State).noteHeld a).noteHeld (a + l.length - 1)
  else
    let x := s.commitChecked a l off true
    match h with
    | some r => x.2.sendJosil ⟨1, if x.1 then r else { r with status := 3 }, 0, []⟩
    | none => x.2

/-- A write of bytes without poison. -/
def State.writeHbm (s : State) (a : Nat) (l : List Byte) : State := s.writeHbmFull a l [] none

/-- Let the waiting writes go that are no longer held, in order; a companion write is answered then (R392, R455). -/
def State.flushWrites (s : State) : State :=
  s.heldWrites.foldl (fun s (a, d, off, h) => s.writeHbmFull a d off h) { s with heldWrites := [] }

/-- The entries of a table whose keys lie outside a range. -/
def dropRange {α : Type} (m : SMap α) (lo hi : Nat) : SMap α :=
  m.filter fun e => decide (e.1 < lo) || decide (hi ≤ e.1)

/-- The image pages that hold writes to bytes of a range, each with its entry: its snapshot's pages that are not acknowledged (R392). -/
def State.heldIn (s : State) (a n : Nat) : List (Nat × Nat) :=
  s.coils.flatMap fun (e, c) => (c.snap.filter fun p => s.pageHeld e p.1 c && match imagePageDpa c.extents p.1 with
    | some d => decide (a < d + 2 ^ 21) && decide (d < a + n)
    | none => false).map fun p => (e, p.1)

/-- A write of a range waits for the pages that hold it: they are sent before all others (R392). -/
def State.askHeld (s : State) (l : List (Nat × Nat)) : State :=
  s.forEach l fun s p => s.modCoil p.1 fun c => if c.asked.contains p.2 then c else { c with asked := c.asked ++ [p.2] }

/-- The scrub engine's zeros (R254): every byte 0, poison cleared, no dirty bit. -/
def State.scrubHbm (s : State) (a n : Nat) : State :=
  { s with hbm := dropRange s.hbm a (a + n), hbmPoison := dropRange s.hbmPoison (a / 256) ((a + n) / 256)
           saveAreas := cutAreas s.saveAreas a (a + n) }

/-- A save writes `n` bytes in the device's own layout, which R302 leaves to it (log entry 32). -/
def State.writeSave (s : State) (a n : Nat) : State :=
  let s := s.scrubHbm a n
  ({ s with saveAreas := ⟨a, a + n, a, s.saveDraws⟩ :: s.saveAreas, saveDraws := s.saveDraws + 1 } : State).markDirty a n

/-! ### Notifications (R310, R311) -/

/-- A notification record: tag, code, source, bytes 16 to 23 and bytes 24 to 31. -/
structure Note where
  tag : Option Nat
  code : Nat
  src : Nat
  lo : Nat
  hi : Nat
  deriving DecidableEq, Repr

/-- The 32 bytes of a record. -/
def Note.bytes (n : Note) (time : Nat) : List Byte :=
  leBytes time 8 ++ leBytes (match n.tag with | some t => t | none => 2 ^ 31) 4 ++
    leBytes n.code 2 ++ leBytes n.src 2 ++ leBytes n.lo 8 ++ leBytes n.hi 8

/-- The DPA of the next record of ring `i`. -/
def State.ringSlot (s : State) (i : Nat) : Nat :=
  s.fld (SCH_NRING_BASE_BASE i) * 65536 + 32 * (s.fld (SCH_NRING_IDX_WR i) % 2 ^ s.fld (SCH_NRING_BASE_SIZE_LOG2 i))

/-- Write a record to ring `i`, or drop and count it (R311), and tell the companion (R465) (DESIGN CHOICE, log entry 46): `none` where the
write of the record must wait. -/
def State.ringWrite (s : State) (i : Nat) (rec : List Byte) : Option State :=
  let n := s.fld (SCH_NRING_BASE_SIZE_LOG2 i)
  let wr := s.fld (SCH_NRING_IDX_WR i)
  let rd := s.fld (SCH_NRING_IDX_RD i)
  if n = 0 || (wr + 2 ^ 32 - rd) % 2 ^ 32 = 2 ^ n then some (s.count (SCH_NRING_BASE_DROPPED i) 1)
  else
    let a := s.ringSlot i
    if s.writeHeld a rec.length then none
    else
      let s := s.writeHbm a rec
      let s := s.setFld (SCH_NRING_IDX_WR i) (wr + 1)
      some (s.sendNotify i ((wr + 1) % 2 ^ 32) (leNat (rec.take 8)))

/-- Post a record to ring `i`: one that must wait, or comes behind one that waits, is posted when it can be (R247, R392). -/
def State.postRing (s : State) (i : Nat) (rec : List Byte) : State :=
  let later : State := ({ s with ringWaits := s.ringWaits ++ [(i, rec)] } : State).noteHeld (s.ringSlot i)
  if s.ringWaits.any fun x => x.1 == i then later else (s.ringWrite i rec).getD later

/-- Let the held writes and the posts that wait go, in order, where nothing holds them any more. -/
def State.flushHeld (s : State) : State :=
  let s := s.flushWrites
  s.ringWaits.foldl (fun s (i, rec) => s.postRing i rec) { s with ringWaits := [] }

/-- Post a record: to the ring of its context's partition, or to the chip ring. -/
def State.post (s : State) (n : Note) : State :=
  let i := match n.tag with
    | some t => (s.ctxOf (t / 256)).part
    | none => 16
  s.postRing i (n.bytes s.now)

/-- Post a record of the reset and health chapter (R436) to the chip ring: source 0x0A, and RST_STATUS.LAST_CODE. -/
def State.postRst (s : State) (code unit lo hi : Nat) : State :=
  (s.lastCode RST_STATUS_LAST_CODE code).post ⟨none, code, 0x0A00 + unit, lo, hi⟩

/-! ### Health evidence (R430, R537) -/

/-- The classes of HLT_COUNT. -/
inductive HealthClass
  | transient | repaired | lasting | condition
  deriving DecidableEq, Repr

/-- The counter of a class. -/
def HealthClass.fld : HealthClass → Fld
  | .transient => HLT_COUNT_TRANSIENT
  | .repaired => HLT_COUNT_REPAIRED
  | .lasting => HLT_COUNT_LASTING
  | .condition => HLT_COUNT_CONDITION

/-- A health event: posted on the chip ring, sent to the fabric manager and counted in one class. -/
def State.health (s : State) (cls : HealthClass) (n : Note) : State :=
  let s := s.post n
  let s := s.sendFm 0x42 (n.bytes s.now)
  s.count cls.fld 1

/-- A block leaves service (R431): BLOCK_OUT is posted once, with the block and the code of the cause. -/
def State.blockLeaves (s : State) (b cause : Nat) : State :=
  if s.blockOut b then s
  else
    let s := s.setMaskBit (HLT_BLOCK_OUT (b / 64)) (b % 64) true
    let s := s.setFld HLT_STATUS_BLOCKS_OUT (s.fld HLT_STATUS_BLOCKS_OUT + 1)
    let s := s.lastCode RST_STATUS_LAST_CODE BLOCK_OUT
    s.health .lasting ⟨none, BLOCK_OUT, 0x0AFF, b + cause * 2 ^ 32, 0⟩

/-- Set or clear condition bit `i` of HLT_STATUS (R432): posted once at each change; counted when it sets (DEDUCED, log entry 63). -/
def State.condition (s : State) (i code : Nat) (on : Bool) : State :=
  let cur := bitOf (s.reg HLT_STATUS).toNat i
  if cur = on then s
  else
    let s := s.setMaskBit HLT_STATUS i on
    let s := s.setFlag HLT_STATUS_ANY ((List.range 9).any fun j => bitOf (s.reg HLT_STATUS).toNat (j + 1))
    let s := s.lastCode RST_STATUS_LAST_CODE code
    let n : Note := ⟨none, code, 0x0AFF, b2n on * 2 ^ 32, 0⟩
    let s := s.post n
    let s := s.sendFm 0x42 (n.bytes s.now)
    if on then s.count HLT_COUNT_CONDITION 1 else s

/-! ### Quarantine -/

/-- Is a DPA in a quarantine range (R417)? -/
def State.quarantined (s : State) (a : Nat) : Bool :=
  s.ctxs.any fun (_, x) => x.quar.any fun e => decide (e.base ≤ a) && decide (a < e.base + e.len)

/-- Is a DPA in a range that is being scrubbed (R254, R230)? -/
def State.scrubbing (s : State) (a : Nat) : Bool :=
  s.scrubs.any fun (b, n, _) => decide (b ≤ a) && decide (a < b + n)

/-- The drain timeout of a bump (R415). -/
def State.tDrain (s : State) : Nat :=
  Nat.max (s.fld RST_CTRL_DRAIN_NS) (2 * s.fld RIM_GLOBAL_RTT_MAX_US * 1000 + 1000000)

end Sys2Proof.Machine
end

