-- ==== Sys2Proof/Machine/Memory.lean ====
section
/-!
DEFINITION. Context virtual memory: the walk and its faults (R227 to R237), reads and writes of context virtual ranges in HBM
and through the Josil cache (R459), and the read check of HBM (R246, R247).
-/

namespace Sys2Proof.Machine

/-- What a memory access answers: a value, a fault's code, or that it must wait and be made again. -/
inductive Res (α : Type)
  | ok (a : α)
  | fault (code : Nat)
  | wait
  deriving Repr

/-! ### The walk -/

/-- Lowest address bit that a level indexes (R232): a leaf of the level maps 2^shift bytes. -/
def levelShift : Nat → Nat
  | 0 => 16
  | 1 => 21
  | 2 => 30
  | _ => 39

/-- Entries of a table of the level. -/
def levelEntries (l : Nat) : Nat := if l = 0 then 32 else 512

/-- Bytes of a table of the level. -/
def tableBytes (l : Nat) : Nat := 8 * levelEntries l

/-- The format checks of one entry (R233, check 2) at level `l`. -/
def pteFormatBad (l e : Nat) : Bool :=
  let leaf := bitOf e 1
  let addr := bits e 55 8 * 256
  bits e 63 56 != 0 || bits e 7 6 != 0 || (l == 3 && leaf) || (l == 0 && !leaf) ||
    (if leaf then
      addr % 2 ^ levelShift l != 0 || decide (2 ≤ bits e 5 4) ||
        (bits e 5 4 == 0 && decide (2 ^ 39 < addr + 2 ^ levelShift l))
    else addr % tableBytes (l - 1) != 0 || decide (usableEnd < addr + tableBytes (l - 1)))

/-- What one entry of a table gives: a translation, or the next table. -/
inductive Pte
  | leaf (x : Xl)
  | table (base : Nat)
  deriving DecidableEq, Repr

/-- The DPA of the entry that an address selects in a table of level `l`. -/
def pteAddr (va l table : Nat) : Nat := table + 8 * (va / 2 ^ levelShift l % levelEntries l)

/-- Read and check the entry that an address selects in a table of level `l` (R233): what it gives, or the code of the first check
that fails. -/
def State.readPte (s : State) (tag va l table : Nat) : Except Nat Pte :=
  let ea := pteAddr va l table
  if s.hbmPoisonedRange ea 8 then .error POISONED
  else
    let e := leNat (s.hbmBytes ea 8)
    if e % 2 = 0 then .error XLATE_INVALID
    else if pteFormatBad l e then .error XLATE_FORMAT
    else if bitOf e 1 then
      .ok (.leaf ⟨tag, va / 2 ^ levelShift l * 2 ^ levelShift l, 2 ^ levelShift l, bits e 5 4, bits e 55 8 * 256,
        bitOf e 2, bitOf e 3⟩)
    else .ok (.table (bits e 55 8 * 256))

/-- Walk from a table of level `l` down (R233): the translation, or the code of the first check that fails. -/
def State.walkFrom (s : State) (tag va : Nat) : Nat → Nat → Except Nat Xl
  | 0, table =>
    match s.readPte tag va 0 table with
    | .error e => .error e
    | .ok (.leaf x) => .ok x
    | .ok (.table _) => .error XLATE_FORMAT
  | l + 1, table =>
    match s.readPte tag va (l + 1) table with
    | .error e => .error e
    | .ok (.leaf x) => .ok x
    | .ok (.table base) => s.walkFrom tag va l base

/-- The cached translation of an address, if one is held (R234). -/
def State.tlbHit (s : State) (tag va : Nat) : Option Xl :=
  s.tlb.find? fun x => x.tag == tag && decide (x.vbase ≤ va) && decide (va < x.vbase + x.len)

/-- The translation of an address for context `c`: cached, or walked (DEDUCED, log entry 31). -/
def State.lookup (s : State) (c va : Nat) : Except Nat Xl :=
  if 2 ^ 48 ≤ va then .error VADDR_RANGE
  else match s.tlbHit (s.tagOf c) va with
    | some x => .ok x
    | none => s.walkFrom (s.tagOf c) va 3 (s.ctxOf c).ptRoot

/-- Does a walk from a table of level `l` down come to an entry whose frame is under test? -/
def State.walkBusyFrom (s : State) (tag va : Nat) : Nat → Nat → Bool
  | 0, table => s.frameBusy (pteAddr va 0 table)
  | l + 1, table =>
    s.frameBusy (pteAddr va (l + 1) table) ||
      match s.readPte tag va (l + 1) table with
      | .ok (.table base) => s.walkBusyFrom tag va l base
      | _ => false

/-- Must the walk for an address wait for a frame test (R247)? -/
def State.walkWaits (s : State) (c va : Nat) : Bool :=
  !s.frameTests.isEmpty && decide (va < 2 ^ 48) && (s.tlbHit (s.tagOf c) va).isNone &&
    s.walkBusyFrom (s.tagOf c) va 3 (s.ctxOf c).ptRoot

/-! ### The HBM read check -/

/-- Start the test of a frame, unless it is under test (R247). -/
def State.startFrameTest (s : State) (stack frame : Nat) (injected : Bool) : State :=
  if s.frameTests.any fun t => t.stack == stack && t.frame == frame then s
  else ({ s with frameTests := s.frameTests ++ [⟨stack, frame, injected, false⟩] } : State).setFlag (HBM_STATUS_SELFTEST stack) true

/-- The DPA of the unit at a stack-local offset: `locate` the other way round. -/
def State.unitDpa (s : State) (k off : Nat) : Nat :=
  let o := off / 2 ^ 30
  let v := off % 2 ^ 30 / 256
  if 59 ≤ o || !bitOf (s.fld HBM_ILV_LOCAL) o then
    o * 2 ^ 33 + (8 * v + ((k ^^^ v ^^^ (v / 8)) % 8)) * 256
  else
    o * 2 ^ 33 + k / 2 * 2 ^ 31 + (2 * v + ((k ^^^ v ^^^ (v / 2)) % 2)) * 256

/-- The units of a frame. -/
def State.frameUnits (s : State) (k fr : Nat) : List Nat := (List.range 32).map fun i => s.unitDpa k (fr * 8192 + 256 * i)

/-- Does a range hold bytes of a frame under test (R247)? -/
def State.testIn (s : State) (a n : Nat) : Bool :=
  s.frameTests.any fun t => (s.frameUnits t.stack t.frame).any fun u => decide (a < u + 256) && decide (u < a + n)

/-- Must a save of `n` bytes from `a` wait: for a frame under test, or for a page of a snapshot (R247, R392)? -/
def State.saveHeld (s : State) (a n : Nat) : Bool := !(s.heldIn a n).isEmpty || s.testIn a n

/-- The first read of an access to HBM (R246, R535): where a check fails, the re-read succeeds, REREADS rises and the frame
is tested. Poisoned units are not checked (R252). -/
def State.checkHbmRead (s : State) (a n : Nat) : State :=
  s.forEach (unitsOf a n) fun s u =>
    if s.hbmPoisoned (u * 256) then s
    else
      let f := s.frameOf (u * 256)
      match s.checkUnit .hbmRead f.1 false with
      | (some h, s') => (s'.count (HBM_COUNT_REREADS f.1) 1).startFrameTest f.1 f.2 h.injected
      | (none, s') => s'

/-- The entries that a walk from a table of level `l` down reads. -/
def State.walkPath (s : State) (tag va : Nat) : Nat → Nat → List Nat
  | 0, table => [pteAddr va 0 table]
  | l + 1, table =>
    pteAddr va (l + 1) table :: match s.readPte tag va (l + 1) table with
      | .ok (.table base) => s.walkPath tag va l base
      | _ => []

/-- The walk for an address, where its translation is not held, reads its entries: each is a first read of HBM (R246, R535). -/
def State.walkReads (s : State) (c va : Nat) : State :=
  if 2 ^ 48 ≤ va || (s.tlbHit (s.tagOf c) va).isSome then s
  else s.forEach (s.walkPath (s.tagOf c) va 3 (s.ctxOf c).ptRoot) fun s ea => s.checkHbmRead ea 8

/-- Walk for a translation that is not held, and keep it in the caches (DEDUCED, log entry 31). -/
def State.cacheXl (s : State) (c va : Nat) : State :=
  match s.tlbHit (s.tagOf c) va, s.lookup c va with
  | none, .ok x =>
    let s := s.walkReads c va
    { s with tlb := x :: s.tlb }
  | _, _ => s

/-- Does a DPA range meet [b, b + n)? -/
def overlaps (a n b m : Nat) : Bool := decide (a < b + m) && decide (b < a + n)

/-- Is a DPA range closed to every context: the reserve, a range under scrub, a quarantine range (R228, R254, R417)? -/
def State.closedRange (s : State) (a n : Nat) : Bool :=
  decide (usableEnd < a + n) || s.scrubs.any (fun (b, m, _) => overlaps a n b m) ||
    s.ctxs.any (fun (_, x) => x.quar.any fun e => overlaps a n e.base e.len)

/-- Is a DPA range closed to context `c`: the above, an enabled window (R237), another partition's range (R276)? -/
def State.protectedFrom (s : State) (c a n : Nat) : Bool :=
  s.closedRange a n ||
    (List.range 8).any (fun i => s.flag (HBM_PROT_EN i) &&
      overlaps a n (s.fld (HBM_PROT_BASE i) * 65536) (s.fld (HBM_PROT_SIZE i) * 65536)) ||
    s.partList.any (fun p => p != (s.ctxOf c).part &&
      overlaps a n (s.fld (SCH_PART_HBM_BASE p) * 65536) (s.fld (SCH_PART_HBM_SIZE p) * 65536))

/-- Translate an address for an access (R233, checks 3 to 5): target and physical address, or a code (DEDUCED, log entry 31). -/
def State.translate (s : State) (c va : Nat) (acc : Access) : Except Nat (Nat × Nat) :=
  match s.lookup c va with
  | .error e => .error e
  | .ok x =>
    if acc = .write && !x.w then .error XLATE_WRITE
    else if acc = .fetch && !x.x then .error XLATE_EXEC
    else if acc = .fetch && x.target = 1 then .error MEM_TARGET
    else if x.target = 0 && s.protectedFrom c x.pbase x.len then .error MEM_PROTECTED
    else .ok (x.target, x.pbase + (va - x.vbase))

/-! ### The Josil cache as units use it (R459) -/

/-- Ask the companion for a line. -/
def State.fillLine (s : State) (c n opc : Nat) : State :=
  let l := s.line n
  if l.filling || l.evicting then s
  else (s.setLine n { l with filling := true }).josilRequest opc (n * 128) 128 (some (s.tagOf c)) false [] (.fill n)

/-- The code that ended the last request of context `c` for a line. -/
def State.lineErr (s : State) (c n : Nat) : Option Nat :=
  match (s.line n).err with
  | some (t, e) => if t = s.tagOf c then some e else none
  | none => none

/-- The parity check of a read of a line that is held (R463): a line in S or E is set to I, a line in M is poisoned. -/
def State.lineParity (s : State) (n : Nat) : State :=
  if (s.line n).st = .invalid then s
  else match s.checkUnit .cacheLine n false with
    | (none, s) => s
    | (some _, s) =>
      let l := s.line n
      if l.st = .modified then s.setLine n { l with poison := true } else s.setLine n { Line.reset with filling := l.filling, err := l.err }

/-- Is a line held as an access needs it: in E or M, or in any state but I? -/
def Line.heldFor (l : Line) (own : Bool) : Bool := if own then decide (l.st = .exclusive ∨ l.st = .modified) else decide (l.st ≠ .invalid)

/-- Read bytes of one line: a hit, a fault, or a request and a wait; an access waits for a fill that is outstanding. An AMO reads a line in E
or M (`own`). -/
def State.lineRead (s : State) (c pa n : Nat) (own : Bool := false) : Res (List Byte) × State :=
  let s := s.lineParity (lineOf pa)
  let l := s.line (lineOf pa)
  match s.lineErr c (lineOf pa) with
  | some e => (.fault e, s.setLine (lineOf pa) { l with err := none })
  | none =>
  if !l.heldFor own || l.evicting || l.filling then (.wait, s.fillLine c (lineOf pa) (if own then opcRdOwn else opcRdShared))
  else if l.poison then (.fault POISONED, s)
  else (.ok ((l.data.drop (pa % 128)).take n), s)

/-- Replace bytes of a list from a position on. -/
def overlay (old new : List Byte) (at_ : Nat) : List Byte :=
  old.take at_ ++ new ++ old.drop (at_ + new.length)

/-- Write bytes of one line: needs the line in E or M, and leaves it in M. -/
def State.lineWrite (s : State) (c pa : Nat) (d : List Byte) : Res Unit × State :=
  let l := s.line (lineOf pa)
  match s.lineErr c (lineOf pa) with
  | some e => (.fault e, s.setLine (lineOf pa) { l with err := none })
  | none => match l.st with
    | .exclusive | .modified =>
      if l.evicting || l.filling then (.wait, s)
      else
        let data := overlay l.data d (pa % 128)
        let poison := l.poison && decide (d.length < 128)
        (.ok (), s.setLine (lineOf pa) { l with st := .modified, data := data, poison := poison })
    | _ => (.wait, s.fillLine c (lineOf pa) opcRdOwn)

/-! ### Virtual accesses -/

/-- The pieces of an access: within one 256-byte unit, and so within one page, each. -/
def pagePieces (a n : Nat) : List (Nat × Nat) := spans 256 (n / 256 + 2) a n

/-- Read companion memory through the cache, line by line. -/
def State.linesRead (s : State) (c pa n : Nat) : Res (List Byte) × State :=
  (linePieces pa n).foldl (fun r p =>
    match r with
    | (.ok l, s) =>
      match s.lineRead c p.1 p.2 with
      | (.ok l', s) => (.ok (l ++ l'), s)
      | (.fault e, s) => (.fault e, s)
      | (.wait, s) => (.wait, s)
    | r => r) (.ok [], s)

/-- Write companion memory through the cache, line by line. -/
def State.linesWrite (s : State) (c pa : Nat) (d : List Byte) : Res Unit × State :=
  (linePieces pa d.length).foldl (fun r p =>
    match r with
    | (.ok (), s) => s.lineWrite c p.1 ((d.drop (p.1 - pa)).take p.2)
    | r => r) (.ok (), s)

/-- Read one piece. -/
def State.readPiece (s : State) (c va n : Nat) (acc : Access) : Res (List Byte) × State :=
  if s.walkWaits c va then (.wait, s)
  else match s.translate c va acc with
  | .error e => (.fault e, s.walkReads c va)
  | .ok (t, pa) =>
    let s := s.cacheXl c va
    if t = 1 then s.linesRead c pa n
    else if s.frameBusy pa then (.wait, s)
    else if s.hbmPoisonedRange pa n then (.fault POISONED, s)
    else
      let s := s.checkHbmRead pa n
      (.ok (s.hbmBytes pa n), s)

/-- Read `n` bytes of context `c` from virtual address `va`. -/
def State.vread (s : State) (c va n : Nat) (acc : Access) : Res (List Byte) × State :=
  (pagePieces va n).foldl (fun r p =>
    match r with
    | (.ok l, s) =>
      match s.readPiece c p.1 p.2 acc with
      | (.ok l', s) => (.ok (l ++ l'), s)
      | (.fault e, s) => (.fault e, s)
      | (.wait, s) => (.wait, s)
    | r => r) (.ok [], s)

/-- Write one piece. Where the check of its data at the stack's interface fails, it is not performed and its unit is lost (R246). -/
def State.writePiece (s : State) (c va : Nat) (d : List Byte) : Res Unit × State :=
  if s.walkWaits c va then (.wait, s)
  else match s.translate c va .write with
  | .error e => (.fault e, s.walkReads c va)
  | .ok (t, pa) =>
    let s := s.cacheXl c va
    if t = 1 then s.linesWrite c pa d
    else if s.writeHeld pa d.length then (.wait, (s.noteHeld pa).noteHeld (pa + d.length - 1))
    else match s.commitChecked pa d [] true with
      | (false, s) => (.fault HBM_WRITE_LOST, s)
      | (true, s) => (.ok (), s)

/-- Write bytes of context `c` from virtual address `va`; the pieces before a fault stay written. -/
def State.vwrite (s : State) (c va : Nat) (d : List Byte) : Res Unit × State :=
  (pagePieces va d.length).foldl (fun r p =>
    match r with
    | (.ok (), s) => s.writePiece c p.1 ((d.drop (p.1 - va)).take p.2)
    | r => r) (.ok (), s)

end Sys2Proof.Machine
end

