-- ==== Sys2Proof/Machine/Teardown.lean ====
section
/-!
DEFINITION. What every unit does to a context: charging (R293, R309), writing back the records of contexts and queues (R280,
R284), the generation bump with its quarantine (R411 to R416), the teardown (R306) and the context fault that starts it.
-/

namespace Sys2Proof.Machine

/-- The largest value of `w` bits, if `n` is above it. -/
def satU (w n : Nat) : Nat := Nat.min n (2 ^ w - 1)

/-! ### Charging and accounting -/

/-- Is a task placed in a set of block `b`? -/
def State.taskPlaced (s : State) (b : Nat) : Bool := (s.bst b).main.placed || (s.bst b).fill.placed

/-- The blocks on which context `c` stands. -/
def State.blocksOf (s : State) (c : Nat) : List Nat := positions 128 fun b => (s.blk b).ctx == some c

/-- Those on which its state is whole: a block that is restored to it holds no task of it yet (R309). -/
def State.standingBlocks (s : State) (c : Nat) : List Nat := (s.blocksOf c).filter fun b => decide ((s.blk b).phase ≠ .restoring)

/-- Charge context `c` up to now (R293, R298, R309): HELD and CHARGE by its home blocks while resident, with debt repaid first,
BUSY and FILL by the blocks that hold a task (DEDUCED, log entry 49). -/
def State.settle (s : State) (c : Nat) : State :=
  let x := s.ctxOf c
  let dt := s.now - x.chargedTo
  if x.st = .resident && !x.tearing then
    let bn := (s.homeBlocks c).length * dt
    let rep := Nat.min x.debt bn
    let bs := s.standingBlocks c
    let busy := (bs.filter s.taskPlaced).length * dt
    let fill := (bs.filter fun b => (s.bst b).fill.placed).length * dt
    let a := x.acct
    s.setCtx c { x with
      charge := satU 64 (x.charge + bn)
      debt := x.debt - rep
      debtAge := if x.debt - rep = 0 then 0 else x.debtAge
      chargedTo := s.now
      acct := { a with held := satU 64 (a.held + bn), busy := satU 64 (a.busy + busy), fill := satU 64 (a.fill + fill),
                       debtRepaid := satU 64 (a.debtRepaid + rep) } }
  else s.setCtx c { x with chargedTo := s.now }

/-- Charge every context that is resident (DEDUCED, log entry 49). -/
def State.settleAll (s : State) : State :=
  s.forEach (s.ctxList.filter fun c => (s.ctxOf c).st == .resident) State.settle

/-- The code of a context's state (R281). -/
def CtxState.code : CtxState → Nat
  | .free => 0
  | .swapped => 1
  | .resident => 2
  | .quarantine => 3

/-- The 64 bytes of an accounting record (R309). -/
def Acct.bytes (a : Acct) : List Byte :=
  leBytes a.held 8 ++ leBytes a.busy 8 ++ leBytes a.fill 8 ++ leBytes a.queueWait 8 ++ leBytes a.tasks 4 ++
    leBytes a.preemptions 4 ++ leBytes a.evictions 4 ++ leBytes a.startMissed 4 ++ leBytes a.debtRepaid 8 ++
    leBytes a.debtMissed 4 ++ leBytes a.stepLate 4

/-- Write the device fields of a context record back (R280, R308). -/
def State.writeRecord (s : State) (c : Nat) : State :=
  let x := s.ctxOf c
  let base := s.fld SCH_CTABLE_BASE * 2 ^ 21 + 256 * c
  let s := s.writeHbm base [BitVec.ofNat 8 x.st.code, BitVec.ofNat 8 x.gen]
  let s := s.writeHbm (base + 40) (leBytes x.charge 8 ++ leBytes x.debt 8 ++ leBytes x.debtAge 1)
  s.writeHbm (base + 128) x.acct.bytes

/-- The code of a queue's state. -/
def QState.code : QState → Nat
  | .unbound => 0
  | .run => 1
  | .stopped => 2

/-- Store a queue record and write it back (R284). -/
def State.putQueue (s : State) (q : Nat) (x : Queue) : State :=
  let s := s.setQueue q x
  let base := s.fld SCH_QTABLE_BASE * 2 ^ 21 + 64 * q
  let s := s.writeHbm (base + 12) (leBytes x.head 4 ++ leBytes x.tail 4 ++ leBytes x.done 4 ++ [BitVec.ofNat 8 x.st.code])
  s.writeHbm (base + 32) (leBytes x.headStamp 8)

/-! ### Stopping -/

/-- An arbiter's port without the requests that a predicate names: a grant of theirs ends as if its request were dropped, and where the
emergency requester's was one, the owner that it had displaced has its grant back. -/
def Arb.withdraw (p : Nat → Bool) (x : Arb) : Arb :=
  let keep (o : Option Nat) : Option Nat := match o with
    | some i => if p i then none else some i
    | none => none
  match x.emergency with
  | some old =>
    if (keep x.owner).isNone then { x with owner := keep old, expired := x.expired && (keep old).isSome, emergency := none }
    else { x with expired := x.expired && (keep old).isSome, emergency := some (keep old) }
  | none => { x with owner := keep x.owner, expired := x.expired && (keep x.owner).isSome }

/-- Offset of an arbiter's ARB_CFG. -/
def arbOff : ArbId → Nat
  | .chip a => SCH_ARB_CFG a
  | .region r a => RGN_ARB_CFG r a
  | .block b a _ => BLK_ARB_CFG b a
  | .cell b _ _ => BLK_ARB_CFG b 20

/-- Where the ownership of an arbiter's port is kept. -/
def arbKey : ArbId → Nat
  | .block b a true => BLK_ARB_CFG b a + 4
  | .cell b row wr => BLK_ARB_CFG b 20 + 2 * row + b2n wr
  | i => arbOff i

/-- Does a request wait at an arbiter's port as requester `n`? -/
def ArbReq.waits (r : ArbReq) (key n : Nat) : Bool :=
  match r.hops with
  | h :: _ => arbKey h.arb == key && h.idx == n
  | [] => false

/-- Does anyone wait at an arbiter's port as requester `n`? -/
def State.requests (s : State) (key n : Nat) : Bool := s.arbReqs.any fun r => r.waits key n

/-- Withdraw the requests of block `b`'s units, and of the self-test and recovery engines at its arbiters, at every arbiter; a grant whose
owner has none left ends (R267). -/
def State.withdraw (s : State) (b : Nat) : State :=
  let s := { s with arbReqs := s.arbReqs.filter fun r => r.src != some b }
  s.forEach (s.arbs.map (·.1)) fun s key =>
    s.modArb key (Arb.withdraw fun i => !s.requests key i)

/-- A register set that holds no task. -/
def CoreSet.cleared (x : CoreSet) : CoreSet := { x with placed := false, wait := .none, exited := none }

/-- Stop the tasks of a block without a save, and scrub it as its next steps (R306, R424). -/
def State.stopDiscard (s : State) (b : Nat) : State :=
  let s := s.modBlk b fun x =>
    { x with
      st := { x.st with main := x.st.main.cleared, fill := x.st.fill.cleared, parked := false }
      phase := if x.phase = .restoring || x.phase = .scrubbing then .scrubbing else .stopping
      discard := true
      stopAt := s.now }
  s.withdraw b

/-! ### Quarantine ranges (R416) -/

/-- Bytes of an element of a plait DTYPE (R357). -/
def dtypeBytes (d : Nat) : Nat := [2, 2, 4, 8, 2, 4, 8, 1, 8].getD d 1

/-- Number of ranks. -/
def PlaitOp.n (o : PlaitOp) : Nat := o.group.length

/-- Count of rank `i` (R362); for ALL_TO_ALL the receive count. -/
def PlaitOp.count (o : PlaitOp) (i : Nat) : Nat := if o.desc.op = 3 then o.counts.getD (o.n + i) 0 else o.counts.getD i 0

/-- Total count. -/
def PlaitOp.total (o : PlaitOp) : Nat := sumNat ((List.range o.n).map o.count)

/-- Elements that RECV receives (R363). -/
def PlaitOp.recvElems (o : PlaitOp) : Nat :=
  match o.desc.op with
  | 0 | 2 | 3 => o.total
  | 1 => o.count o.myRank
  | 4 => o.desc.units * o.desc.unitElems
  | 5 => o.count ((o.desc.root + o.n - 1) % Nat.max 1 o.n)
  | _ => 0

/-- Does the operation reduce (R363)? -/
def PlaitOp.reduces (o : PlaitOp) : Bool := decide (o.desc.op ≤ 1)

/-- Virtual ranges that an operation writes: RECV, the staging area, the versions. -/
def PlaitOp.dests (o : PlaitOp) : List (Nat × Nat) :=
  let eb := dtypeBytes o.desc.dtype
  [(o.desc.recvVa, o.recvElems * eb)] ++
    (if o.reduces then [(o.desc.stageVa, o.n * (if o.owner then o.count o.myRank else o.total) * eb)] else []) ++
    (if o.desc.op = 2 then [(o.desc.versionsVa, 4 * o.n)] else [])

/-- The virtual range of an operation's statistics ring (R378): its head of 32 bytes, and the records that it holds. -/
def State.statDests (s : State) (o : PlaitOp) : List (Nat × Nat) :=
  if bitOf o.desc.flags 2 then
    match (s.vread o.ctx o.desc.statsVa 8 .read).1 with
    | .ok l => [(o.desc.statsVa, 32 + 32 * 2 ^ bits (leNat l) 4 0)]
    | _ => [(o.desc.statsVa, 32)]
  else []

/-- The 2 MiB pages of usable HBM that a virtual range of context `c` writes. -/
def State.virtPages (s : State) (c va n : Nat) : List Nat :=
  (spans 65536 (n / 65536 + 2) va n).filterMap fun (a, _) =>
    match s.translate c a .write with
    | .ok (0, pa) => some (pa / 2 ^ 21)
    | _ => none

/-- The pages of a DPA range. -/
def dpaPages (a n : Nat) : List Nat := if n = 0 then [] else (List.range ((a + n - 1) / 2 ^ 21 - a / 2 ^ 21 + 1)).map (a / 2 ^ 21 + ·)

/-- Each member once, in order of first appearance. -/
def distinct (l : List Nat) : List Nat := l.foldl (fun r x => if r.contains x then r else r ++ [x]) []

/-- The pages in which a transfer of the context's current tag can still write (R416) (DEDUCED, log entry 34). -/
def State.quarPages (s : State) (c : Nat) : List Nat :=
  let x := s.ctxOf c
  let tag := s.tagOf c
  let save := dpaPages x.saveBase ((s.homeBlocks c).length * 2 ^ 24)
  let moves := (s.moves.filter fun m => m.tag == tag && m.dstVirt).flatMap fun m =>
    (List.range (m.rows - m.row)).flatMap fun i => s.virtPages c (m.dst.toNat + (m.row + i) * m.dstStride) m.len
  let ops := s.plait.flatMap fun (_, o) => match o with
    | some o => if o.tag = tag then (o.dests ++ s.statDests o).flatMap fun (a, n) => s.virtPages c a n else []
    | none => []
  let carries := s.carries.flatMap fun x =>
    if x.op.tag = tag then s.virtPages c x.op.desc.stageVa (x.op.n * (if x.op.owner then x.op.count x.op.myRank else x.op.total) * dtypeBytes x.op.desc.dtype)
    else []
  let coils := s.coils.flatMap fun (e, k) =>
    if s.fld (COL_CTRL_CONTEXT e) = c then
      if s.fld (COL_STATUS_STATE e) = 3 then
        if s.flag (COL_CTRL_ATOMIC e) && !k.full then
          dpaPages (s.fld (COL_STAGE_BASE e) * 2 ^ 21) (s.fld (COL_STAGE_PAGES e) * 2 ^ 21)
        else (k.rx.map fun (p, _) => s.fld (COL_MIRROR_BASE e) + p / 8192) ++ k.parityRx.map (s.fld (COL_PARITY_BASE e) + ·)
      else if s.fld (COL_STATUS_STATE e) = 6 then k.want.filterMap fun (p, _) => (imagePageDpa k.extents (p / 8192)).map (· / 2 ^ 21)
      else []
    else []
  distinct (save ++ moves ++ ops ++ carries ++ coils)

/-! ### Coil entries of a context (R396, R403) -/


/-- Post a coil notification (R409) for entry `e`. -/
def State.coilPost (s : State) (e code before after cause num : Nat) : State :=
  (s.lastCode (COL_STATUS_LAST_CODE e) code).post
    ⟨none, code, 0x0AFF, e + before * 2 ^ 8 + after * 2 ^ 16 + cause * 2 ^ 24 + num * 2 ^ 32, s.fld (COL_STEP_STEP e)⟩

/-- Abort the open checkpoint of an entry with a cause (R396): it sends no more pages, and the pages not yet acknowledged stay held until
they are, or until COMMIT or DISCARD ends the checkpoint (R392) (DEDUCED, log entry 61). -/
def State.coilAbort (s : State) (e cause : Nat) : State :=
  let s := s.setFld (COL_STATUS_STATE e) 4
  let s := s.setFld (COL_STATUS_CAUSE e) cause
  let s := s.count (COL_COUNT_ABORTS e) 1
  let s := s.modCoil e fun c => { c with toSend := none }
  s.coilPost e COIL_ABORTED 3 4 cause (s.fld (COL_SEQ_CURRENT e))

/-- Does a member hold every READY? Its commit cannot be withdrawn any more (R395). -/
def State.allReady (s : State) (e : Nat) : Bool := s.fld (COL_STATUS_READY e) == 2 ^ s.fld (COL_CTRL_SIZE e) - 1

/-- A teardown of CONTEXT at an entry that is neither FREE nor PARKED (R403). -/
def State.coilTeardown (s : State) (e : Nat) : State :=
  let s := if s.fld (COL_STATUS_STATE e) = 3 && !s.allReady e then s.coilAbort e 3 else s
  let st := s.fld (COL_STATUS_STATE e)
  if st = 0 || st = 7 || st = 5 then s
  else
    let s := (s.setFld (COL_STATUS_STATE e) 5).flushHeld
    s.coilPost e COIL_VOID st 5 3 (s.fld (COL_SEQ_CURRENT e))

/-! ### The teardown (R306) -/

/-- Entries of the quarantine table in use. -/
def State.quarUsed (s : State) : Nat := sumNat (s.ctxs.map fun (_, y) => (y.quar.filter fun e => !e.wide).length)

/-- What a bump of context `c` puts into quarantine, and whether the table could not hold it (R416). -/
def State.quarRanges (s : State) (c : Nat) : List Quar × Bool :=
  let x := s.ctxOf c
  let pages := s.quarPages c
  if 4096 < s.quarUsed + pages.length then
    ([⟨s.fld (SCH_PART_HBM_BASE x.part) * 65536, s.fld (SCH_PART_HBM_SIZE x.part) * 65536, x.gen, true⟩], true)
  else (pages.map fun n => ⟨n * 2 ^ 21, 2 ^ 21, x.gen, false⟩, false)

/-- Bump the generation of a context and record its quarantine (R411, R415, R416): its packets that are in no frame yet are discarded, and what
its operations of the old tag have completed is forgotten with the tag (R354, R414) (DEDUCED, log entry 34). -/
def State.bump (s : State) (c : Nat) : State :=
  let x := s.ctxOf c
  let tag := s.tagOf c
  let q := s.quarRanges c
  let drain := s.now + s.tDrain
  let s := s.setCtx c { x with gen := (x.gen + 1) % 256, drainAt := drain, quar := x.quar ++ q.1, quarWide := q.2,
                               tearing := true, saved := [], held := [] }
  let s := if s.ptb.fld PTB_GEN_CONTEXT = c then s.setPtb PTB_GEN_COUNT 0 else s
  { s with ports := (s.ports.map fun (k, l) => (k, l.filter fun p => p.ctxTag != some tag)).filter fun e => e.2 != []
           plaitDone := s.plaitDone.filter fun e => e.1 / 2 ^ 32 != tag }

/-- The context has left its blocks: it stands in QUARANTINE until its drain ends. -/
def State.tearDone (s : State) (c : Nat) : State :=
  if (s.ctxOf c).tearing && (s.blocksOf c).isEmpty then
    (s.modCtx c fun x => { x with st := .quarantine, tearing := false }).writeRecord c
  else s

/-- Start the teardown of a context (R306): bump, stop in both sets without a save, take no more entries, free its scoreboard
entries, release its gather holds (R377), end its coil entries (R403). Its blocks are scrubbed next. -/
def State.teardown (s : State) (c : Nat) : State :=
  let x := s.ctxOf c
  if x.st = .free || x.st = .quarantine || x.tearing then s
  else
    let s := s.settle c
    let s := s.bump c
    let s := s.forEach (s.ctxQueues c) fun s q => s.modQueue q fun y => { y with entry := none, notify := [] }
    let s := { s with holds := s.holds.filter fun (_, h) => h != some c }
    let s := s.forEach (positions 16 fun e => s.fld (COL_CTRL_CONTEXT e) == c) State.coilTeardown
    let s := s.forEach (List.range 128) fun s b =>
      let k := s.blk b
      if k.ctx = some c then s.stopDiscard b
      else if k.incoming = some c then
        if k.phase = .restoring then
          s.modBlk b fun k => { k with ctx := some c, incoming := none, phase := .scrubbing, discard := true }
        else s.modBlk b fun k => { k with incoming := none }
      else s
    s.tearDone c

/-- A context fault that a unit reports (R306): the notification carries the tag before the bump. -/
def State.ctxFault (s : State) (c code src lo hi : Nat) : State :=
  let x := s.ctxOf c
  if x.st = .free || x.st = .quarantine || x.tearing then s
  else
    let tag := s.tagOf c
    (s.teardown c).post ⟨some tag, code, src, lo, hi⟩

/-- A health event unless it was injected (R430, R537). -/
def State.healthUnless (s : State) (injected : Bool) (cls : HealthClass) (n : Note) : State :=
  if injected then s else s.health cls n

end Sys2Proof.Machine
end

