-- ==== Sys2Proof/Machine/Operands.lean ====
section
/-!
DEFINITION. The operands of a block's instructions: the fields of an instruction word (R160), scalar registers (R163),
block-local memory with its poison and parity (R164, R246, R251), and vector and mask registers as bytes (R117).
-/

namespace Sys2Proof.Machine

/-! ### Fields of an instruction word (R160) -/

def wMajor (w : Word) : Nat := bits w.toNat 63 58
def wMinor (w : Word) : Nat := bits w.toNat 57 52
def wDst (w : Word) : Nat := bits w.toNat 51 47
def wSa (w : Word) : Nat := bits w.toNat 46 42
def wSb (w : Word) : Nat := bits w.toNat 41 37
def wTicket (w : Word) : Nat := bits w.toNat 36 32
def wImm (w : Word) : Nat := bits w.toNat 36 0

/-- TK and VS of a vector word (R121, R122). -/
def wTk (w : Word) : Bool := bitOf w.toNat 31
def wVs (w : Word) : Bool := bitOf w.toNat 23

/-- Bits `hi` to `lo` of a word. -/
def wBits (w : Word) (hi lo : Nat) : Nat := bits w.toNat hi lo

/-- sext(imm): bits [36:0] sign-extended (R163). -/
def wSimm (w : Word) : Word := BitVec.ofInt 64 (signed 37 w.toNat)

/-! ### Scalar registers -/

/-- Scalar register `n` of a set: s0 reads 0 (R163). -/
def CoreSet.rd (x : CoreSet) (n : Nat) : Word := if n = 0 then 0 else SMap.get (fun _ => 0) x.s n

/-- Write scalar register `n`: a write to s0 is discarded. -/
def CoreSet.wr (x : CoreSet) (n : Nat) (v : Word) : CoreSet :=
  if n = 0 then x else { x with s := SMap.set (fun _ => 0) x.s n v }

def State.sreg (s : State) (b : Nat) (f : Bool) (n : Nat) : Word := (s.cset b f).rd n
def State.setSreg (s : State) (b : Nat) (f : Bool) (n : Nat) (v : Word) : State := s.modSet b f (·.wr n v)

/-- Ticket `t` of a set. -/
def CoreSet.ticket (x : CoreSet) (t : Nat) : Ticket := SMap.get (fun _ => Ticket.reset) x.tk t
def CoreSet.setTicket (x : CoreSet) (t : Nat) (v : Ticket) : CoreSet :=
  { x with tk := SMap.set (fun _ => Ticket.reset) x.tk t v }

/-! ### Block-local memory (R164) -/

def opsEnd : Nat := 0x400000
def accBase : Nat := 0x400000
def accEnd : Nat := 0x440000
def scrBase : Nat := 0x500000
def scrEnd : Nat := 0x510000

/-- Do all `n` bytes from `a` lie in the spaces of R164? -/
def localRange (a n : Nat) : Bool := decide (a + n ≤ accEnd) || (decide (scrBase ≤ a) && decide (a + n ≤ scrEnd))

/-- A byte of block-local memory (DESIGN CHOICE, log entry 5). -/
def BlkState.byte (x : BlkState) (a : Nat) : Byte := SMap.get (fun _ => 0) x.mem a

def State.localBytes (s : State) (b a n : Nat) : List Byte := (List.range n).map fun i => (s.bst b).byte (a + i)

/-- Is the 256-byte line of `a` poisoned? Only lines of the operand and accumulator stores carry poison (R251). -/
def BlkState.linePoisoned (x : BlkState) (a : Nat) : Bool := SMap.get (fun _ => false) x.poison (a / 256)

def State.localPoisoned (s : State) (b a n : Nat) : Bool :=
  (unitsOf a n).any fun u => (s.bst b).linePoisoned (u * 256)

/-- Poison or clean the line of `a`. -/
def BlkState.setLinePoison (x : BlkState) (a : Nat) (p : Bool) : BlkState :=
  { x with poison := SMap.set (fun _ => false) x.poison (a / 256) p }

/-- Write bytes to block-local memory: whole lines lose their poison (R253). -/
def BlkState.write (x : BlkState) (a : Nat) (l : List Byte) : BlkState :=
  { x with mem := putBytes x.mem a l
           poison := (wholeUnits a l.length).foldl (fun m u => SMap.set (fun _ => false) m u false) x.poison }

def State.writeLocal (s : State) (b a : Nat) (l : List Byte) : State := s.modBst b (·.write a l)

/-- The bank and row of an address, as bank × 256 + row (R248). -/
def bankRow (a : Nat) : Nat :=
  if a < opsEnd then a / 2 ^ 18 * 256 + a % 2 ^ 18 / 1024
  else (16 + (a - accBase) / 2 ^ 17) * 256 + (a - accBase) % 2 ^ 17 / 1024

/-- A test of a bank row is due (R248). -/
def State.dueRowTest (s : State) (b row : Nat) (injected : Bool) : State :=
  s.modBlk b fun x =>
    if x.rowTests.any fun t => t.1 == row then x else { x with rowTests := x.rowTests ++ [(row, injected)] }

/-- The read check of the operand store (R246): a mismatch poisons the line and its bank row is tested. Poisoned lines and
other spaces are not checked here. -/
def State.checkOps (s : State) (b a n : Nat) : Bool × State :=
  match (unitsOf a n).find? fun u => decide (u * 256 < opsEnd) && !(s.bst b).linePoisoned (u * 256) with
  | none => (false, s)
  | some u =>
    match s.checkUnit .opsRead b false with
    | (none, s') => (false, s')
    | (some h, s') =>
      (true, (s'.modBst b fun x => x.setLinePoison (u * 256) true).dueRowTest b (bankRow (u * 256)) h.injected)

/-- The read check of the accumulator store outside the array (R81, R246). -/
def State.checkAcc (s : State) (b a n : Nat) : Bool × State :=
  match (unitsOf a n).find? fun u => decide (accBase ≤ u * 256 ∧ u * 256 < accEnd) && !(s.bst b).linePoisoned (u * 256) with
  | none => (false, s)
  | some u =>
    match s.checkUnit .accPlain b false with
    | (none, s') => (false, s')
    | (some h, s') =>
      (true, (s'.modBst b fun x => x.setLinePoison (u * 256) true).dueRowTest b (bankRow (u * 256)) h.injected)

/-- Read block-local bytes as a unit other than a move does (R246, R252). -/
def State.readLocal (s : State) (b a n : Nat) : Except Nat (List Byte) × State :=
  if s.localPoisoned b a n then (.error POISONED, s)
  else
    match s.checkOps b a n with
    | (true, s') => (.error OPSTORE_PARITY, s')
    | (false, s') =>
      match s'.checkAcc b a n with
      | (true, s'') => (.error ACC_PARITY, s'')
      | (false, s'') => (.ok (s''.localBytes b a n), s'')

/-! ### Vector and mask registers (R117) -/

/-- Vector register `r` as a number. -/
def BlkState.vreg (x : BlkState) (r : Nat) : Nat := (SMap.get (fun _ => 0) x.vregs r).toNat

/-- Element `i` of vector register `r`, `wd` bytes wide, counted from byte `off`. -/
def BlkState.velem (x : BlkState) (r wd i : Nat) (off : Nat := 0) : Nat :=
  x.vreg r / 2 ^ (8 * (off + wd * i)) % 2 ^ (8 * wd)

/-- The number whose digits of `wd` bytes are the members of a list, the first lowest. -/
def packElems (wd : Nat) : List Nat → Nat
  | [] => 0
  | v :: l => v % 2 ^ (8 * wd) + 2 ^ (8 * wd) * packElems wd l

/-- Write elements 0, 1, ... of vector register `r`, counted from byte `off`. -/
def BlkState.setVelems (x : BlkState) (r wd : Nat) (l : List Nat) (off : Nat := 0) : BlkState :=
  let old := x.vreg r
  let lo := 8 * off
  let hi := 8 * (off + wd * l.length)
  let v := old % 2 ^ lo + packElems wd l * 2 ^ lo + old / 2 ^ hi * 2 ^ hi
  { x with vregs := SMap.set (fun _ => 0) x.vregs r (BitVec.ofNat 32768 v) }

/-- Bit `i` of mask register `m`. -/
def BlkState.mbit (x : BlkState) (m i : Nat) : Bool := (SMap.get (fun _ => 0) x.mregs m).getLsbD i

/-- The mask register `m`. -/
def BlkState.mreg (x : BlkState) (m : Nat) : BitVec 1024 := SMap.get (fun _ => 0) x.mregs m
def BlkState.setMreg (x : BlkState) (m : Nat) (v : BitVec 1024) : BlkState :=
  { x with mregs := SMap.set (fun _ => 0) x.mregs m v }

/-- Configuration item `i` (R156). -/
def BlkState.cfgItem (x : BlkState) (i : Nat) : Word := SMap.get (fun _ => 0) x.cfg i

/-- Counter bank `k` (R142). -/
def BlkState.bank (x : BlkState) (k : Nat) : Bank := SMap.get (fun _ => Bank.reset) x.banks k
def BlkState.setBank (x : BlkState) (k : Nat) (v : Bank) : BlkState :=
  { x with banks := SMap.set (fun _ => Bank.reset) x.banks k v }

end Sys2Proof.Machine
end

