-- ==== Sys2Proof/Decode.lean ====
section
/-!
DEFINITION. The decoding of a core instruction word into its row (R160 to R162), by major and minor opcode. The rows of
spec/opcode_table.json give no bits, so the word that the host numbers by them spells no command.
-/

namespace Sys2Proof

open Sys2Proof.Machine (wMajor wMinor)

/-- The major and minor opcode of the row of a core instruction; MOVE.NC has two minors, of which this is the lower. -/
def coreOpcode : Instr → Option (Nat × Nat)
  | .weave _ _ _ => some (0x10, 0x00)
  | .stakeLd _ _ _ => some (0x11, 0x00)
  | .stakeInv _ _ _ => some (0x11, 0x01)
  | .stakeStat _ _ _ => some (0x11, 0x02)
  | .vsetvl _ _ _ => some (0x18, 0x00)
  | .vmvS _ _ _ => some (0x18, 0x01)
  | .vcfg _ _ _ => some (0x18, 0x02)
  | .vcfgRd _ _ _ => some (0x18, 0x03)
  | .mpop _ _ _ => some (0x18, 0x04)
  | .vmvV _ _ _ => some (0x18, 0x05)
  | .vadd _ _ _ => some (0x19, 0x00)
  | .vsub _ _ _ => some (0x19, 0x01)
  | .vmul _ _ _ => some (0x19, 0x02)
  | .vdiv _ _ _ => some (0x19, 0x03)
  | .vmin _ _ _ => some (0x19, 0x04)
  | .vmax _ _ _ => some (0x19, 0x05)
  | .vabs _ _ _ => some (0x19, 0x06)
  | .vneg _ _ _ => some (0x19, 0x07)
  | .vfma _ _ _ => some (0x1A, 0x00)
  | .vfms _ _ _ => some (0x1A, 0x01)
  | .vfnma _ _ _ => some (0x1A, 0x02)
  | .vcmpEq _ _ _ => some (0x1B, 0x00)
  | .vcmpLt _ _ _ => some (0x1B, 0x01)
  | .vcmpLe _ _ _ => some (0x1B, 0x02)
  | .vcmpUn _ _ _ => some (0x1B, 0x03)
  | .mand _ _ _ => some (0x1B, 0x04)
  | .mor _ _ _ => some (0x1B, 0x05)
  | .mxor _ _ _ => some (0x1B, 0x06)
  | .mnot _ _ _ => some (0x1B, 0x07)
  | .viadd _ _ _ => some (0x1C, 0x00)
  | .visub _ _ _ => some (0x1C, 0x01)
  | .vimul _ _ _ => some (0x1C, 0x02)
  | .vand _ _ _ => some (0x1C, 0x03)
  | .vor _ _ _ => some (0x1C, 0x04)
  | .vxor _ _ _ => some (0x1C, 0x05)
  | .vsll _ _ _ => some (0x1C, 0x06)
  | .vsrl _ _ _ => some (0x1C, 0x07)
  | .vsra _ _ _ => some (0x1C, 0x08)
  | .vcvt _ _ _ => some (0x1D, 0x00)
  | .vexp _ _ _ => some (0x1E, 0x00)
  | .vexp2 _ _ _ => some (0x1E, 0x01)
  | .vlog _ _ _ => some (0x1E, 0x02)
  | .vlog2 _ _ _ => some (0x1E, 0x03)
  | .vrcp _ _ _ => some (0x1E, 0x04)
  | .vsqrt _ _ _ => some (0x1E, 0x05)
  | .vrsqrt _ _ _ => some (0x1E, 0x06)
  | .vtanh _ _ _ => some (0x1E, 0x07)
  | .vsigmoid _ _ _ => some (0x1E, 0x08)
  | .verf _ _ _ => some (0x1E, 0x09)
  | .vsin _ _ _ => some (0x1E, 0x0A)
  | .vcos _ _ _ => some (0x1E, 0x0B)
  | .vslidedn _ _ _ => some (0x1F, 0x00)
  | .vslideup _ _ _ => some (0x1F, 0x01)
  | .vperm _ _ _ => some (0x1F, 0x02)
  | .vmerge _ _ _ => some (0x1F, 0x03)
  | .vld _ _ _ => some (0x20, 0x00)
  | .vst _ _ _ => some (0x20, 0x01)
  | .vstSp _ _ _ => some (0x21, 0x00)
  | .vrb _ _ _ => some (0x21, 0x01)
  | .vldSp _ _ _ => some (0x21, 0x02)
  | .vsmxStat _ _ _ => some (0x22, 0x00)
  | .vsmxMerge _ _ _ => some (0x22, 0x01)
  | .vsmxWgt _ _ _ => some (0x22, 0x02)
  | .vsmxNorm _ _ _ => some (0x22, 0x03)
  | .voptApply _ _ _ => some (0x23, 0x00)
  | .voptRd _ _ _ => some (0x23, 0x01)
  | .vrngU32 _ _ _ => some (0x24, 0x00)
  | .vrngUnif _ _ _ => some (0x24, 0x01)
  | .vrngKeep _ _ _ => some (0x24, 0x02)
  | .twSum _ _ _ => some (0x28, 0x00)
  | .twSumsq _ _ _ => some (0x28, 0x01)
  | .twMax _ _ _ => some (0x28, 0x02)
  | .twMin _ _ _ => some (0x28, 0x03)
  | .twAmax _ _ _ => some (0x28, 0x04)
  | .twArgmax _ _ _ => some (0x28, 0x05)
  | .twCountNonfinite _ _ _ => some (0x28, 0x06)
  | .twCrd _ _ _ => some (0x29, 0x00)
  | .twCclr _ _ _ => some (0x29, 0x01)
  | .add _ _ _ => some (0x00, 0x00)
  | .sub _ _ _ => some (0x00, 0x01)
  | .and _ _ _ => some (0x00, 0x02)
  | .or _ _ _ => some (0x00, 0x03)
  | .xor _ _ _ => some (0x00, 0x04)
  | .sll _ _ _ => some (0x00, 0x05)
  | .srl _ _ _ => some (0x00, 0x06)
  | .sra _ _ _ => some (0x00, 0x07)
  | .slt _ _ _ => some (0x00, 0x08)
  | .sltu _ _ _ => some (0x00, 0x09)
  | .mul _ _ _ => some (0x00, 0x0A)
  | .mulh _ _ _ => some (0x00, 0x0B)
  | .mulhu _ _ _ => some (0x00, 0x0C)
  | .div _ _ _ => some (0x00, 0x0D)
  | .divu _ _ _ => some (0x00, 0x0E)
  | .rem _ _ _ => some (0x00, 0x0F)
  | .remu _ _ _ => some (0x00, 0x10)
  | .min _ _ _ => some (0x00, 0x11)
  | .max _ _ _ => some (0x00, 0x12)
  | .minu _ _ _ => some (0x00, 0x13)
  | .maxu _ _ _ => some (0x00, 0x14)
  | .clz _ _ _ => some (0x00, 0x15)
  | .ctz _ _ _ => some (0x00, 0x16)
  | .popc _ _ _ => some (0x00, 0x17)
  | .addi _ _ _ => some (0x01, 0x00)
  | .andi _ _ _ => some (0x01, 0x02)
  | .ori _ _ _ => some (0x01, 0x03)
  | .xori _ _ _ => some (0x01, 0x04)
  | .slli _ _ _ => some (0x01, 0x05)
  | .srli _ _ _ => some (0x01, 0x06)
  | .srai _ _ _ => some (0x01, 0x07)
  | .slti _ _ _ => some (0x01, 0x08)
  | .sltiu _ _ _ => some (0x01, 0x09)
  | .movi _ _ _ => some (0x02, 0x00)
  | .movhi _ _ _ => some (0x02, 0x01)
  | .fadd _ _ _ => some (0x03, 0x00)
  | .fsub _ _ _ => some (0x03, 0x01)
  | .fmul _ _ _ => some (0x03, 0x02)
  | .fdiv _ _ _ => some (0x03, 0x03)
  | .fsqrt _ _ _ => some (0x03, 0x04)
  | .fmin _ _ _ => some (0x03, 0x05)
  | .fmax _ _ _ => some (0x03, 0x06)
  | .fma _ _ _ => some (0x03, 0x07)
  | .fcmpEq _ _ _ => some (0x03, 0x08)
  | .fcmpLt _ _ _ => some (0x03, 0x09)
  | .fcmpLe _ _ _ => some (0x03, 0x0A)
  | .fcvtI _ _ _ => some (0x03, 0x0B)
  | .fcvtF _ _ _ => some (0x03, 0x0C)
  | .fcvtP _ _ _ => some (0x03, 0x0D)
  | .ldlB _ _ _ => some (0x04, 0x00)
  | .ldlBu _ _ _ => some (0x04, 0x01)
  | .ldlH _ _ _ => some (0x04, 0x02)
  | .ldlHu _ _ _ => some (0x04, 0x03)
  | .ldlW _ _ _ => some (0x04, 0x04)
  | .ldlWu _ _ _ => some (0x04, 0x05)
  | .ldlD _ _ _ => some (0x04, 0x06)
  | .stlB _ _ _ => some (0x04, 0x08)
  | .stlH _ _ _ => some (0x04, 0x09)
  | .stlW _ _ _ => some (0x04, 0x0A)
  | .stlD _ _ _ => some (0x04, 0x0B)
  | .ldv _ _ _ => some (0x05, 0x00)
  | .stv _ _ _ => some (0x05, 0x01)
  | .amoadd _ _ _ => some (0x05, 0x02)
  | .amoswap _ _ _ => some (0x05, 0x03)
  | .amocas _ _ _ => some (0x05, 0x04)
  | .beq _ _ _ => some (0x08, 0x00)
  | .bne _ _ _ => some (0x08, 0x01)
  | .blt _ _ _ => some (0x08, 0x02)
  | .bge _ _ _ => some (0x08, 0x03)
  | .bltu _ _ _ => some (0x08, 0x04)
  | .bgeu _ _ _ => some (0x08, 0x05)
  | .jal _ _ _ => some (0x08, 0x06)
  | .jalr _ _ _ => some (0x08, 0x07)
  | .wait _ _ _ => some (0x34, 0x00)
  | .waitany _ _ _ => some (0x34, 0x01)
  | .waitT _ _ _ => some (0x34, 0x02)
  | .tkst _ _ _ => some (0x34, 0x03)
  | .ftnow _ _ _ => some (0x34, 0x08)
  | .ftwait _ _ _ => some (0x34, 0x09)
  | .ftstat _ _ _ => some (0x34, 0x0A)
  | .exit _ _ _ => some (0x38, 0x00)
  | .fence _ _ _ => some (0x38, 0x01)
  | .csrr _ _ _ => some (0x38, 0x02)
  | .csrw _ _ _ => some (0x38, 0x03)
  | .nop _ _ _ => some (0x38, 0x04)
  | .brk _ _ _ => some (0x38, 0x05)
  | .move _ _ _ => some (0x2C, 0x00)
  | .moveFill _ _ _ => some (0x2C, 0x01)
  | .moveNc _ _ _ => some (0x2C, 0x02)
  | .plait _ _ _ => some (0x30, 0x00)
  | .plaitFence _ _ _ => some (0x30, 0x01)
  | .plaitHrel _ _ _ => some (0x30, 0x02)
  | _ => none

/-- The word, block and set of a core instruction. -/
def coreOperands : Instr → Option (Nat × Bool × Word)
  | .weave b f w => some (b, f, w)
  | .stakeLd b f w => some (b, f, w)
  | .stakeInv b f w => some (b, f, w)
  | .stakeStat b f w => some (b, f, w)
  | .vsetvl b f w => some (b, f, w)
  | .vmvS b f w => some (b, f, w)
  | .vcfg b f w => some (b, f, w)
  | .vcfgRd b f w => some (b, f, w)
  | .mpop b f w => some (b, f, w)
  | .vmvV b f w => some (b, f, w)
  | .vadd b f w => some (b, f, w)
  | .vsub b f w => some (b, f, w)
  | .vmul b f w => some (b, f, w)
  | .vdiv b f w => some (b, f, w)
  | .vmin b f w => some (b, f, w)
  | .vmax b f w => some (b, f, w)
  | .vabs b f w => some (b, f, w)
  | .vneg b f w => some (b, f, w)
  | .vfma b f w => some (b, f, w)
  | .vfms b f w => some (b, f, w)
  | .vfnma b f w => some (b, f, w)
  | .vcmpEq b f w => some (b, f, w)
  | .vcmpLt b f w => some (b, f, w)
  | .vcmpLe b f w => some (b, f, w)
  | .vcmpUn b f w => some (b, f, w)
  | .mand b f w => some (b, f, w)
  | .mor b f w => some (b, f, w)
  | .mxor b f w => some (b, f, w)
  | .mnot b f w => some (b, f, w)
  | .viadd b f w => some (b, f, w)
  | .visub b f w => some (b, f, w)
  | .vimul b f w => some (b, f, w)
  | .vand b f w => some (b, f, w)
  | .vor b f w => some (b, f, w)
  | .vxor b f w => some (b, f, w)
  | .vsll b f w => some (b, f, w)
  | .vsrl b f w => some (b, f, w)
  | .vsra b f w => some (b, f, w)
  | .vcvt b f w => some (b, f, w)
  | .vexp b f w => some (b, f, w)
  | .vexp2 b f w => some (b, f, w)
  | .vlog b f w => some (b, f, w)
  | .vlog2 b f w => some (b, f, w)
  | .vrcp b f w => some (b, f, w)
  | .vsqrt b f w => some (b, f, w)
  | .vrsqrt b f w => some (b, f, w)
  | .vtanh b f w => some (b, f, w)
  | .vsigmoid b f w => some (b, f, w)
  | .verf b f w => some (b, f, w)
  | .vsin b f w => some (b, f, w)
  | .vcos b f w => some (b, f, w)
  | .vslidedn b f w => some (b, f, w)
  | .vslideup b f w => some (b, f, w)
  | .vperm b f w => some (b, f, w)
  | .vmerge b f w => some (b, f, w)
  | .vld b f w => some (b, f, w)
  | .vst b f w => some (b, f, w)
  | .vstSp b f w => some (b, f, w)
  | .vrb b f w => some (b, f, w)
  | .vldSp b f w => some (b, f, w)
  | .vsmxStat b f w => some (b, f, w)
  | .vsmxMerge b f w => some (b, f, w)
  | .vsmxWgt b f w => some (b, f, w)
  | .vsmxNorm b f w => some (b, f, w)
  | .voptApply b f w => some (b, f, w)
  | .voptRd b f w => some (b, f, w)
  | .vrngU32 b f w => some (b, f, w)
  | .vrngUnif b f w => some (b, f, w)
  | .vrngKeep b f w => some (b, f, w)
  | .twSum b f w => some (b, f, w)
  | .twSumsq b f w => some (b, f, w)
  | .twMax b f w => some (b, f, w)
  | .twMin b f w => some (b, f, w)
  | .twAmax b f w => some (b, f, w)
  | .twArgmax b f w => some (b, f, w)
  | .twCountNonfinite b f w => some (b, f, w)
  | .twCrd b f w => some (b, f, w)
  | .twCclr b f w => some (b, f, w)
  | .add b f w => some (b, f, w)
  | .sub b f w => some (b, f, w)
  | .and b f w => some (b, f, w)
  | .or b f w => some (b, f, w)
  | .xor b f w => some (b, f, w)
  | .sll b f w => some (b, f, w)
  | .srl b f w => some (b, f, w)
  | .sra b f w => some (b, f, w)
  | .slt b f w => some (b, f, w)
  | .sltu b f w => some (b, f, w)
  | .mul b f w => some (b, f, w)
  | .mulh b f w => some (b, f, w)
  | .mulhu b f w => some (b, f, w)
  | .div b f w => some (b, f, w)
  | .divu b f w => some (b, f, w)
  | .rem b f w => some (b, f, w)
  | .remu b f w => some (b, f, w)
  | .min b f w => some (b, f, w)
  | .max b f w => some (b, f, w)
  | .minu b f w => some (b, f, w)
  | .maxu b f w => some (b, f, w)
  | .clz b f w => some (b, f, w)
  | .ctz b f w => some (b, f, w)
  | .popc b f w => some (b, f, w)
  | .addi b f w => some (b, f, w)
  | .andi b f w => some (b, f, w)
  | .ori b f w => some (b, f, w)
  | .xori b f w => some (b, f, w)
  | .slli b f w => some (b, f, w)
  | .srli b f w => some (b, f, w)
  | .srai b f w => some (b, f, w)
  | .slti b f w => some (b, f, w)
  | .sltiu b f w => some (b, f, w)
  | .movi b f w => some (b, f, w)
  | .movhi b f w => some (b, f, w)
  | .fadd b f w => some (b, f, w)
  | .fsub b f w => some (b, f, w)
  | .fmul b f w => some (b, f, w)
  | .fdiv b f w => some (b, f, w)
  | .fsqrt b f w => some (b, f, w)
  | .fmin b f w => some (b, f, w)
  | .fmax b f w => some (b, f, w)
  | .fma b f w => some (b, f, w)
  | .fcmpEq b f w => some (b, f, w)
  | .fcmpLt b f w => some (b, f, w)
  | .fcmpLe b f w => some (b, f, w)
  | .fcvtI b f w => some (b, f, w)
  | .fcvtF b f w => some (b, f, w)
  | .fcvtP b f w => some (b, f, w)
  | .ldlB b f w => some (b, f, w)
  | .ldlBu b f w => some (b, f, w)
  | .ldlH b f w => some (b, f, w)
  | .ldlHu b f w => some (b, f, w)
  | .ldlW b f w => some (b, f, w)
  | .ldlWu b f w => some (b, f, w)
  | .ldlD b f w => some (b, f, w)
  | .stlB b f w => some (b, f, w)
  | .stlH b f w => some (b, f, w)
  | .stlW b f w => some (b, f, w)
  | .stlD b f w => some (b, f, w)
  | .ldv b f w => some (b, f, w)
  | .stv b f w => some (b, f, w)
  | .amoadd b f w => some (b, f, w)
  | .amoswap b f w => some (b, f, w)
  | .amocas b f w => some (b, f, w)
  | .beq b f w => some (b, f, w)
  | .bne b f w => some (b, f, w)
  | .blt b f w => some (b, f, w)
  | .bge b f w => some (b, f, w)
  | .bltu b f w => some (b, f, w)
  | .bgeu b f w => some (b, f, w)
  | .jal b f w => some (b, f, w)
  | .jalr b f w => some (b, f, w)
  | .wait b f w => some (b, f, w)
  | .waitany b f w => some (b, f, w)
  | .waitT b f w => some (b, f, w)
  | .tkst b f w => some (b, f, w)
  | .ftnow b f w => some (b, f, w)
  | .ftwait b f w => some (b, f, w)
  | .ftstat b f w => some (b, f, w)
  | .exit b f w => some (b, f, w)
  | .fence b f w => some (b, f, w)
  | .csrr b f w => some (b, f, w)
  | .csrw b f w => some (b, f, w)
  | .nop b f w => some (b, f, w)
  | .brk b f w => some (b, f, w)
  | .move b f w => some (b, f, w)
  | .moveFill b f w => some (b, f, w)
  | .moveNc b f w => some (b, f, w)
  | .plait b f w => some (b, f, w)
  | .plaitFence b f w => some (b, f, w)
  | .plaitHrel b f w => some (b, f, w)
  | .illegalInstruction b f w => some (b, f, w)
  | _ => none

/-! ### The minors of each major -/

/-- Major 0x00. -/
def decodeReg (b : Nat) (f : Bool) (w : Word) : Nat → Option Instr
  | 0x00 => some (.add b f w)
  | 0x01 => some (.sub b f w)
  | 0x02 => some (.and b f w)
  | 0x03 => some (.or b f w)
  | 0x04 => some (.xor b f w)
  | 0x05 => some (.sll b f w)
  | 0x06 => some (.srl b f w)
  | 0x07 => some (.sra b f w)
  | 0x08 => some (.slt b f w)
  | 0x09 => some (.sltu b f w)
  | 0x0A => some (.mul b f w)
  | 0x0B => some (.mulh b f w)
  | 0x0C => some (.mulhu b f w)
  | 0x0D => some (.div b f w)
  | 0x0E => some (.divu b f w)
  | 0x0F => some (.rem b f w)
  | 0x10 => some (.remu b f w)
  | 0x11 => some (.min b f w)
  | 0x12 => some (.max b f w)
  | 0x13 => some (.minu b f w)
  | 0x14 => some (.maxu b f w)
  | 0x15 => some (.clz b f w)
  | 0x16 => some (.ctz b f w)
  | 0x17 => some (.popc b f w)
  | _ => none

/-- Major 0x01. -/
def decodeImm (b : Nat) (f : Bool) (w : Word) : Nat → Option Instr
  | 0x00 => some (.addi b f w)
  | 0x02 => some (.andi b f w)
  | 0x03 => some (.ori b f w)
  | 0x04 => some (.xori b f w)
  | 0x05 => some (.slli b f w)
  | 0x06 => some (.srli b f w)
  | 0x07 => some (.srai b f w)
  | 0x08 => some (.slti b f w)
  | 0x09 => some (.sltiu b f w)
  | _ => none

/-- Major 0x02. -/
def decodeWide (b : Nat) (f : Bool) (w : Word) : Nat → Option Instr
  | 0x00 => some (.movi b f w)
  | 0x01 => some (.movhi b f w)
  | _ => none

/-- Major 0x03. -/
def decodeFloat (b : Nat) (f : Bool) (w : Word) : Nat → Option Instr
  | 0x00 => some (.fadd b f w)
  | 0x01 => some (.fsub b f w)
  | 0x02 => some (.fmul b f w)
  | 0x03 => some (.fdiv b f w)
  | 0x04 => some (.fsqrt b f w)
  | 0x05 => some (.fmin b f w)
  | 0x06 => some (.fmax b f w)
  | 0x07 => some (.fma b f w)
  | 0x08 => some (.fcmpEq b f w)
  | 0x09 => some (.fcmpLt b f w)
  | 0x0A => some (.fcmpLe b f w)
  | 0x0B => some (.fcvtI b f w)
  | 0x0C => some (.fcvtF b f w)
  | 0x0D => some (.fcvtP b f w)
  | _ => none

/-- Major 0x04. -/
def decodeLocal (b : Nat) (f : Bool) (w : Word) : Nat → Option Instr
  | 0x00 => some (.ldlB b f w)
  | 0x01 => some (.ldlBu b f w)
  | 0x02 => some (.ldlH b f w)
  | 0x03 => some (.ldlHu b f w)
  | 0x04 => some (.ldlW b f w)
  | 0x05 => some (.ldlWu b f w)
  | 0x06 => some (.ldlD b f w)
  | 0x08 => some (.stlB b f w)
  | 0x09 => some (.stlH b f w)
  | 0x0A => some (.stlW b f w)
  | 0x0B => some (.stlD b f w)
  | _ => none

/-- Major 0x05. -/
def decodeVirtual (b : Nat) (f : Bool) (w : Word) : Nat → Option Instr
  | 0x00 => some (.ldv b f w)
  | 0x01 => some (.stv b f w)
  | 0x02 => some (.amoadd b f w)
  | 0x03 => some (.amoswap b f w)
  | 0x04 => some (.amocas b f w)
  | _ => none

/-- Major 0x08. -/
def decodeBranch (b : Nat) (f : Bool) (w : Word) : Nat → Option Instr
  | 0x00 => some (.beq b f w)
  | 0x01 => some (.bne b f w)
  | 0x02 => some (.blt b f w)
  | 0x03 => some (.bge b f w)
  | 0x04 => some (.bltu b f w)
  | 0x05 => some (.bgeu b f w)
  | 0x06 => some (.jal b f w)
  | 0x07 => some (.jalr b f w)
  | _ => none

/-- Major 0x10. -/
def decodeWeave (b : Nat) (f : Bool) (w : Word) : Nat → Option Instr
  | 0x00 => some (.weave b f w)
  | _ => none

/-- Major 0x11. -/
def decodeStake (b : Nat) (f : Bool) (w : Word) : Nat → Option Instr
  | 0x00 => some (.stakeLd b f w)
  | 0x01 => some (.stakeInv b f w)
  | 0x02 => some (.stakeStat b f w)
  | _ => none

/-- Major 0x18. -/
def decodeVcfg (b : Nat) (f : Bool) (w : Word) : Nat → Option Instr
  | 0x00 => some (.vsetvl b f w)
  | 0x01 => some (.vmvS b f w)
  | 0x02 => some (.vcfg b f w)
  | 0x03 => some (.vcfgRd b f w)
  | 0x04 => some (.mpop b f w)
  | 0x05 => some (.vmvV b f w)
  | _ => none

/-- Major 0x19. -/
def decodeVarith (b : Nat) (f : Bool) (w : Word) : Nat → Option Instr
  | 0x00 => some (.vadd b f w)
  | 0x01 => some (.vsub b f w)
  | 0x02 => some (.vmul b f w)
  | 0x03 => some (.vdiv b f w)
  | 0x04 => some (.vmin b f w)
  | 0x05 => some (.vmax b f w)
  | 0x06 => some (.vabs b f w)
  | 0x07 => some (.vneg b f w)
  | _ => none

/-- Major 0x1A. -/
def decodeVfma (b : Nat) (f : Bool) (w : Word) : Nat → Option Instr
  | 0x00 => some (.vfma b f w)
  | 0x01 => some (.vfms b f w)
  | 0x02 => some (.vfnma b f w)
  | _ => none

/-- Major 0x1B. -/
def decodeVcmp (b : Nat) (f : Bool) (w : Word) : Nat → Option Instr
  | 0x00 => some (.vcmpEq b f w)
  | 0x01 => some (.vcmpLt b f w)
  | 0x02 => some (.vcmpLe b f w)
  | 0x03 => some (.vcmpUn b f w)
  | 0x04 => some (.mand b f w)
  | 0x05 => some (.mor b f w)
  | 0x06 => some (.mxor b f w)
  | 0x07 => some (.mnot b f w)
  | _ => none

/-- Major 0x1C. -/
def decodeVint (b : Nat) (f : Bool) (w : Word) : Nat → Option Instr
  | 0x00 => some (.viadd b f w)
  | 0x01 => some (.visub b f w)
  | 0x02 => some (.vimul b f w)
  | 0x03 => some (.vand b f w)
  | 0x04 => some (.vor b f w)
  | 0x05 => some (.vxor b f w)
  | 0x06 => some (.vsll b f w)
  | 0x07 => some (.vsrl b f w)
  | 0x08 => some (.vsra b f w)
  | _ => none

/-- Major 0x1D. -/
def decodeVcvt (b : Nat) (f : Bool) (w : Word) : Nat → Option Instr
  | 0x00 => some (.vcvt b f w)
  | _ => none

/-- Major 0x1E. -/
def decodeVtrans (b : Nat) (f : Bool) (w : Word) : Nat → Option Instr
  | 0x00 => some (.vexp b f w)
  | 0x01 => some (.vexp2 b f w)
  | 0x02 => some (.vlog b f w)
  | 0x03 => some (.vlog2 b f w)
  | 0x04 => some (.vrcp b f w)
  | 0x05 => some (.vsqrt b f w)
  | 0x06 => some (.vrsqrt b f w)
  | 0x07 => some (.vtanh b f w)
  | 0x08 => some (.vsigmoid b f w)
  | 0x09 => some (.verf b f w)
  | 0x0A => some (.vsin b f w)
  | 0x0B => some (.vcos b f w)
  | _ => none

/-- Major 0x1F. -/
def decodeVperm (b : Nat) (f : Bool) (w : Word) : Nat → Option Instr
  | 0x00 => some (.vslidedn b f w)
  | 0x01 => some (.vslideup b f w)
  | 0x02 => some (.vperm b f w)
  | 0x03 => some (.vmerge b f w)
  | _ => none

/-- Major 0x20. -/
def decodeVmem (b : Nat) (f : Bool) (w : Word) : Nat → Option Instr
  | 0x00 => some (.vld b f w)
  | 0x01 => some (.vst b f w)
  | _ => none

/-- Major 0x21. -/
def decodeVreblock (b : Nat) (f : Bool) (w : Word) : Nat → Option Instr
  | 0x00 => some (.vstSp b f w)
  | 0x01 => some (.vrb b f w)
  | 0x02 => some (.vldSp b f w)
  | _ => none

/-- Major 0x22. -/
def decodeVsoftmax (b : Nat) (f : Bool) (w : Word) : Nat → Option Instr
  | 0x00 => some (.vsmxStat b f w)
  | 0x01 => some (.vsmxMerge b f w)
  | 0x02 => some (.vsmxWgt b f w)
  | 0x03 => some (.vsmxNorm b f w)
  | _ => none

/-- Major 0x23. -/
def decodeVopt (b : Nat) (f : Bool) (w : Word) : Nat → Option Instr
  | 0x00 => some (.voptApply b f w)
  | 0x01 => some (.voptRd b f w)
  | _ => none

/-- Major 0x24. -/
def decodeVrng (b : Nat) (f : Bool) (w : Word) : Nat → Option Instr
  | 0x00 => some (.vrngU32 b f w)
  | 0x01 => some (.vrngUnif b f w)
  | 0x02 => some (.vrngKeep b f w)
  | _ => none

/-- Major 0x28. -/
def decodeTwine (b : Nat) (f : Bool) (w : Word) : Nat → Option Instr
  | 0x00 => some (.twSum b f w)
  | 0x01 => some (.twSumsq b f w)
  | 0x02 => some (.twMax b f w)
  | 0x03 => some (.twMin b f w)
  | 0x04 => some (.twAmax b f w)
  | 0x05 => some (.twArgmax b f w)
  | 0x06 => some (.twCountNonfinite b f w)
  | _ => none

/-- Major 0x29. -/
def decodeTwineCount (b : Nat) (f : Bool) (w : Word) : Nat → Option Instr
  | 0x00 => some (.twCrd b f w)
  | 0x01 => some (.twCclr b f w)
  | _ => none

/-- Major 0x2C. -/
def decodeMove (b : Nat) (f : Bool) (w : Word) : Nat → Option Instr
  | 0x00 => some (.move b f w)
  | 0x01 => some (.moveFill b f w)
  | 0x02 => some (.moveNc b f w)
  | 0x03 => some (.moveNc b f w)
  | _ => none

/-- Major 0x30. -/
def decodePlait (b : Nat) (f : Bool) (w : Word) : Nat → Option Instr
  | 0x00 => some (.plait b f w)
  | 0x01 => some (.plaitFence b f w)
  | 0x02 => some (.plaitHrel b f w)
  | _ => none

/-- Major 0x34. -/
def decodeSync (b : Nat) (f : Bool) (w : Word) : Nat → Option Instr
  | 0x00 => some (.wait b f w)
  | 0x01 => some (.waitany b f w)
  | 0x02 => some (.waitT b f w)
  | 0x03 => some (.tkst b f w)
  | 0x08 => some (.ftnow b f w)
  | 0x09 => some (.ftwait b f w)
  | 0x0A => some (.ftstat b f w)
  | _ => none

/-- Major 0x38. -/
def decodeSystem (b : Nat) (f : Bool) (w : Word) : Nat → Option Instr
  | 0x00 => some (.exit b f w)
  | 0x01 => some (.fence b f w)
  | 0x02 => some (.csrr b f w)
  | 0x03 => some (.csrw b f w)
  | 0x04 => some (.nop b f w)
  | 0x05 => some (.brk b f w)
  | _ => none

/-- The row that a word of the core spells, and none where no chapter defines its major and minor (R162). -/
def decodeCore? (b : Nat) (f : Bool) (w : Word) : Option Instr :=
  match wMajor w with
  | 0x00 => decodeReg b f w (wMinor w)
  | 0x01 => decodeImm b f w (wMinor w)
  | 0x02 => decodeWide b f w (wMinor w)
  | 0x03 => decodeFloat b f w (wMinor w)
  | 0x04 => decodeLocal b f w (wMinor w)
  | 0x05 => decodeVirtual b f w (wMinor w)
  | 0x08 => decodeBranch b f w (wMinor w)
  | 0x10 => decodeWeave b f w (wMinor w)
  | 0x11 => decodeStake b f w (wMinor w)
  | 0x18 => decodeVcfg b f w (wMinor w)
  | 0x19 => decodeVarith b f w (wMinor w)
  | 0x1A => decodeVfma b f w (wMinor w)
  | 0x1B => decodeVcmp b f w (wMinor w)
  | 0x1C => decodeVint b f w (wMinor w)
  | 0x1D => decodeVcvt b f w (wMinor w)
  | 0x1E => decodeVtrans b f w (wMinor w)
  | 0x1F => decodeVperm b f w (wMinor w)
  | 0x20 => decodeVmem b f w (wMinor w)
  | 0x21 => decodeVreblock b f w (wMinor w)
  | 0x22 => decodeVsoftmax b f w (wMinor w)
  | 0x23 => decodeVopt b f w (wMinor w)
  | 0x24 => decodeVrng b f w (wMinor w)
  | 0x28 => decodeTwine b f w (wMinor w)
  | 0x29 => decodeTwineCount b f w (wMinor w)
  | 0x2C => decodeMove b f w (wMinor w)
  | 0x30 => decodePlait b f w (wMinor w)
  | 0x34 => decodeSync b f w (wMinor w)
  | 0x38 => decodeSystem b f w (wMinor w)
  | _ => none

/-- The row that a word of the core spells; an undefined word is an illegal instruction (R162). -/
def decodeCore (b : Nat) (f : Bool) (w : Word) : Instr := (decodeCore? b f w).getD (.illegalInstruction b f w)

/-- No row of the table has bits (DESIGN CHOICE, log entry 70). -/
def decodeTableWord (_nbits _w : Nat) : Option Instr := none

end Sys2Proof
end

