-- ==== Sys2Proof/Machine/Access.lean ====
section
/-!
DEFINITION. A write of a register, judged field by field (R3, R5, R456, R492, R541, R542), and the commands that registers
start (R495). The units' own files say what a write does besides.
-/

namespace Sys2Proof.Machine

/-! ### Authority (R492) -/

/-- May a class write fields of an owner? A notification ring is the operator's where it is the chip ring, and otherwise the
driver's (DESIGN CHOICE, log entry 20) (DESIGN CHOICE, log entry 36). -/
def ownAllows (o : Own) (a : Auth) (off : Nat) : Bool :=
  match o, a with
  | .op, .operator | .dr, .driver | .opDr, .operator | .opDr, .driver | .dbg, .debug => true
  | .fw, .firmware | .fwDr, .firmware | .fwDr, .driver => true
  | .ring, .operator => decide (SCH_NRING_BASE 16 ≤ off)
  | .ring, .driver => decide (off < SCH_NRING_BASE 16)
  | _, _ => false

/-- Does a write of a class come in on a path (R492)? The path decides the class. -/
def comesOn (a : Auth) (p : Path) : Bool :=
  match a, p with
  | .firmware, .internal | .tenant, .internal | .device, .internal | .device, .trigger | .driver, .josil => true
  | .operator, .mgmt0 | .operator, .mgmt1 | .debug, .mgmt0 | .debug, .mgmt1 | .debug, .debugPort => true
  | _, _ => false

/-- The partitions that the companion driver owns: there is one companion, so every partition that exists (log entry 20). -/
def State.driverOwns (s : State) (p : Nat) : Bool := s.partExists p

/-! ### Judging a write (R541) -/

/-- What the fields seen so far make of a write: the register after it, and whether a field was landed on or attempted. -/
structure Judged where
  value : Nat
  landed : Bool
  attempted : Bool
  deriving DecidableEq, Repr

/-- Judge one field: `old` is the register before, `v` the value written, `may` whether the writer owns the field (DESIGN CHOICE, log entry 36). -/
def judgeField (old v : Nat) (may : FieldSpec → Bool) (j : Judged) (f : FieldSpec) : Judged :=
  match f.acc with
  | .ro | .rsv | .wo => j
  | .rw => { j with value := withBits j.value f.hi f.lo (bits v f.hi f.lo) }
  | .w1c => { j with value := withBits j.value f.hi f.lo (bits old f.hi f.lo &&& (bits v f.hi f.lo ^^^ (2 ^ (f.hi + 1 - f.lo) - 1))) }
  | .rwl | .wol =>
    if may f then { j with value := withBits j.value f.hi f.lo (bits v f.hi f.lo), landed := true }
    else if bits old f.hi f.lo ≠ bits v f.hi f.lo then { j with attempted := true } else j

/-- Judge a whole write. -/
def judge (fields : List FieldSpec) (old v : Nat) (may : FieldSpec → Bool) : Judged :=
  fields.foldl (judgeField old v may) ⟨old, false, false⟩

/-- The fields of the register at an offset. -/
def regFields (off : Nat) : List FieldSpec :=
  match findReg regTable off with
  | some (r, _) => r.fields
  | none => []

/-- Is a register the session key, which the journal never shows (R493)? -/
def isKeyReg (off : Nat) : Bool := decide (LID_KEY 0 ≤ off) && decide (off ≤ LID_KEY 3)

/-- A value as the journal shows it. -/
def shown (off : Nat) (v : Word) : Word := if isKeyReg off then 0 else v

/-- A write without authority, refused and journaled: nothing changes, and the lid's last code is AUTH_REFUSED (R492, R499) (DEDUCED, log entry 35). -/
def State.refuseAuth (s : State) (a : Auth) (p : Path) (off : Nat) (old v : Word) : State :=
  (s.journal a p jRefused off (shown off old) (shown off v)).lastCode LID_STATUS_LAST_CODE AUTH_REFUSED

/-- Store a write and journal it (R541): a WRITE record where it lands on a field of its authority, a REFUSED record where it
attempts a field of another. A tenant writes no register, so no RW or W1C field either (R28, R492). `fix` is what the register makes of a value that lands. -/
def State.storeWith (s : State) (a : Auth) (p : Path) (off : Nat) (v : Word) (may : FieldSpec → Bool)
    (fix : Nat → Nat := id) : State :=
  let old := s.reg off
  let j := judge (regFields off) old.toNat v.toNat may
  let new := if a = .tenant then s.reg off else BitVec.ofNat 64 (if j.landed then fix j.value else j.value)
  let s := s.setReg off new
  let s := if j.landed then s.journal a p jWrite off (shown off old) (shown off new) else s
  if j.attempted then s.refuseAuth a p off old v else s

/-- Store a write under the authorities of the register table; `locked` closes every RWL field (DEDUCED, log entry 35). -/
def State.store (s : State) (a : Auth) (p : Path) (off : Nat) (v : Word) (locked : Bool := false) : State :=
  s.storeWith a p off v fun f => !locked && ownAllows f.own a off

/-- A write that is refused or ignored, and journaled: nothing changes (DEDUCED, log entry 35). -/
def State.refuse (s : State) (a : Auth) (p : Path) (off : Nat) (v : Word) : State :=
  s.journal a p jRefused off (shown off (s.reg off)) (shown off v)

/-! ### Whether a write reaches its register -/

/-- Is the unit of an offset absent (R3)? Blocks, rim links and the step replay recorder can be. -/
def State.unitAbsent (s : State) (off : Nat) : Bool :=
  if decide (0x1000000 ≤ off) && decide (off < 0x1800000) then !s.blockPresent ((off - 0x1000000) / 0x10000)
  else if decide (0x2100000 ≤ off) && decide (off < 0x2190000) then !s.linkPresent ((off - 0x2100000) / 0x4000)
  else decide (0x2410000 ≤ off) && decide (off < 0x2420000) && !s.flag DIM_UNITS_STEP_REPLAY

/-- Is the control range of an offset served (R456)? -/
def State.served (s : State) (off : Nat) : Bool :=
  let r := off / 0x10000
  (s.ready || r == 0 || r == 2 || r == 3 || r == 0x250) && !(r == 2 && s.flag RST_STATUS_LID_WEDGED)

/-- A register write on its way: it needs the device powered, a class that its path carries (R492), for the operator a session key
installed (R493), debug authority only where it exists (R542), a served range for a writer outside the device, and a unit that is
present. -/
def State.arrives (s : State) (a : Auth) (p : Path) (off : Nat) (v : Word) (act : State → State) : State :=
  if !s.powered || !comesOn a p || (a = .operator && s.lid.key.isNone) then s
  else if a = .debug && !s.flag LID_AUTH_DEBUG_EN then s.refuseAuth a p off (s.reg off) v
  else if !(decide (p = .internal) || decide (p = .trigger) || s.served off) then s
  else if s.unitAbsent off then s
  else act s

/-- The COMMAND record of a write that starts a command (R495) (DEDUCED, log entry 35). -/
def State.commandRecord (s : State) (a : Auth) (p : Path) (off : Nat) (old v : Word) : State :=
  s.journal a p jCommand off old v

/-- Is a coil ring entry enabled (R390)? -/
def State.coilOn (s : State) : Bool := (List.range 16).any fun e => s.flag (COL_CTRL_EN e)

/-- A repair of the device in service, sent as a REPAIR mail (R482, R484). -/
def State.mailRepair (s : State) (kind unit index : Nat) (value : Nat) : State :=
  s.sendMail 3 ([BitVec.ofNat 8 kind, 0] ++ leBytes unit 2 ++ leBytes index 4 ++ leBytes value 8)

end Sys2Proof.Machine
end

