-- ==== Sys2Proof/Machine/CoreOps.lean ====
section
/-!
DEFINITION. What the block core does with every instruction: whether a set can issue, retiring, stalling and faulting (R166,
R174, R186 to R190), its checks (R196 to R198), and tickets with their completion (R173 to R175, R187, R193, R534).
-/

namespace Sys2Proof.Machine

/-! ### Faults of a task -/

/-- KIND of a core fault (R189). -/
def kindIssue : Nat := 0x00
def kindCheck : Nat := 0x40
def kindNoTicket : Nat := 0x60
def kindTicket (t : Nat) : Nat := 0x80 + t

/-- The notification of a core fault (R189). -/
def coreNote (tag : Nat) (b : Nat) (f : Bool) (kind code pc : Nat) (word : Nat) : Note :=
  ⟨some tag, code, 0x0100 + b, pc % 2 ^ 48 + b2n f * 2 ^ 48 + kind * 2 ^ 56, word⟩

/-- The order of the faults of one clk (R187, R188): completion faults by ticket, then one without a ticket, then those found at
issue. -/
def CoreErr.rank (e : CoreErr) : Nat := if 0x80 ≤ e.kind then e.kind - 0x80 else if e.kind = kindNoTicket then 32 else 33

/-- Which of two faults of one clk a set reports: of equals the one seen first. -/
def CoreErr.first : Option CoreErr → CoreErr → CoreErr
  | some x, y => if y.rank < x.rank then y else x
  | none, y => y

/-- Has a set of a block a fault to report? -/
def BlkState.faultDue (x : BlkState) : Bool := x.main.fault.isSome || x.fill.fault.isSome

/-- A fault of a task on block `b` is seen (R186 to R190): it halts both sets. Each set keeps the first of its clk, in the order of
R188, to be reported as the next clk begins; every fault but one adds 1 to MORE, up to the teardown's end (DEDUCED, log entry 96). -/
def State.coreFault (s : State) (b : Nat) (f : Bool) (kind code pc word : Nat) : State :=
  let seen := s.flag (BLK_CORE_STATUS_FAULTED b)
  if seen && !(s.bst b).faultDue then s.count (BLK_CORE_FAULT_MORE b) 1
  else
    match (s.blk b).ctx with
    | none => s
    | some c =>
      let s := if seen then s.count (BLK_CORE_FAULT_MORE b) 1
        else (s.setFld (BLK_CORE_FAULT_MORE b) 0).setFlag (BLK_CORE_STATUS_FAULTED b) true
      s.modSet b f fun x => { x with fault := some (CoreErr.first x.fault ⟨s.tagOf c, kind, code, pc, word⟩) }

/-- A set reports its fault: the registers show it, and the notification carries the tag from before the bump. -/
def State.reportSet (s : State) (b : Nat) (f show_ : Bool) : State :=
  match (s.cset b f).fault with
  | none => s
  | some e =>
    let s :=
      if show_ then
        let s := s.setFld (BLK_CORE_FAULT_CODE b) e.code
        let s := s.setFld (BLK_CORE_FAULT_KIND b) e.kind
        let s := s.setFld (BLK_CORE_FAULT_SET b) (b2n f)
        let s := s.setFld (BLK_CORE_FAULT_DETAIL b) e.word
        let s := s.setFld (BLK_CORE_FAULT_PC_ADDR b) e.pc
        s.lastCode (BLK_CORE_STATUS_LAST_CODE b) e.code
      else s
    let s := s.modSet b f fun x => { x with fault := none }
    let s := if s.tagCurrent e.tag then s.teardown (e.tag / 256) else s
    s.post (coreNote e.tag b f e.kind e.code e.pc e.word)

/-- The faults that block `b` has seen are reported, and the teardown starts (R188): CORE_FAULT shows the first of the two sets'
(DEDUCED, log entry 96). -/
def State.reportFaults (s : State) (b : Nat) : State :=
  let fillFirst := match (s.bst b).main.fault, (s.bst b).fill.fault with
    | some x, some y => decide (y.rank < x.rank)
    | none, some _ => true
    | _, none => false
  (s.reportSet b fillFirst true).reportSet b (!fillFirst) (s.cset b fillFirst).fault.isNone

/-- Every block reports the faults that it has seen. -/
def State.reportDue (s : State) : State := s.forEach ((s.blks.filter fun e => e.2.st.faultDue).map (·.1)) State.reportFaults

/-- Fabric time as block `b`'s copy shows it: equal to FTU_NOW or 1 less (R178, log entry 6). -/
def State.blockNow (s : State) (b : Nat) : Nat := if Config.blockLag b then s.now - 1 else s.now

/-! ### Issue -/

/-- Does a synchronous instruction wait past issue (R191)? -/
def Wait.pastIssue : Wait → Bool
  | .sync _ => true
  | _ => false

/-- Are the array and the stake queue of a block to stop at their next boundary? Not while the core has still to complete a STAKE.STAT,
which waits for them (R82, R111, R191, R192) (DEDUCED, log entry 96). -/
def State.unitsHalt (s : State) (b : Nat) : Bool :=
  decide ((s.blk b).phase = .stopping) && ((s.blk b).discard || !((s.cset b false).wait == .sync true || (s.cset b true).wait == .sync true))

/-- Does block `b` run, or does a synchronous instruction past issue complete in it before it stops (R191)? -/
def State.coreRuns (s : State) (b : Nat) (f : Bool) : Bool :=
  match (s.blk b).phase with
  | .idle => true
  | .stopping => (s.cset b f).wait.pastIssue && !(s.blk b).discard
  | _ => false

/-- Can a set of block `b` issue? The block runs, a task is placed in the set, nothing halts it, and MAIN issues only while no
fill task is placed (R177) (DESIGN CHOICE, log entry 2). -/
def State.canIssue (s : State) (b : Nat) (f : Bool) : Bool :=
  s.powered && s.blockPresent b && !s.blockOut b && s.coreRuns b f && (s.blk b).ctx.isSome &&
    !(s.blk b).inReset && (s.cset b f).placed && (s.cset b f).exited.isNone && (f || !(s.bst b).fill.placed) &&
    !s.flag (BLK_CORE_STATUS_FAULTED b) && !s.flag (BLK_CORE_STATUS_HALTED b) && !s.flag (BLK_CORE_STATUS_SELFTEST b) &&
    !s.flag PWR_STATUS_STOP

/-- What becomes of an instruction at issue. -/
inductive Act
  /-- it retires and the next instruction follows -/
  | retire (s : State)
  /-- it retires and the program counter goes to an address -/
  | jump (s : State) (pc : Word)
  /-- it raises a precise fault and has no other effect than what `s` holds of counters and checks -/
  | fault (s : State) (code : Nat)
  /-- it has not retired: it is issued again -/
  | hold (s : State) (w : Wait)
  /-- a read of the core scratch has mismatched (R196, R197) -/
  | parity (s : State) (injected : Bool)

/-- REPLAY_LIMIT of a core: 0 is treated as 1. -/
def State.coreLimit (s : State) (b : Nat) : Nat := Nat.max 1 (s.fld (BLK_CORE_CTRL_REPLAY_LIMIT b))

/-- An instruction retires with a next pc (R166, R185, R199): the counters rise, and a self-test that a re-execution has
called for starts at this boundary (R197). -/
def State.retireTo (s : State) (b : Nat) (f : Bool) (pc : Word) : State :=
  let s := s.modSet b f fun x => { x with pc := pc, retired := x.retired + 1, wait := .none }
  let s := s.count (BLK_CORE_RETIRED_COUNT b) 1
  if (s.blk b).coreFails = 0 then s
  else (s.modBlk b fun x => { x with coreFails := 0 }).setFlag (BLK_CORE_STATUS_SELFTEST b) true

/-- A clk passes in which the set that issues on block `b` stalls (R185). -/
def State.stallClk (s : State) (b : Nat) : State :=
  let f := (s.bst b).fill.placed
  if s.canIssue b f && (s.cset b f).wait != .none then s.modSet b f fun x => { x with cycles := x.cycles + 1 } else s

/-- A clk passes for every core. -/
def State.stallClks (s : State) : State := s.forEach ((s.blks.filter fun e => e.2.st.main.placed).map (·.1)) State.stallClk

/-- A parity mismatch calls for the core's self-test (R197): it is counted, and the test that follows is of an injection only where
nothing real has called for it as well (R537). -/
def State.parityTest (s : State) (b : Nat) (injected : Bool) : State :=
  let due := s.flag (BLK_CORE_STATUS_SELFTEST b) || (s.blk b).coreFails != 0
  let s := s.count (BLK_CORE_COUNT_PARITY b) 1
  let s := s.setFlag (BLK_CORE_STATUS_SELFTEST b) true
  s.modBlk b fun x => { x with coreTestInjected := injected && (!due || x.coreTestInjected), coreFails := 0 }

/-- A parity mismatch of the core (R196, R197): CORE_PARITY for the context, and the core is tested. -/
def State.coreParity (s : State) (b : Nat) (f : Bool) (injected : Bool) : State :=
  (s.parityTest b injected).coreFault b f kindCheck CORE_PARITY (s.cset b f).pc.toNat 0

/-- Commit what an instruction did. -/
def State.settleAct (s0 : State) (b : Nat) (f : Bool) (w : Word) : Act → State
  | .retire s => s.retireTo b f ((s0.cset b f).pc + 8)
  | .jump s pc => s.retireTo b f pc
  | .fault s code => s.coreFault b f kindIssue code (s0.cset b f).pc.toNat w.toNat
  | .hold s wt => s.modSet b f fun x => { x with wait := wt }
  | .parity s injected => s.coreParity b f injected

/-- The fault of the instruction fetch at a set's pc, if there is one (R182, R233, R252) (DESIGN CHOICE, log entry 2). -/
def State.fetchFault (s : State) (b : Nat) (f : Bool) : Option Nat :=
  match (s.blk b).ctx with
  | none => none
  | some c =>
    match s.translate c (s.cset b f).pc.toNat .fetch with
    | .error e => some e
    | .ok (_, pa) => if s.hbmPoisonedRange pa 8 then some POISONED else none

/-- Does the fetch at a set's pc wait for a frame test, of the instruction or of a table entry on the way to it (R247)? -/
def State.fetchWaits (s : State) (b : Nat) (f : Bool) : Bool :=
  match (s.blk b).ctx with
  | none => false
  | some c =>
    s.walkWaits c (s.cset b f).pc.toNat ||
      match s.translate c (s.cset b f).pc.toNat .fetch with
      | .error _ => false
      | .ok (_, pa) => s.frameBusy pa

/-- The fetch at a set's pc, where the instruction cache does not hold it, reads HBM: the entries of a walk, and the instruction (R182,
R246, R535). What the cache holds is free (DESIGN CHOICE, log entry 105). -/
def State.fetchRead (s : State) (b : Nat) (f : Bool) : State :=
  match (s.blk b).ctx with
  | none => s
  | some c =>
    let pc := (s.cset b f).pc.toNat
    if !Config.fetchMiss b pc s.clk then s
    else match s.translate c pc .fetch with
      | .ok (_, pa) => (s.walkReads c pc).checkHbmRead pa 8
      | .error _ => s.walkReads c pc

/-- The scalar registers that the word of a scalar instruction reads (R166 to R172). -/
def scalarReads (w : Word) : List Nat :=
  let n := wMinor w
  match wMajor w with
  | 0x00 => if 0x15 ≤ n then [wSa w] else [wSa w, wSb w]
  | 0x01 => [wSa w]
  | 0x02 => if n = 1 then [wSa w] else []
  | 0x03 => if n = 7 then [wSa w, wSb w, wDst w] else if n = 4 ∨ 0x0B ≤ n then [wSa w] else [wSa w, wSb w]
  | 0x04 => if 8 ≤ n then [wSa w, wSb w] else [wSa w]
  | 0x05 => if n = 0 then [wSa w] else if n = 4 then [wSa w, wSb w, wDst w] else [wSa w, wSb w]
  | _ => if n < 6 then [wSa w, wSb w] else if n = 7 then [wSa w] else []

/-- The scalar registers that the word of a vector or twine instruction reads (R127, R132 to R148): its other fields name vector and
mask registers. -/
def vectorReads (w : Word) : List Nat :=
  let n := wMinor w
  let x := wBits w 22 18
  match wMajor w with
  | 0x18 => if n = 0 ∨ n = 2 ∨ n = 5 then [wSa w] else []
  | 0x1F => if n < 2 then [wSb w] else []
  | 0x20 => if wVs w then [wSa w, wSb w] else [wSa w]
  | 0x21 => if n = 0 then [wDst w, wSb w, x] else if n = 1 then [wSa w, wSb w, wDst w, x] else [wSa w, wSb w]
  | 0x23 => if n = 0 then [wSb w] else []
  | 0x24 => if n = 2 then [wSa w, wSb w, x] else [wSa w, x]
  | 0x28 => if n = 1 ∨ n = 5 then [wSb w] else []
  | 0x29 => []
  | 0x22 => []
  | _ => if wVs w then [wSb w] else []

/-- The scalar registers that a word reads; s0 is no register (R163). -/
def wordReads (w : Word) : List Nat :=
  let m := wMajor w
  let n := wMinor w
  if m < 0x10 then scalarReads w
  else if m = 0x10 ∨ (m = 0x11 ∧ n = 0) then [wSa w, wSb w, wDst w]
  else if 0x18 ≤ m ∧ m < 0x2C then vectorReads w
  else if m = 0x2C then [wSa w, wSb w, wDst w, wBits w 31 27]
  else if m = 0x30 then (if n = 1 then [] else [wSa w])
  else if m = 0x34 then (if n = 2 then [wSa w, wSb w] else if n ≤ 1 ∨ n = 9 then [wSa w] else [])
  else if m = 0x38 ∧ (n = 0 ∨ n = 3) then [wSa w]
  else []

/-- Does a word read the ticket table or a CSR? The WAIT family, TKST and EXIT read tickets, an instruction that takes a ticket looks
at whether it is BUSY (R174), and CSRR reads a CSR. -/
def tableReads (w : Word) : Bool :=
  let m := wMajor w
  let n := wMinor w
  m == 0x10 || (m == 0x11 && n == 0) || (decide (0x18 ≤ m ∧ m < 0x2C) && wTk w) || m == 0x2C || m == 0x30 || (m == 0x34 && decide (n ≤ 3)) ||
    (m == 0x38 && (n == 0 || n == 2))

/-- The checks of `n` reads of scalar registers, one event each (R535). -/
def State.regReads (s : State) (b : Nat) : Nat → Option Hit × State
  | 0 => (none, s)
  | n + 1 =>
    let r := s.checkUnit .regParity b false
    let t := r.2.regReads b n
    (Hit.join r.1 t.1, t.2)

/-- The checks of what an instruction reads in the scalar registers, the ticket table and the CSRs (R196): what a parity mismatch
hits. -/
def State.regCheck (s : State) (b : Nat) (w : Word) : Option Hit × State :=
  let r := s.regReads b ((wordReads w).filter (· != 0)).length
  if tableReads w then
    let t := r.2.checkUnit .tableParity b false
    (Hit.join r.1 t.1, t.2)
  else r

/-- The clk that an attempt to issue takes: one that has stalled before is counted by the clk itself (R185). -/
def CoreSet.issueClk (x : CoreSet) : Word := if x.wait = .none then 1 else 0

/-- The parity check of the instruction cache (R196): a mismatch is refetched, which nothing but REFETCH shows. -/
def State.refetch (s : State) (b : Nat) : State :=
  match s.checkUnit .instrCache b false with
  | (some _, s) => s.count (BLK_CORE_COUNT_REFETCH b) 1
  | (none, s) => s

/-- Issue an instruction of block `b`'s set: its clk counts, its fetch and its register reads are checked, then it does
`body`. A fetch fault has no instruction word (R189) (DESIGN CHOICE, log entry 2). -/
def State.issue (s : State) (b : Nat) (f : Bool) (w : Word) (body : State → Act) : State :=
  if s.canIssue b f then
    let s := s.modSet b f fun x => { x with cycles := x.cycles + x.issueClk }
    if s.fetchWaits b f then s.modSet b f fun x => { x with wait := if x.wait = .none then .stall else x.wait }
    else match s.fetchFault b f with
    | some code => (s.fetchRead b f).coreFault b f kindIssue code (s.cset b f).pc.toNat 0
    | none =>
      match ((s.fetchRead b f).refetch b).regCheck b w with
      | (some h, s) => s.coreParity b f h.injected
      | (none, s) => s.settleAct b f w (body s)
  else s

/-- The residue check of a result (R196, R197): after a mismatch the instruction does not retire and is executed again; at the
limit it waits for CORE_REPLAY_LIMIT. -/
def State.residue (s0 : State) (b : Nat) (site : Site) : Act → Act
  | .retire s =>
    if s0.coreLimit b ≤ (s0.blk b).coreFails then .hold s0 (.sync false)
    else
      let last := decide (s0.coreLimit b ≤ (s0.blk b).coreFails + 1)
      match s0.checkUnit site b last with
      | (none, _) => .retire s
      | (some h, s0) =>
        let s0 := if last then s0 else s0.count (BLK_CORE_COUNT_REEXEC b) 1
        .hold (s0.modBlk b fun x =>
          { x with coreFails := x.coreFails + 1,
                   coreTestInjected := if x.coreFails = 0 then h.injected else x.coreTestInjected && h.injected }) (.sync false)
  | a => a

/-- Issue an instruction of the integer unit (R196). -/
def State.issueAlu (s : State) (b : Nat) (f : Bool) (w : Word) (body : State → Act) : State :=
  s.issue b f w fun s => s.residue b .aluResidue (body s)

/-- Issue an instruction of the scalar floating-point unit (R196). -/
def State.issueFpu (s : State) (b : Nat) (f : Bool) (w : Word) (body : State → Act) : State :=
  s.issue b f w fun s => s.residue b .fpuResidue (body s)

/-- The core of block `b` is failed (R198): the block leaves service. -/
def State.coreOut (s : State) (b : Nat) : State :=
  (s.setFlag (BLK_CORE_STATUS_OUT_OF_SERVICE b) true).blockLeaves b CORE_UNREPAIRABLE

/-- The core of block `b` is failed (R198): the block leaves service, and the context on it takes CORE_UNREPAIRABLE. -/
def State.coreFailed (s : State) (b : Nat) : State :=
  let s := s.coreOut b
  let f := (s.bst b).fill.placed
  s.coreFault b f kindCheck CORE_UNREPAIRABLE (s.cset b f).pc.toNat 0

/-! ### Tickets -/

/-- UNIT codes of R175. -/
def unitArray : Nat := 1
def unitStake : Nat := 2
def unitVector : Nat := 3
def unitMove : Nat := 4
def unitPlait : Nat := 5

/-- A completion word (R175). -/
def completionWord (detail unit code : Nat) : Word := BitVec.ofNat 64 (detail * 2 ^ 32 + unit * 2 ^ 24 + code)

/-- A ticket is taken by the instruction at issue: BUSY, with the unit and the instruction's address (R173, R187). -/
def State.takeTicket (s : State) (b : Nat) (f : Bool) (t unit : Nat) : State :=
  s.modSet b f fun x => x.setTicket t ⟨.busy, unit, x.pc.toNat, 0⟩

/-- Is a ticket BUSY? -/
def State.ticketBusy (s : State) (b : Nat) (f : Bool) (t : Nat) : Bool := decide (((s.cset b f).ticket t).st = .busy)

/-- Deliver a completion word to a ticket on a block (R175, R187): DONE, and a fault code is reported with the address of the
instruction that took the ticket. -/
def State.deliverLive (s : State) (b : Nat) (f : Bool) (t : Nat) (word : Word) : State :=
  let tk := (s.cset b f).ticket t
  let s := s.modSet b f fun x => x.setTicket t { tk with st := .done, word := word }
  let code := bits word.toNat 15 0
  if isStatusCode code then s
  else s.coreFault b f (kindTicket t) code tk.addr word.toNat

/-- Deliver a completion word for a context's task by the home index of its block (R193, R412). A stale tag is dropped at block
ingress. Between the stop and the end of the restore the word is held; while the context is away it goes into the saved
table. A fault is reported at once. -/
def State.deliver (s : State) (tag idx : Nat) (f : Bool) (t : Nat) (word : Word) : State :=
  let c := tag / 256
  if !s.tagCurrent tag then s.count RST_BORDER_LOCAL_DROP 1
  else
    let b := (s.homeBlocks c).getD idx 128
    let k := s.blk b
    let code := bits word.toNat 15 0
    if k.ctx = some c && decide (k.phase = .idle ∨ k.phase = .stopping) then s.deliverLive b f t word
    else
      let saved := SMap.get (fun _ => BlkState.reset) (s.ctxOf c).saved idx
      let tk := if k.ctx = some c then (k.st.set f).ticket t else (saved.set f).ticket t
      let s :=
        if (k.ctx = some c && decide (k.phase = .saving)) || (k.incoming = some c && decide (k.phase = .restoring)) then
          s.modCtx c fun x => { x with held := x.held ++ [(idx, f, t, word)] }
        else
          s.modCtx c fun x =>
            { x with saved := SMap.set (fun _ => BlkState.reset) x.saved idx
                                (saved.modSet f fun y => y.setTicket t { tk with st := .done, word := word }) }
      if isStatusCode code then s
      else s.ctxFault c code (0x0100 + b) (tk.addr % 2 ^ 48 + b2n f * 2 ^ 48 + kindTicket t * 2 ^ 56) word.toNat

/-! ### Delayed completions (R534) -/

/-- Does PTB_DELAY act on a completion of a unit for a context? -/
def State.delayActive (s : State) (unit c : Nat) : Bool :=
  s.ptb.flag PTB_CTRL_EN && bitOf (s.ptb.fld PTB_DELAY_UNITS) (unit - 1) &&
    (s.ptb.flag PTB_DELAY_ALL_CTX || s.ptb.fld PTB_DELAY_CONTEXT == c)

/-- The units whose completions of one block come in issue order (R114, R123). -/
def orderedUnit (unit : Nat) : Bool := unit == unitArray || unit == unitStake || unit == unitVector

/-- The due time of the last delayed completion of an ordered class on a block, 0 for none. -/
def State.lastDue (s : State) (b unit : Nat) : Nat :=
  s.delayed.foldl (fun m d => if d.blk = b && d.unit = unit then Nat.max m d.dueNs else m) 0

/-- Complete the ticket of an operation that block `b`'s task issued, by home index and tag, through PTB_DELAY. -/
def State.completeOp (s : State) (b tag idx : Nat) (f : Bool) (t unit detail code : Nat) : State :=
  let word := completionWord detail unit code
  let behind := if orderedUnit unit then s.lastDue b unit else 0
  if s.delayActive unit (tag / 256) then
    let lo := s.ptb.fld PTB_DELAY_MIN_NS
    let hi := s.ptb.fld PTB_DELAY_MAX_NS
    let d := if hi < lo then lo else lo + Config.ptbDraw (s.ptb.reg PTB_SEED).toNat 1 s.delayDraws % (hi - lo + 1)
    let s := s.count PTB_COUNT1_COMP_DELAYED 1
    { s with delayDraws := if hi < lo then s.delayDraws else s.delayDraws + 1,
             delayed := s.delayed ++ [⟨Nat.max (s.now + d) behind, b, tag, idx, f, t, unit, word⟩] }
  else if behind ≠ 0 then { s with delayed := s.delayed ++ [⟨behind, b, tag, idx, f, t, unit, word⟩] }
  else s.deliver tag idx f t word

/-- Complete a ticket of the context that stands on block `b`. -/
def State.completeHere (s : State) (b : Nat) (f : Bool) (t unit detail code : Nat) : State :=
  match (s.blk b).ctx with
  | none => s
  | some c => s.completeOp b (s.tagOf c) (s.homeIndex c b) f t unit detail code

/-- Deliver the fault of a vector instruction that took no ticket (R187). -/
def State.faultNoTicket (s : State) (b : Nat) (f : Bool) (pc code : Nat) : State :=
  s.coreFault b f kindNoTicket code pc (completionWord 0 unitVector code).toNat

/-! ### Asynchronous issue (R174) -/

/-- An asynchronous instruction: `checks` gives a fault's code or what to enqueue; then a full queue or a BUSY ticket stalls. -/
def State.issueAsync (s : State) (b : Nat) (f : Bool) (w : Word) (t unit : Nat) (full : State → Bool)
    (checks : State → Except Nat (State → State)) : State :=
  s.issue b f w fun s =>
    match checks s with
    | .error code => .fault s code
    | .ok enq =>
      if full s || s.ticketBusy b f t then .hold s .stall
      else .retire (enq (s.takeTicket b f t unit))

end Sys2Proof.Machine
end

