-- ==== Sys2Proof/Machine/Float.lean ====
section
/-!
DEFINITION. Floating-point arithmetic: exact values, one rounding to nearest with ties to even (R52, R128), canonical NaNs
(R53, R130), the elementary functions correctly rounded (R129), and conversions (R131, R168).
-/

namespace Sys2Proof.Machine

/-- A binary format: exponent bits and fraction bits. -/
structure Fmt where
  ew : Nat
  mw : Nat
  deriving DecidableEq, Repr

def bf16 : Fmt := ⟨8, 7⟩
def f16 : Fmt := ⟨5, 10⟩
def f32 : Fmt := ⟨8, 23⟩
def f64 : Fmt := ⟨11, 52⟩

def Fmt.width (k : Fmt) : Nat := 1 + k.ew + k.mw
def Fmt.bias (k : Fmt) : Int := (2 ^ (k.ew - 1) : Nat) - 1
/-- Exponent of the least significant bit of a subnormal. -/
def Fmt.qmin (k : Fmt) : Int := 1 - k.bias - k.mw
def Fmt.infBits (k : Fmt) : Nat := (2 ^ k.ew - 1) * 2 ^ k.mw
/-- The canonical NaN (R53, R130). -/
def Fmt.nanBits (k : Fmt) : Nat := k.infBits + 2 ^ (k.mw - 1)
def Fmt.signBit (k : Fmt) : Nat := 2 ^ (k.ew + k.mw)

/-- An exact value: ± m × 2^e, an infinity or NaN. A zero keeps its sign. -/
inductive FVal
  | nan
  | inf (neg : Bool)
  | fin (neg : Bool) (m : Nat) (e : Int)
  deriving DecidableEq, Repr

/-- The value that a pattern stands for. -/
def Fmt.decode (k : Fmt) (b : Nat) : FVal :=
  let neg := b / k.signBit % 2 == 1
  let ex := b / 2 ^ k.mw % 2 ^ k.ew
  let fr := b % 2 ^ k.mw
  if ex = 2 ^ k.ew - 1 then (if fr = 0 then .inf neg else .nan)
  else if ex = 0 then .fin neg fr k.qmin
  else .fin neg (fr + 2 ^ k.mw) (k.qmin + (ex - 1 : Nat))

def FVal.isNan : FVal → Bool
  | .nan => true
  | _ => false
def FVal.isInf : FVal → Bool
  | .inf _ => true
  | _ => false
def FVal.isFin : FVal → Bool
  | .fin .. => true
  | _ => false
def FVal.isZero : FVal → Bool
  | .fin _ 0 _ => true
  | _ => false
def FVal.neg : FVal → FVal
  | .nan => .nan
  | .inf n => .inf !n
  | .fin n m e => .fin (!n) m e
def FVal.sign : FVal → Bool
  | .nan => false
  | .inf n => n
  | .fin n _ _ => n
def FVal.abs : FVal → FVal
  | .nan => .nan
  | .inf _ => .inf false
  | .fin _ m e => .fin false m e

/-- Number of bits of `n`. -/
def bitLen (n : Nat) : Nat := if n = 0 then 0 else n.log2 + 1

/-- Shift by an integer: left where positive; the bits shifted out are lost. -/
def shiftInt (n : Nat) (k : Int) : Nat := if 0 ≤ k then n * 2 ^ k.toNat else n / 2 ^ (-k).toNat

/-- Round m × 2^e, plus a part below one unit of m where `sticky`, to nearest with ties to even: the pattern without its sign.
With `sticky`, `m` holds at least two bits more than the format. -/
def Fmt.roundPos (k : Fmt) (m : Nat) (e : Int) (sticky : Bool) : Nat :=
  if m = 0 then 0
  else
    let top := e + bitLen m - 1
    let q := max (top - k.mw) k.qmin
    let sh := q - e
    let kk :=
      if sh ≤ 0 then shiftInt m (-sh)
      else
        let d := 2 ^ sh.toNat
        let r := m % d
        let fl := m / d
        if d < 2 * r || (2 * r = d && (sticky || fl % 2 = 1)) then fl + 1 else fl
    Nat.min (kk + (q - k.qmin).toNat * 2 ^ k.mw) k.infBits

/-- Round toward +infinity a positive value (R142). -/
def Fmt.roundUp (k : Fmt) (m : Nat) (e : Int) : Nat :=
  if m = 0 then 0
  else
    let q := max (e + bitLen m - 1 - k.mw) k.qmin
    let sh := q - e
    let kk := if sh ≤ 0 then shiftInt m (-sh) else (m + 2 ^ sh.toNat - 1) / 2 ^ sh.toNat
    Nat.min (kk + (q - k.qmin).toNat * 2 ^ k.mw) k.infBits

/-- Put the sign on a pattern. -/
def Fmt.signed (k : Fmt) (neg : Bool) (b : Nat) : Nat := if neg then b + k.signBit else b

/-- Round an exact value to a format. -/
def Fmt.encode (k : Fmt) : FVal → Nat
  | .nan => k.nanBits
  | .inf n => k.signed n k.infBits
  | .fin n m e => k.signed n (k.roundPos m e false)

/-! ### Exact operations -/

/-- The signed integer n × 2^(e - q) for q ≤ e. -/
def alignInt (neg : Bool) (m : Nat) (e q : Int) : Int :=
  let v : Int := shiftInt m (e - q)
  if neg then -v else v

/-- Exact sum; an exact zero from operands of unlike signs is +0. -/
def FVal.add : FVal → FVal → FVal
  | .nan, _ => .nan
  | _, .nan => .nan
  | .inf a, .inf b => if a = b then .inf a else .nan
  | .inf a, _ => .inf a
  | _, .inf b => .inf b
  | .fin na ma ea, .fin nb mb eb =>
    if ma = 0 && mb = 0 then .fin (na && nb) 0 ea
    else if ma = 0 then .fin nb mb eb
    else if mb = 0 then .fin na ma ea
    else
      let q := min ea eb
      let s := alignInt na ma ea q + alignInt nb mb eb q
      .fin (decide (s < 0)) s.natAbs q

/-- Exact product. -/
def FVal.mul : FVal → FVal → FVal
  | .nan, _ => .nan
  | _, .nan => .nan
  | .inf a, .inf b => .inf (a != b)
  | .inf a, .fin n m _ => if m = 0 then .nan else .inf (a != n)
  | .fin n m _, .inf b => if m = 0 then .nan else .inf (n != b)
  | .fin na ma ea, .fin nb mb eb => .fin (na != nb) (ma * mb) (ea + eb)

/-- a × b + c, exact. -/
def FVal.fma (a b c : FVal) : FVal := (a.mul b).add c

/-- Is a < b? False with a NaN; -0 equals +0. -/
def FVal.lt : FVal → FVal → Bool
  | .nan, _ => false
  | _, .nan => false
  | .inf a, .inf b => a && !b
  | .inf a, _ => a
  | _, .inf b => !b
  | .fin na ma ea, .fin nb mb eb =>
    let q := min ea eb
    decide (alignInt na ma ea q < alignInt nb mb eb q)

def FVal.eq : FVal → FVal → Bool
  | .nan, _ => false
  | _, .nan => false
  | a, b => !a.lt b && !b.lt a

/-- The lesser operand, with -0 below +0; NaN if either is NaN (R130). -/
def FVal.minimum (a b : FVal) : FVal :=
  if a.isNan || b.isNan then .nan
  else if a.lt b then a
  else if b.lt a then b
  else if a.sign then a else b

def FVal.maximum (a b : FVal) : FVal :=
  if a.isNan || b.isNan then .nan
  else if a.lt b then b
  else if b.lt a then a
  else if a.sign then b else a

/-! ### Division and roots, rounded -/

/-- a / b rounded to a format. -/
def Fmt.div (k : Fmt) (a b : FVal) : Nat :=
  match a, b with
  | .nan, _ => k.nanBits
  | _, .nan => k.nanBits
  | .inf _, .inf _ => k.nanBits
  | .inf n, .fin n' _ _ => k.signed (n != n') k.infBits
  | .fin n _ _, .inf n' => k.signed (n != n') 0
  | .fin n m e, .fin n' m' e' =>
    if m' = 0 then (if m = 0 then k.nanBits else k.signed (n != n') k.infBits)
    else
      let sh := k.mw + 4 + bitLen m'
      let num := m * 2 ^ sh
      k.signed (n != n') (k.roundPos (num / m') (e - e' - sh) (num % m' ≠ 0))

/-- Integer square root by bisection on the bits, from bit `i` down. -/
def isqrtFrom (n : Nat) : Nat → Nat → Nat
  | 0, r => r
  | i + 1, r =>
    let t := r + 2 ^ i
    isqrtFrom n i (if t * t ≤ n then t else r)

/-- Integer square root. -/
def isqrt (n : Nat) : Nat := isqrtFrom n (bitLen n / 2 + 1) 0

/-- The square root of m × 2^e, m above 0, with guard bits: mantissa, exponent and whether a part is left. -/
def sqrtParts (prec m : Nat) (e : Int) : Nat × Int × Bool :=
  let sh := 2 * prec + (if e % 2 = 0 then 0 else 1)
  let n := m * 2 ^ sh
  let r := isqrt n
  (r, (e - sh) / 2, r * r ≠ n)

/-- Square root rounded. -/
def Fmt.sqrt (k : Fmt) : FVal → Nat
  | .nan => k.nanBits
  | .inf n => if n then k.nanBits else k.infBits
  | .fin n m e =>
    if m = 0 then k.signed n 0
    else if n then k.nanBits
    else
      let p := sqrtParts (k.mw + 4) m e
      k.roundPos p.1 p.2.1 p.2.2

/-- 1 / x rounded. -/
def Fmt.rcp (k : Fmt) (x : FVal) : Nat := k.div (.fin false 1 0) x

/-- 1 / square root of x rounded. -/
def Fmt.rsqrt (k : Fmt) : FVal → Nat
  | .nan => k.nanBits
  | .inf n => if n then k.nanBits else 0
  | .fin n m e =>
    if m = 0 then k.signed n k.infBits
    else if n then k.nanBits
    else
      -- sqrt(2^(2 s) / (m 2^e)) for an even total exponent
      let m := if e % 2 = 0 then m else 2 * m
      let e := if e % 2 = 0 then e else e - 1
      let s := k.mw + 4 + bitLen m
      let r := isqrt (2 ^ (2 * s) / m)
      k.roundPos r (-(e / 2) - s) (r * r * m ≠ 2 ^ (2 * s))

/-! ### Fixed-point intervals for the elementary functions (R129). A number x is held as an integer near x × 2^p. -/

/-- Fixed-point product, rounded down. -/
def fxMul (p : Nat) (a b : Int) : Int := a * b / 2 ^ p

/-- Sum of atanh's or atan's series: z + ± z^3/3 + ..., with z2 = ± z². -/
def oddSeries (p : Nat) (z2 : Int) : Nat → Nat → Int → Int
  | 0, _, _ => 0
  | fuel + 1, k, t => if t.natAbs = 0 then 0 else t / (2 * k + 1 : Nat) + oddSeries p z2 fuel (k + 1) (fxMul p t z2)

/-- atanh of a fixed-point number of magnitude at most 1/2, within 2^(-p) × 4 p. -/
def fxAtanh (p : Nat) (z : Int) : Int := oddSeries p (fxMul p z z) p 0 z

/-- atan of 1/n. -/
def fxAtanInv (p n : Nat) : Int :=
  let z : Int := 2 ^ p / n
  oddSeries p (-(fxMul p z z)) p 0 z

/-- ln 2. -/
def fxLn2 (p : Nat) : Int := 2 * fxAtanh p (2 ^ p / 3)

/-- π. -/
def fxPi (p : Nat) : Int := 16 * fxAtanInv p 5 - 4 * fxAtanInv p 239

/-- Sum of r^n / n! from a term on. -/
def expSeries (p : Nat) (r : Int) : Nat → Nat → Int → Int
  | 0, _, _ => 0
  | fuel + 1, n, t => if t.natAbs = 0 then 0 else t + expSeries p r fuel (n + 1) (fxMul p t r / (n : Int))

/-- exp of a fixed-point number of magnitude at most 1, within 4 p units. -/
def fxExp (p : Nat) (r : Int) : Int := expSeries p r (p + 8) 1 (2 ^ p)

/-- The fixed-point number nearest below ± m × 2^e. -/
def fxOf (p : Nat) (neg : Bool) (m : Nat) (e : Int) : Int :=
  let sh := e + p
  let v : Int := if 0 ≤ sh then m * 2 ^ sh.toNat else m / 2 ^ (-sh).toNat
  if neg then -v else v

/-- An approximation: value near n × 2^e with an error of at most err × 2^e. -/
structure Approx where
  n : Int
  e : Int
  err : Nat
  deriving Repr

/-- exp of ± m × 2^e, of magnitude below 2^13. -/
def expApprox (p : Nat) (neg : Bool) (m : Nat) (e : Int) : Approx :=
  let x := fxOf p neg m e
  let l := fxLn2 p
  let k := (x + l / 2) / l
  let r := x - k * l
  ⟨fxExp p r, k - p, 32 * p * (k.natAbs + 4)⟩

/-- The sum of positive terms t, with t' = t × y / (2 n + 1). -/
def erfSeries (p : Nat) (y : Int) : Nat → Nat → Int → Int
  | 0, _, _ => 0
  | fuel + 1, n, t => if t.natAbs = 0 then 0 else t + erfSeries p y fuel (n + 1) (fxMul p t y / (2 * n + 1 : Nat))

/-- Sums of the sine and cosine series, from term n on: every second term, signs alternate. -/
def sincosSeries (p : Nat) (r2 : Int) : Nat → Nat → Int → Int
  | 0, _, _ => 0
  | fuel + 1, n, t =>
    if t.natAbs = 0 then 0 else t + sincosSeries p r2 fuel (n + 2) (-(fxMul p t r2) / (n * (n + 1) : Nat))

/-- Which function. -/
inductive Fn
  | exp | exp2 | log | log2 | tanh | sigmoid | erf | sin | cos
  deriving DecidableEq, Repr

/-- Reduction of x to r + n π/2, |r| ≤ π/4: n modulo 4, r at 2^-p. -/
def reducePi (p : Nat) (neg : Bool) (m : Nat) (e : Int) : Nat × Int :=
  let g := p + 16 + (if 0 ≤ e then e.toNat + bitLen m else bitLen m)
  let x := fxOf g neg m e
  let h := fxPi g / 2
  let n := (x + h / 2) / h
  ((n % 4).toNat, (x - n * h) / 2 ^ (g - p))

/-- The approximation of a function at a finite nonzero operand in its range of real work. -/
def fnApprox (fn : Fn) (p : Nat) (neg : Bool) (m : Nat) (e : Int) : Approx :=
  let one : Int := 2 ^ p
  match fn with
  | .exp => expApprox p neg m e
  | .exp2 =>
    let x := fxOf p neg m e
    let k := (x + one / 2) / one
    ⟨fxExp p (fxMul p (x - k * one) (fxLn2 p)), k - p, 64 * p⟩
  | .log | .log2 =>
    -- m 2^e = mm × 2^t with mm in [0.7, 1.42)
    let t0 := e + bitLen m - 1
    let m1 := fxOf p false m (e - t0)
    let up := decide (one * 141 / 100 < m1)
    let t := if up then t0 + 1 else t0
    let mm := if up then m1 / 2 else m1
    let z := (mm - one) * one / (mm + one)
    let ln := 2 * fxAtanh p z + t * fxLn2 p
    let err := 16 * p + (16 * p + 64) * t.natAbs + 64
    match fn with
    | .log => ⟨ln, -p, err⟩
    | _ => ⟨ln * one / fxLn2 p, -p, 4 * err + 64 * t.natAbs⟩
  | .tanh =>
    let a := expApprox p true (2 * m) e
    -- t = a.n 2^a.e with a.e + p ≤ 0
    let t := a.n / 2 ^ (-(a.e + p)).toNat
    let v := (one - t) * one / (one + t)
    ⟨if neg then -v else v, -p, 4 * a.err + 16⟩
  | .sigmoid =>
    let a := expApprox p true m e
    let t := a.n / 2 ^ (-(a.e + p)).toNat
    if neg then ⟨a.n * one / (one + t), a.e, 4 * a.err + 16⟩
    else ⟨one * one / (one + t), -p, 4 * a.err + 16⟩
  | .erf =>
    let x := fxOf p false m e
    let y := 2 * fxMul p x x
    let a := expApprox p true (m * m) (2 * e)
    let ex := a.n / 2 ^ (-(a.e + p)).toNat
    let sum := erfSeries p y (8 * p) 1 x
    let rp : Int := isqrt ((fxPi p).toNat * 2 ^ p)
    let v := 2 * fxMul p ex sum * one / rp
    ⟨if neg then -v else v, -p, 2 ^ 60 * p⟩
  | .sin | .cos =>
    let q := reducePi p neg m e
    let r := q.2
    let r2 := fxMul p r r
    let sn := sincosSeries p r2 (p + 8) 2 r
    let cs := sincosSeries p r2 (p + 8) 1 one
    let j := match fn with
      | .sin => q.1
      | _ => (q.1 + 1) % 4
    let v := if j = 0 then sn else if j = 1 then cs else if j = 2 then -sn else -cs
    ⟨v, -p, 16 * p + 64⟩

/-- The rounded pattern that an integer times 2^e stands for, with its sign; its low bit may be inexact. -/
def Fmt.roundInt (k : Fmt) (n e : Int) : Nat := k.signed (decide (n < 0)) (k.roundPos n.natAbs e true)

/-- Round a function, at the first precision whose error decides the rounding. -/
def Fmt.roundFn (k : Fmt) (fn : Fn) (neg : Bool) (m : Nat) (e : Int) : List Nat → Nat
  | [] => 0
  | p :: ps =>
    let a := fnApprox fn p neg m e
    let lo := k.roundInt (a.n - a.err) a.e
    let hi := k.roundInt (a.n + a.err) a.e
    if lo = hi || ps.isEmpty then k.roundInt a.n a.e else k.roundFn fn neg m e ps

/-- The precisions tried. -/
def precisions : List Nat := [256, 512, 1024, 2048]

/-- Magnitude of a finite value as its top exponent: it lies in [2^t, 2^(t+1)). -/
def topExp (m : Nat) (e : Int) : Int := e + bitLen m - 1

/-- Is m × 2^e an integer, and which? -/
def asInteger (m : Nat) (e : Int) : Option Nat :=
  if 0 ≤ e then some (m * 2 ^ e.toNat)
  else if m % 2 ^ (-e).toNat = 0 then some (m / 2 ^ (-e).toNat) else none

/-- Is m a power of two, and which? -/
def asPow2 (m : Nat) : Option Nat := if m = 2 ^ (bitLen m - 1) then some (bitLen m - 1) else none

/-- An elementary function of a value, correctly rounded, with the special operands of IEEE 754-2019 (R129). Where the exact
result differs from a representable number by less than a quarter of a unit, it rounds to that number. -/
def Fmt.fn (k : Fmt) (fn : Fn) (x : FVal) : Nat :=
  let one := k.roundPos 1 0 false
  match fn, x with
  | _, .nan => k.nanBits
  | .exp, .inf n | .exp2, .inf n => if n then 0 else k.infBits
  | .log, .inf n | .log2, .inf n => if n then k.nanBits else k.infBits
  | .tanh, .inf n | .erf, .inf n => k.signed n one
  | .sigmoid, .inf n => if n then 0 else one
  | .sin, .inf _ | .cos, .inf _ => k.nanBits
  | _, .fin n m e =>
    let t := topExp m e
    match fn with
    | .exp =>
      if m = 0 || decide (t < -60) then one
      else if 12 ≤ t then (if n then 0 else k.infBits) else k.roundFn fn n m e precisions
    | .exp2 =>
      if m = 0 || decide (t < -60) then one
      else if 12 ≤ t then (if n then 0 else k.infBits)
      else match asInteger m e with
        | some i => k.roundPos 1 (if n then -(i : Int) else i) false
        | none => k.roundFn fn n m e precisions
    | .log =>
      if m = 0 then k.signed true k.infBits
      else if n then k.nanBits
      else if (asPow2 m).map (fun i => (i : Int) + e) = some 0 then 0 else k.roundFn fn n m e precisions
    | .log2 =>
      if m = 0 then k.signed true k.infBits
      else if n then k.nanBits
      else match asPow2 m with
        | some i =>
          let v := (i : Int) + e
          k.signed (decide (v < 0)) (k.roundPos v.natAbs 0 false)
        | none => k.roundFn fn n m e precisions
    | .tanh =>
      if m = 0 then k.signed n 0
      else if t < -60 then k.encode x
      else if 6 ≤ t then k.signed n one else k.roundFn fn n m e precisions
    | .sigmoid =>
      if m = 0 || decide (t < -60) then k.roundPos 1 (-1) false
      else if 12 ≤ t then (if n then 0 else one) else k.roundFn fn n m e precisions
    | .erf =>
      if m = 0 then k.signed n 0
      else if 3 ≤ t then k.signed n one
      else if t < -60 then
        -- erf x = 2 x / √π within a relative 2^-120
        let p := 320
        let rp : Int := isqrt ((fxPi p).toNat * 2 ^ p)
        k.signed n (k.roundPos (m * (2 * (2 ^ p * 2 ^ p / rp)).toNat) (e - p) true)
      else k.roundFn fn n m e precisions
    | .sin =>
      if m = 0 then k.signed n 0 else if t < -60 then k.encode x else k.roundFn fn n m e precisions
    | .cos => if m = 0 || decide (t < -60) then one else k.roundFn fn n m e precisions

/-! ### Conversions (R131, R168) -/

/-- The signed 64-bit or narrower integer nearest a value, ties to even, saturated; NaN gives 0. -/
def FVal.toInt (w : Nat) : FVal → Nat
  | .nan => 0
  | .inf n => if n then 2 ^ (w - 1) else 2 ^ (w - 1) - 1
  | .fin n m e =>
    let v :=
      if 0 ≤ e then (if 64 < topExp m e then 2 ^ 65 else m * 2 ^ e.toNat)
      else
        let d := 2 ^ (-e).toNat
        let fl := m / d
        let r := m % d
        if d < 2 * r || (2 * r = d && fl % 2 = 1) then fl + 1 else fl
    if n then (if 2 ^ (w - 1) < v then 2 ^ (w - 1) else (2 ^ w - v) % 2 ^ w)
    else Nat.min v (2 ^ (w - 1) - 1)

/-- The value of a signed integer of `w` bits. -/
def FVal.ofInt (w n : Nat) : FVal :=
  let v := signed w n
  .fin (decide (v < 0)) v.natAbs 0

end Sys2Proof.Machine
end

