-- ==== Sys2Proof/Machine/Splint.lean ====
section
/-!
DEFINITION. Splint formats and the reference computation: the format codes (R36), the layout of groups (R38), re-blocking with
its outcomes (R41, R42), imported formats (R44 to R46), and ref_group() and update() (R49 to R53).
-/

namespace Sys2Proof.Machine

/-! ### Formats (R36) -/

/-- Width of a splint format code, 0 where the code is no splint format. -/
def splintWidth (code : Nat) : Nat := [2, 3, 4, 6, 8, 12, 16, 24].getD code 0

/-- Does WEAVE accept the code as a weaver format? -/
def weaverOk (code : Nat) : Bool := decide (code ≤ 7)

/-- Does WEAVE accept the code as a stake format? -/
def stakeOk (code : Nat) : Bool := code == 2 || code == 4 || code == 6 || code == 7

/-- Slot parts of a stake format (R60). -/
def slotParts (code : Nat) : Nat := if code = 6 then 2 else if code = 7 then 3 else 1

/-! ### Groups (R34, R38) -/

/-- The significands of a group from its bytes. -/
def groupSigs (w : Nat) (l : List Byte) : List Int :=
  let n := leNat l
  (List.range 32).map fun j => signed w (n / 2 ^ (w * j))

/-- The bytes of a group from its significands. -/
def sigBytes (w : Nat) (sigs : List Int) : List Byte :=
  leBytes (((List.range 32).zip sigs).foldl (fun a (j, x) => a + wrap w x * 2 ^ (w * j)) 0) (4 * w)

/-- The value of an element (R34): NaN in a NaN group, and a zero is +0 (R35). -/
def splintVal (w e : Nat) (sig : Int) : FVal :=
  if e = 255 then .nan else .fin (decide (sig < 0)) sig.natAbs ((e : Int) - 127 - (w - 2 : Nat))

/-! ### Re-blocking (R41, R42) -/

/-- Outcome classes of R42. -/
inductive Outcome4
  | exact | inexact | saturated | nonfinite
  deriving DecidableEq, Repr

/-- A group: exponent and significands. -/
structure Group where
  e : Nat
  sigs : List Int
  deriving DecidableEq, Repr

/-- The smallest t with -2^(t+1) ≤ v < 2^(t+1); of a nonzero value. -/
def topOf (neg : Bool) (m : Nat) (e : Int) : Int :=
  let t := topExp m e
  if neg && m == 2 ^ (bitLen m - 1) then t - 1 else t

/-- Round half even of ± m × 2^e to an integer. -/
def roundHalfEven (neg : Bool) (m : Nat) (e : Int) : Int :=
  let v : Nat :=
    if 0 ≤ e then m * 2 ^ e.toNat
    else
      let sh := (-e).toNat
      if bitLen m + 1 < sh then 0
      else
        let d := 2 ^ sh
        let fl := m / d
        let r := m % d
        if d < 2 * r || (2 * r = d && fl % 2 = 1) then fl + 1 else fl
  if neg then -(v : Int) else v

/-- The significand of a value in units of 2^q. -/
def sigAt (q : Int) : FVal → Int
  | .fin n m e => if m = 0 then 0 else roundHalfEven n m (e - q)
  | _ => 0

/-- Is a value an integer number of units 2^q that equals `sig`? -/
def sigExact (q : Int) (v : FVal) (sig : Int) : Bool :=
  match v with
  | .fin n m e => (FVal.fin n m e).eq (.fin (decide (sig < 0)) sig.natAbs q)
  | _ => false

/-- Re-block 32 exact values into width `w`. -/
def reblock (w : Nat) (v : List FVal) : Group × Outcome4 :=
  if v.any fun x => !x.isFin then (⟨255, List.replicate 32 0⟩, .nonfinite)
  else if v.all FVal.isZero then (⟨0, List.replicate 32 0⟩, .exact)
  else
    let top := v.foldl (fun (t : Option Int) x => match x with
      | .fin n m e => if m = 0 then t else
          let k := topOf n m e
          some (match t with | some t => max t k | none => k)
      | _ => t) none
    let e0 := max (top.getD (-127)) (-127)
    let half : Int := 2 ^ (w - 1)
    let attempt (e : Int) : List Int := v.map (sigAt (e - (w - 2 : Nat)))
    let done (e : Int) (sigs : List Int) : Group × Outcome4 :=
      (⟨(e + 127).toNat, sigs⟩,
        if (v.zip sigs).all fun (x, g) => sigExact (e - (w - 2 : Nat)) x g then .exact else .inexact)
    let saturate : Group × Outcome4 :=
      (⟨254, (attempt 127).map fun x => min (max x (-half)) (half - 1)⟩, .saturated)
    if 127 < e0 then saturate
    else
      let s0 := attempt e0
      if !s0.contains half then done e0 s0
      else if 127 < e0 + 1 then saturate
      else done (e0 + 1) (attempt (e0 + 1))

/-! ### Imported formats (R44) -/

/-- An element of a small format with exponent width `ew`, mantissa width `mw` and bias, with no special values. -/
def smallVal (ew mw : Nat) (bias : Int) (b : Nat) : FVal :=
  let neg := b / 2 ^ (ew + mw) % 2 == 1
  let ex := b / 2 ^ mw % 2 ^ ew
  let fr := b % 2 ^ mw
  if ex = 0 then .fin neg fr (1 - bias - mw) else .fin neg (fr + 2 ^ mw) (ex - bias - mw)

/-- E4M3: S.1111.111 is NaN, there is no infinity. -/
def e4m3Val (b : Nat) : FVal := if b % 128 = 127 then .nan else smallVal 4 3 7 b

/-- E5M2: as IEEE 754. -/
def e5m2Val (b : Nat) : FVal :=
  if b / 4 % 32 = 31 then (if b % 4 = 0 then .inf (b / 128 % 2 == 1) else .nan) else smallVal 5 2 15 b

/-- MXINT8: two's complement times 2^-6. -/
def mxint8Val (b : Nat) : FVal :=
  let v := signed 8 b
  .fin (decide (v < 0)) v.natAbs (-6)

/-- Bits of an element of a format code from 0x08 to 0x13, 0 for another code. -/
def importBits (code : Nat) : Nat :=
  if code < 8 then 0 else [8, 8, 6, 6, 4, 8, 8, 8, 32, 16, 16, 64].getD (code - 8) 0

/-- The decoded element of an imported format. -/
def importVal (code b : Nat) : FVal :=
  match code with
  | 0x08 | 0x0E => e4m3Val b
  | 0x09 | 0x0F => e5m2Val b
  | 0x0A => smallVal 3 2 3 b
  | 0x0B => smallVal 2 3 1 b
  | 0x0C => smallVal 2 1 1 b
  | 0x0D => mxint8Val b
  | 0x10 => f32.decode b
  | 0x11 => f16.decode b
  | 0x12 => bf16.decode b
  | 0x13 => f64.decode b
  | _ => .nan

/-- Is the code an MX block format? -/
def isMx (code : Nat) : Bool := decide (8 ≤ code) && decide (code ≤ 13)

/-- A value times 2^k, exact. -/
def FVal.scale (k : Int) : FVal → FVal
  | .fin n m e => .fin n m (e + k)
  | v => v

/-! ### The reference computation (R49) -/

/-- Round to binary64 and back. -/
def rnd64 (v : FVal) : FVal := f64.decode (f64.encode v)

/-- The integer dot product of two groups. -/
def dot (a b : List Int) : Int := (a.zip b).foldl (fun s (x, y) => s + x * y) 0

/-- Term p[i] of ref_group(). -/
def refTerm (ww ws : Nat) (wg sg : Group) : FVal :=
  if wg.e = 255 || sg.e = 255 then .nan
  else
    let d := dot wg.sigs sg.sigs
    .fin (decide (d < 0)) d.natAbs ((wg.e + sg.e : Nat) - 254 - (ww - 2 : Nat) - (ws - 2 : Nat))

/-- One level of the pairwise tree: adjacent sums, rounded. -/
def pairLevel : List FVal → List FVal
  | a :: b :: l => rnd64 (a.add b) :: pairLevel l
  | l => l

/-- ref_group() of 16 groups of the weaver and of the stake. -/
def refGroup (ww ws : Nat) (wg sg : List Group) : FVal :=
  let p := (wg.zip sg).map fun (a, b) => refTerm ww ws a b
  (pairLevel (pairLevel (pairLevel (pairLevel p)))).headD .nan

/-- update() of an entry of format `k`: the new pattern, and whether it overflowed (R200) (DESIGN CHOICE, log entry 86). An entry is −0
only where it held −0 and the add left it so: a result that rounds to zero is +0 (R53) (DEDUCED, log entry 93). -/
def updateEntry (k : Fmt) (old : Nat) (x : FVal) (overwrite : Bool) : Nat × Bool :=
  let acc := k.decode old
  let v := k.encode (if overwrite then x else acc.add x)
  let v := if (k.decode v).isZero && (k.decode v).sign && (overwrite || old != v) then 0 else v
  (v, (k.decode v).isInf && x.isFin && (overwrite || acc.isFin))

end Sys2Proof.Machine
end

