-- ==== Sys2Proof/Machine/Weave.lean ====
section
/-!
DEFINITION. The weave array and its stakes: issue checks of the weave class (R89 to R116, R546, R547), the stake queue and the
origin records (R61, R62, R102 to R111), rands with their checks, replay and repair (R63 to R85, R543), and what they report.
-/

namespace Sys2Proof.Machine

/-! ### Slots -/

/-- Cell (r, n) of a slot. -/
def BlkState.cell (x : BlkState) (slot r n : Nat) : StakeCell :=
  SMap.get (fun _ => StakeCell.reset) x.slots (2048 * slot + 128 * r + n)

/-- The origin record of a slot. -/
def BlkState.originOf (x : BlkState) (slot : Nat) : Origin := SMap.get (fun _ => Origin.reset) x.origin slot

/-- Write the origin record of a slot. -/
def BlkState.setOrigin (x : BlkState) (slot : Nat) (o : Origin) : BlkState :=
  { x with origin := SMap.set (fun _ => Origin.reset) x.origin slot o }

/-- Change only the state of a record (R547). -/
def BlkState.setOriginState (x : BlkState) (slot : Nat) (st : OriginState) : BlkState :=
  x.setOrigin slot { x.originOf slot with st := st }

/-- Stake group r of column n in the parts of a stake (R60): the significands are put together from the parts' lanes. -/
def BlkState.stakeGroup (x : BlkState) (slot fmt r n : Nat) : Group :=
  let parts := slotParts fmt
  let cells := (List.range parts).map fun p => x.cell (slot + p) r n
  let sigs := (List.range 32).map fun j =>
    signed (8 * parts) (leNat (cells.map fun c => BitVec.ofNat 8 (c.lanes.toNat / 2 ^ (8 * j))))
  ⟨(x.cell slot r n).exp.toNat, sigs⟩

/-! ### The CRC of a slot (R61) -/

/-- The CRC of a slot. The rule gives no order of the bytes: the model takes the cells in ascending number 128 r + n, of each the 32
lane bytes, lane 0 first, and then the exponent (DESIGN CHOICE, log entry 91). -/
def slotCrc (cellAt : Nat → StakeCell) : BitVec 32 :=
  ~~~((List.range 2048).foldl (fun c k =>
    crcByte ((leBytes (cellAt k).lanes.toNat 32).foldl crcByte c) (cellAt k).exp) 0xFFFFFFFF)

/-! ### Reading a stake's source (R103, R104) -/

/-- Read source bytes: the operand store, or context memory that must lie in HBM. -/
def State.stakeBytes (s : State) (b c : Nat) (space : Bool) (a n : Nat) : Res (List Byte) × State :=
  if space then
    if (spans 65536 (n / 65536 + 2) a n).any fun p => s.walkWaits c p.1 then (.wait, s)
    else match (spans 65536 (n / 65536 + 2) a n).findSome? fun p =>
        match s.translate c p.1 .read with
        | .error e => some e
        | .ok (t, _) => if t = 1 then some STAKE_SOURCE else none with
    | some e => (.fault e, s)
    | none => s.vread c a n .read
  else
    match s.readLocal b a n with
    | (.ok l, s) => (.ok l, s)
    | (.error e, s) => (.fault e, s)

/-- The groups of one stake column. -/
def columnGroups (w kg : Nat) (sig exp : List Byte) : List Group :=
  (List.range kg).map fun r => ⟨(exp.getD r 0).toNat, groupSigs w ((sig.drop (4 * w * r)).take (4 * w))⟩

/-- Read stake columns from `n` on: their groups. -/
def State.readColumns (s : State) (b c : Nat) (o : Origin) : (fuel n : Nat) → Res (List (List Group)) × State
  | 0, _ => (.ok [], s)
  | fuel + 1, n =>
    let w := splintWidth o.fmt
    match s.stakeBytes b c o.space (o.sig + n * o.stride) (4 * w * o.kg) with
    | (.fault e, s) => (.fault e, s)
    | (.wait, s) => (.wait, s)
    | (.ok sig, s) =>
      match s.stakeBytes b c o.space (o.exp + n * (o.stride / (4 * w))) o.kg with
      | (.fault e, s) => (.fault e, s)
      | (.wait, s) => (.wait, s)
      | (.ok exp, s) =>
        match s.readColumns b c o fuel (n + 1) with
        | (.ok l, s) => (.ok (columnGroups w o.kg sig exp :: l), s)
        | (.fault e, s) => (.fault e, s)
        | (.wait, s) => (.wait, s)

/-- The cell of part `p` that a group gives (R60). -/
def partCell (w parts p : Nat) (g : Group) : StakeCell :=
  let lane (x : Int) : Nat := wrap (8 * parts) (signed w (wrap w x)) / 2 ^ (8 * p) % 256
  ⟨BitVec.ofNat 256 (leNat (g.sigs.map fun x => BitVec.ofNat 8 (lane x))), BitVec.ofNat 8 g.e⟩

/-- The cells of part `p`, by cell number 128 r + n: absent cells hold zeros. -/
def partCells (w parts p : Nat) (cols : List (List Group)) : List (Nat × StakeCell) :=
  ((List.range cols.length).zip cols).flatMap fun (n, gs) =>
    ((List.range gs.length).zip gs).map fun (r, g) => (128 * r + n, partCell w parts p g)

/-- Write every cell of a slot. -/
def BlkState.fillSlot (x : BlkState) (slot : Nat) (cells : List (Nat × StakeCell)) : BlkState :=
  { x with slots := cells.foldl (fun m (k, c) => SMap.set (fun _ => StakeCell.reset) m (2048 * slot + k) c)
                      (dropRange x.slots (2048 * slot) (2048 * slot + 2048)) }

/-- The CRC of a part's cells. -/
def cellsCrc (cells : List (Nat × StakeCell)) : BitVec 32 :=
  let m : SMap StakeCell := cells.foldl (fun m (k, c) => SMap.set (fun _ => StakeCell.reset) m k c) []
  slotCrc fun k => SMap.get (fun _ => StakeCell.reset) m k

/-! ### Columns in service (R78) -/

/-- The physical position that serves a logical column: a spare that names it, and where both do, the one that was written later. -/
def State.posOf (s : State) (b n : Nat) : Nat :=
  let by0 := s.flag (BLK_ARR_REMAP_SPARE0_USED b) && s.fld (BLK_ARR_REMAP_SPARE0_COL b) == n
  let by1 := s.flag (BLK_ARR_REMAP_SPARE1_USED b) && s.fld (BLK_ARR_REMAP_SPARE1_COL b) == n
  if by1 && !(by0 && (s.blk b).spare0Later) then 129 else if by0 then 128 else n

/-- Does a physical position serve a logical column? -/
def State.serves (s : State) (b p : Nat) : Bool := (List.range 128).any fun n => s.posOf b n == p

/-- The logical column that a position serves, or would serve. -/
def State.logicalOf (s : State) (b p : Nat) : Nat := ((List.range 128).find? fun n => s.posOf b n == p).getD (p % 128)

/-- The lowest position in service, where an injection without a column acts (R535). -/
def State.lowestServing (s : State) (b : Nat) : Nat := ((List.range 130).find? fun p => s.serves b p).getD 0

/-! ### Completing a WEAVE -/

/-- REPLAY_LIMIT of the array: 0 is treated as 1. -/
def State.arrLimit (s : State) (b : Nat) : Nat := Nat.max 1 (s.fld (BLK_ARR_CTRL_REPLAY_LIMIT b))

/-- Address of entry (row, 0) of a WEAVE's accumulator set (R99). -/
def WeaveOp.rowAddr (o : WeaveOp) (row : Nat) : Nat :=
  accBase + o.aset * 0x20000 + (o.row0 + row) * (if o.wide then 0x400 else 0x200)

/-- Bytes of an accumulator entry. -/
def WeaveOp.entryBytes (o : WeaveOp) : Nat := if o.wide then 8 else 4

/-- Poison the lines of the entries of rows `row` to M - 1 (R75, R79, R81). -/
def State.poisonRows (s : State) (b : Nat) (o : WeaveOp) (row : Nat) : State :=
  s.modBst b fun x =>
    ((List.range (o.rows - row)).flatMap fun i => unitsOf (o.rowAddr (row + i)) (o.nc * o.entryBytes)).foldl
      (fun x u => x.setLinePoison (u * 256) true) x

/-- A WEAVE completes its ticket (R114, R200, R202): a fault code wins over ACC_OVERFLOW; the codes of R87 found during the run
enter LAST_CODE (DESIGN CHOICE, log entry 86). -/
def State.weaveDone (s : State) (b : Nat) (o : WeaveOp) (code : Nat) (accepted : Bool) : State :=
  let ovf := bitOf (s.bst b).pending o.ticket
  let s := if ovf then s.count (BLK_NUM_COUNT_WEAVES b) 1 else s
  let s := s.modBst b fun x => { x with pending := withBits x.pending o.ticket o.ticket 0, run := none }
  let s := if accepted && decide (code ∈ [STAKE_ORIGIN_LOST, ACC_PARITY, ARR_UNREPAIRABLE]) then
      s.lastCode (BLK_ARR_STATUS_LAST_CODE b) code else s
  let s := if code = STAKE_ORIGIN_LOST then s.count (BLK_ARR_COUNT_ORIGIN_LOST b) 1 else s
  let s := s.setFlag (BLK_ARR_PROGRESS_VALID b) false
  s.completeHere b o.f o.ticket unitArray 0 (if code = 0 && ovf then ACC_OVERFLOW else code)

/-- A slot could not be reloaded from its origin (R75): the running WEAVE that names it completes with STAKE_ORIGIN_LOST, and what it had
not written is poisoned; where none does, the context on the block takes the fault (DEDUCED, log entry 92). -/
def State.slotLost (s : State) (b slot : Nat) : State :=
  match (s.bst b).run.filter fun r => decide (r.op.slot ≤ slot) && decide (slot < r.op.slot + slotParts r.op.sfmt) with
  | some r =>
    ((s.modBlk b fun x => { x with arrTest := none }).poisonRows b r.op r.next).weaveDone b r.op STAKE_ORIGIN_LOST true
  | none =>
    let s := s.lastCode (BLK_ARR_STATUS_LAST_CODE b) STAKE_ORIGIN_LOST
    let s := s.count (BLK_ARR_COUNT_ORIGIN_LOST b) 1
    match (s.blk b).ctx with
    | some c => s.ctxFault c STAKE_ORIGIN_LOST (0x0200 + b) 0 0
    | none => s

/-- The block is unrepairable (R79): the running WEAVE, or else the context on the block, takes the fault, and the block leaves
service. -/
def State.unrepairable (s : State) (b : Nat) : State :=
  let s := s.setFlag (BLK_ARR_STATUS_OUT_OF_SERVICE b) true
  let s := s.lastCode (BLK_ARR_STATUS_LAST_CODE b) ARR_UNREPAIRABLE
  let s := s.modBlk b fun x => { x with arrTest := none }
  let s := match (s.bst b).run with
    | some r => (s.poisonRows b r.op r.next).weaveDone b r.op ARR_UNREPAIRABLE true
    | none => match (s.blk b).ctx with
      | some c => s.ctxFault c ARR_UNREPAIRABLE (0x0200 + b) 0 0
      | none => s
  s.blockLeaves b ARR_UNREPAIRABLE

/-- Health evidence of the array (R87): posted under the weave array's source unless it was injected (R537). LAST_CODE shows the code of an
injected one too: the rules do not say (DESIGN CHOICE, log entry 91). -/
def State.arrHealth (s : State) (b : Nat) (cls : HealthClass) (code : Nat) (injected : Bool) : State :=
  (s.lastCode (BLK_ARR_STATUS_LAST_CODE b) code).healthUnless injected cls ⟨none, code, 0x0200 + b, 0, 0⟩

/-- Logical column `n` goes to the lowest usable spare (R78, step 1), if there is one. -/
def State.remapColumn (s : State) (b n : Nat) : Option State :=
  if s.flag (BLK_ARR_REMAP_SPARE0_OK b) && !s.flag (BLK_ARR_REMAP_SPARE0_USED b) then
    some (((s.setFld (BLK_ARR_REMAP_SPARE0_COL b) n).setFlag (BLK_ARR_REMAP_SPARE0_USED b) true).modBlk b fun x =>
      { x with spare0Later := true })
  else if s.flag (BLK_ARR_REMAP_SPARE1_OK b) && !s.flag (BLK_ARR_REMAP_SPARE1_USED b) then
    some (((s.setFld (BLK_ARR_REMAP_SPARE1_COL b) n).setFlag (BLK_ARR_REMAP_SPARE1_USED b) true).modBlk b fun x =>
      { x with spare0Later := false })
  else none

/-- The health record, the journal and the companion learn of a retired column (R78, step 3; R80): `old` is what ARR_REMAP held. -/
def State.columnRetired (s : State) (b : Nat) (old : Word) : State :=
  let s := (s.count (BLK_ARR_COUNT_RETIRED b) 1).arrHealth b .repaired ARR_COLUMN_RETIRED false
  let new := s.reg (BLK_ARR_REMAP b)
  let s := s.journal .device .internal jWrite (BLK_ARR_REMAP b) old new
  s.mailRepair 1 b 0 new.toNat

/-- Retire the logical column that a position serves (R78, step 1), or find the block unrepairable. -/
def State.retireColumn (s : State) (b col : Nat) (bank : Bool) : State :=
  let n := s.logicalOf b col
  match s.remapColumn b n with
  | some t => t.modBlk b fun x => { x with spareFill := some (n, if bank then some 0 else none, s.reg (BLK_ARR_REMAP b)) }
  | none => s.unrepairable b

/-- A unit of the array has failed (R76, R77): the last column of the table of R76. -/
def State.unitFailed (s : State) (b : Nat) (t : ArrTest) : State :=
  if t.site = .planeBus then s.unrepairable b else s.retireColumn b t.col (t.site = .stakeBank)

/-! ### Slots and acceptance (R115, R546) -/

/-- Do two records describe the same stake, apart from part and CRC? -/
def Origin.sameStake (x y : Origin) : Bool :=
  x.space == y.space && x.sig == y.sig && x.exp == y.exp && x.stride == y.stride && x.nc == y.nc && x.kg == y.kg

/-- The first part that fails decides the code. -/
def BlkState.slotCheck (x : BlkState) (slot fmt : Nat) : Option Nat :=
  (List.range (slotParts fmt)).findSome? fun p =>
    let o := x.originOf (slot + p)
    match o.st with
    | .empty => some STAKE_EMPTY
    | .lost => some STAKE_ORIGIN_LOST
    | .valid =>
      if o.part = p && o.fmt = fmt && o.sameStake (x.originOf slot) then none else some STAKE_MISMATCH

/-- Does a WEAVE name a slot of a range? -/
def WeaveOp.names (o : WeaveOp) (slot count : Nat) : Bool :=
  decide (o.slot < slot + count) && decide (slot < o.slot + slotParts o.sfmt)

/-- Is the array of block `b` running rands: no test, reload, repair or stop holds it (R82)? -/
def State.arrayRuns (s : State) (b : Nat) : Bool :=
  s.powered && s.blockPresent b && !s.blockOut b && decide ((s.blk b).phase = .idle ∨ (s.blk b).phase = .stopping) &&
    (s.blk b).ctx.isSome && !(s.blk b).inReset && !(s.blk b).discard && !s.flag PWR_STATUS_STOP &&
    (match (s.blk b).arrTest with | some t => !t.running | none => true) &&
    (s.blk b).reload.isNone && (s.blk b).spareFill.isNone

/-! ### Issue (R91 to R105) -/

/-- The operation that a WEAVE word and its registers describe. -/
def State.weaveOp (s : State) (b : Nat) (f : Bool) (w : Word) : WeaveOp :=
  let shape := (s.sreg b f (wSb w)).toNat
  { f := f, ticket := wTicket w, rows := wBits w 31 24 + 1, slot := wBits w 23 17, wfmt := wBits w 16 12,
    sfmt := wBits w 11 7, aset := wBits w 6 6, acc := bitOf w.toNat 5, skip := bitOf w.toNat 4, wide := bitOf w.toNat 3,
    kg := bits shape 19 16 + 1, nc := bits shape 14 8 + 1, row0 := bits shape 7 0,
    sig := (s.sreg b f (wSa w)).toNat, exp := (s.sreg b f (wDst w)).toNat, order := (s.bst b).order }

/-- The issue checks of WEAVE in the order of R546 (DEDUCED, log entry 27). -/
def weaveChecks (w : Word) (shape : Nat) (o : WeaveOp) : Option Nat :=
  let groups := o.rows * o.kg
  if wBits w 2 0 ≠ 0 || bits shape 63 20 ≠ 0 || bits shape 15 15 ≠ 0 then some FIELD_INVALID
  else if !weaverOk o.wfmt || !stakeOk o.sfmt then some FORMAT_INVALID
  else if 127 < o.slot + slotParts o.sfmt - 1 then some SLOT_RANGE
  else if (if o.wide then 128 else 256) < o.row0 + o.rows then some ACC_RANGE
  else if o.sig % 256 ≠ 0 || o.exp % 16 ≠ 0 then some OPERAND_ALIGN
  else if opsEnd < o.sig + groups * 4 * splintWidth o.wfmt || opsEnd < o.exp + groups then some OPERAND_RANGE
  else none

/-- WEAVE is checked and queued at the array. -/
def execWeave (b : Nat) (f : Bool) (w : Word) (s : State) : Out :=
  .next (s.issueAsync b f w (wTicket w) unitArray (fun s => decide (4 ≤ (s.bst b).aq.length)) fun s =>
    let o := s.weaveOp b f w
    match weaveChecks w (s.sreg b f (wSb w)).toNat o with
    | some e => .error e
    | none => .ok fun s => s.modBst b fun x => { x with aq := x.aq ++ [o], order := x.order + 1 })

/-- The operation that a STAKE.LD word and its registers describe. -/
def State.stakeOp (s : State) (b : Nat) (f : Bool) (w : Word) : StakeOp :=
  let geo := (s.sreg b f (wSb w)).toNat
  { load := true, f := f, ticket := wTicket w, slot := wBits w 31 25, count := slotParts (wBits w 24 20),
    fmt := wBits w 24 20, space := bitOf w.toNat 19, sig := (s.sreg b f (wSa w)).toNat,
    exp := (s.sreg b f (wDst w)).toNat, stride := bits geo 31 0, nc := bits geo 38 32 + 1, kg := bits geo 43 40 + 1,
    order := (s.bst b).order, started := false }

/-- The issue checks of STAKE.LD in the order of R546 (DEDUCED, log entry 27). COL_STRIDE is held to 4 × ws only where FMT is a stake
format: any other code gives FORMAT_INVALID (DESIGN CHOICE, log entry 103). -/
def stakeChecks (w : Word) (geo : Nat) (o : StakeOp) : Option Nat :=
  let ws := splintWidth o.fmt
  if wBits w 18 0 ≠ 0 || bits geo 63 44 ≠ 0 || bits geo 39 39 ≠ 0 || (stakeOk o.fmt && o.stride % (4 * ws) ≠ 0) then
    some FIELD_INVALID
  else if !stakeOk o.fmt then some FORMAT_INVALID
  else if 127 < o.slot + o.count - 1 then some SLOT_RANGE
  else if o.sig % 256 ≠ 0 || o.exp % 16 ≠ 0 then some OPERAND_ALIGN
  else if !o.space && (decide (opsEnd < o.sig + (o.nc - 1) * o.stride + 4 * ws * o.kg) ||
      decide (opsEnd < o.exp + (o.nc - 1) * (o.stride / (4 * ws)) + o.kg)) then some OPERAND_RANGE
  else none

/-- Is the stake queue full? -/
def State.sqFull (s : State) (b : Nat) : Bool := decide (4 ≤ (s.bst b).sq.length)

/-- Queue a stake operation. -/
def State.pushStake (s : State) (b : Nat) (o : StakeOp) : State :=
  s.modBst b fun x => { x with sq := x.sq ++ [o], order := x.order + 1 }

/-- STAKE.LD is checked and queued. -/
def execStakeLd (b : Nat) (f : Bool) (w : Word) (s : State) : Out :=
  .next (s.issueAsync b f w (wTicket w) unitStake (fun s => s.sqFull b) fun s =>
    let o := s.stakeOp b f w
    match stakeChecks w (s.sreg b f (wSb w)).toNat o with
    | some e => .error e
    | none => .ok fun s => s.pushStake b o)

/-- STAKE.INV is checked and queued; it takes no ticket. -/
def execStakeInv (b : Nat) (f : Bool) (w : Word) (s : State) : Out :=
  .next (s.issue b f w fun s =>
    let slot := wBits w 31 25
    let count := wBits w 24 18 + 1
    if wDst w ≠ 0 || wSa w ≠ 0 || wSb w ≠ 0 || wTicket w ≠ 0 || wBits w 17 0 ≠ 0 then .fault s FIELD_INVALID
    else if 127 < slot + count - 1 then .fault s SLOT_RANGE
    else if s.sqFull b then .hold s .stall
    else .retire (s.pushStake b ⟨false, f, 0, slot, count, 0, false, 0, 0, 0, 0, 0, (s.bst b).order, false⟩))

/-- The word of STAKE.STAT (R111, R547). -/
def Origin.statWord (o : Origin) : Word :=
  let st := match o.st with | .empty => 0 | .valid => 1 | .lost => 2
  BitVec.ofNat 64 (o.sig * 2 ^ 16 + b2n o.space * 2 ^ 15 + o.part * 2 ^ 7 + o.fmt * 4 + st)

/-- STAKE.STAT waits for the stake queue and writes the slot's record word. -/
def execStakeStat (b : Nat) (f : Bool) (w : Word) (s : State) : Out :=
  .next (s.issue b f w fun s =>
    if wSa w ≠ 0 || wSb w ≠ 0 || wTicket w ≠ 0 || wBits w 24 0 ≠ 0 then .fault s FIELD_INVALID
    else if s.sqFull b then .hold s .stall
    else if !(s.bst b).sq.isEmpty then .hold s (.sync true)
    else .retire (s.setSreg b f (wDst w) ((s.bst b).originOf (wBits w 31 25)).statWord))

/-! ### The stake queue (R62, R106, R110) -/

/-- Are the units of the block running? -/
def State.stakeRuns (s : State) (b : Nat) : Bool :=
  s.powered && s.blockPresent b && !s.blockOut b && decide ((s.blk b).phase = .idle ∨ (s.blk b).phase = .stopping) &&
    (s.blk b).ctx.isSome && !(s.blk b).inReset && !(s.blk b).discard

/-- Does a WEAVE issued before the operation still name one of its slots (R62)? -/
def BlkState.stakeHeld (x : BlkState) (o : StakeOp) : Bool :=
  (x.aq ++ (match x.run with | some r => [r.op] | none => [])).any fun q =>
    decide (q.order < o.order) && q.names o.slot o.count

/-- The head of the stake queue starts: a load begins to write, an invalidation takes effect. -/
def execStakeQueueStart (b : Nat) (s : State) : Out :=
  .next (
    if !s.stakeRuns b || s.unitsHalt b then s
    else match (s.bst b).sq with
      | [] => s
      | o :: rest =>
        if o.started || (s.bst b).stakeHeld o then s
        else if o.load then s.modBst b fun x => { x with sq := { o with started := true } :: rest }
        else s.modBst b fun x =>
          (List.range o.count).foldl (fun x i => x.setOriginState (o.slot + i) .empty) { x with sq := rest })

/-- Fill the slots of a load and write their records (R103, R106). -/
def BlkState.fillStake (x : BlkState) (o : StakeOp) (cols : List (List Group)) : BlkState :=
  let w := splintWidth o.fmt
  (List.range o.count).foldl (fun x p =>
    let cells := partCells w o.count p cols
    (x.fillSlot (o.slot + p) cells).setOrigin (o.slot + p)
      ⟨.valid, o.space, o.sig, o.exp, o.stride, o.nc, o.kg, o.fmt, p, cellsCrc cells⟩) x

/-- The load at the head of the stake queue completes. With STAKE_SOURCE all its slots are EMPTY (R106, R115): the rules give no order in
which it writes them (DESIGN CHOICE, log entry 103). A load that faults with another code leaves their contents and records as they
were: the rules say nothing of it (DESIGN CHOICE, log entry 91). -/
def execStakeLdDone (b : Nat) (s : State) : Out :=
  .next (
    if !s.stakeRuns b then s
    else match (s.bst b).sq, (s.blk b).ctx with
      | o :: rest, some c =>
        if !o.load || !o.started then s
        else
          let rec_ : Origin := ⟨.valid, o.space, o.sig, o.exp, o.stride, o.nc, o.kg, o.fmt, 0, 0⟩
          match s.readColumns b c rec_ o.nc 0 with
          | (.wait, s) => s
          | (.fault e, s) =>
            let s := s.modBst b fun x => { x with sq := rest }
            let s := if e = STAKE_SOURCE then
                s.modBst b fun x => (List.range o.count).foldl (fun x p => x.setOrigin (o.slot + p) .reset) x
              else s
            s.completeHere b o.f o.ticket unitStake 0 e
          | (.ok cols, s) =>
            let s := s.modBst b fun x => ({ x with sq := rest } : BlkState).fillStake o cols
            s.completeHere b o.f o.ticket unitStake 0 0
      | _, _ => s)

/-- Reload a slot from its origin (R75): `some true` on a match, `some false` where it is LOST now, `none` where the read must
wait. -/
def State.reloadSlot (s : State) (b slot : Nat) : Option Bool × State :=
  match (s.blk b).ctx with
  | none => (some false, s)
  | some c =>
    let o := (s.bst b).originOf slot
    let lost (s : State) : State := s.modBst b fun x => x.setOriginState slot .lost
    match s.readColumns b c o o.nc 0 with
    | (.wait, s) => (none, s)
    | (.fault _, s) => (some false, lost s)
    | (.ok cols, s) =>
      let cells := partCells (splintWidth o.fmt) (slotParts o.fmt) o.part cols
      if cellsCrc cells = o.crc then
        (some true, (s.modBst b fun x => x.fillSlot slot cells).count (BLK_ARR_COUNT_ORIGIN_RELOADS b) 1)
      else (some false, lost s)

/-! ### Rands -/

/-- The head of the array queue is accepted (R68, R115, R202). -/
def execWeaveAccept (b : Nat) (s : State) : Out :=
  .next (
    if !s.arrayRuns b || s.unitsHalt b || (s.bst b).run.isSome then s
    else match (s.bst b).aq with
      | [] => s
      | o :: rest =>
        if (s.bst b).sq.any fun q => decide (q.order < o.order) && o.names q.slot q.count then s
        else
          let s := s.modBst b fun x =>
            { x with aq := rest, pending := withBits x.pending o.ticket o.ticket 0, run := some ⟨o, 0, 0, false, false, false, false⟩ }
          match (s.bst b).slotCheck o.slot o.sfmt with
          | some e => s.weaveDone b o e false
          | none => s)

/-- Does a bank row of the operand bytes stand under test, so that the row is not ready (R82, R248)? -/
def State.rowBusy (s : State) (b a n : Nat) : Bool :=
  (s.blk b).rowTests.any fun t => (spans 1024 (n / 1024 + 2) a n).any fun p => bankRow p.1 == t.1

/-- Does a row fetch of the block's plane former wait at an operand bank where it has lost (R260)? -/
def State.fetchLost (s : State) (b : Nat) : Bool :=
  s.arbReqs.any fun r => r.lost && match r.hops with
    | h :: _ => h.idx == 0 && match h.arb with | .block b' a _ => b' == b && decide (a < 16) | _ => false
    | [] => false

/-- Offset and length of the bytes of row `m` of the weaver. -/
def WeaveOp.sigSpan (o : WeaveOp) (m : Nat) : Nat × Nat :=
  (o.sig + 4 * splintWidth o.wfmt * (m * o.kg), 4 * splintWidth o.wfmt * o.kg)
def WeaveOp.expSpan (o : WeaveOp) (m : Nat) : Nat × Nat := (o.exp + m * o.kg, o.kg)

/-- Fetch row `m` (R97): its 16 groups, absent ones all zero (R54). -/
def State.fetchRow (s : State) (b : Nat) (o : WeaveOp) (m : Nat) : Except Nat (List Group) × State :=
  match s.readLocal b (o.sigSpan m).1 (o.sigSpan m).2 with
  | (.error e, s) => (.error e, s)
  | (.ok sig, s) =>
    match s.readLocal b (o.expSpan m).1 (o.expSpan m).2 with
    | (.error e, s) => (.error e, s)
    | (.ok exp, s) =>
      (.ok (columnGroups (splintWidth o.wfmt) o.kg sig exp ++
        List.replicate (16 - o.kg) ⟨0, List.replicate 32 0⟩), s)

/-- Planes of a row in which some significand has a 1 (R69). -/
def activePlanes (w : Nat) (gs : List Group) : Nat :=
  ((List.range w).filter fun p => gs.any fun g => g.sigs.any fun x => bitOf (wrap w x) p).length

/-- Rand length of a row: T, or T_eff with skipping (R64, R69). -/
def State.randLength (s : State) (b : Nat) (o : WeaveOp) (gs : List Group) : Nat :=
  let p := slotParts o.sfmt
  let w := splintWidth o.wfmt
  if o.skip && s.flag (BLK_ARR_CTRL_SKIP_ALLOW b) then Nat.max 1 (p * activePlanes w gs) else w * p

/-- Plane cycles pass: the counters and the throttle debt (R86, R88, R517) (DESIGN CHOICE, log entry 84). -/
def State.planeCycles (s : State) (b t skipped : Nat) : State :=
  let s := s.count (BLK_ARR_CYCLES_COUNT b) t
  let s := s.count (BLK_ARR_SKIPPED_COUNT b) skipped
  s.modBlk b fun x => { x with debt := x.debt + t * s.fld PWR_STATUS_LEVEL }

/-- The idle cycles at a rand boundary (R517), after which the front latch is reloaded (R82) (DESIGN CHOICE, log entry 84). -/
def State.throttle (s : State) (b : Nat) : State :=
  let per : Int := 64 - s.fld PWR_STATUS_LEVEL
  let d := (s.blk b).debt
  if d ≤ 0 || per ≤ 0 then s
  else
    let n := ((d + per - 1) / per).toNat
    let s := s.modBst b fun x => { x with run := x.run.map fun r => { r with latched := false } }
    (s.count (BLK_ARR_IDLE_COUNT b) n).modBlk b fun x => { x with debt := d - n * per }

/-- Check events whose mismatches take effect in one cycle: all of them take place, and one that mismatches is recorded and acted on: the
first real one, else the first injected one, stake bank before latch and adder (R537) (DESIGN CHOICE, log entry 103). -/
def State.checkStage (s : State) (b : Nat) (last : Bool) (l : List (Site × Nat)) : Option (Site × Nat × Hit) × State :=
  let low := s.lowestServing b
  l.foldl (fun acc ev =>
    let (site, part) := ev
    let offers := if site = .planeBus then fun _ row => decide (row < 16)
      else if site = .ktree || site = .update then fun col _ => acc.2.serves b col
      else fun col row => acc.2.serves b col && decide (row < 16)
    let r := acc.2.check site b offers (fun _ => low) last part
    (match acc.1, r.1 with
      | some x, some h => if x.2.2.injected && !h.injected then some (site, part, h) else some x
      | none, some h => some (site, part, h)
      | x, none => x, r.2)) (none, s)

/-- The checks of a rand up to the update, in the order in which their mismatches take effect (R543): the site, the slot part of a stake
bank read, and where. Each part read into a latch is an event: those of a wide stake in every rand, that of a narrow one when the
latch is loaded. A mismatch at a plane bus ends the rand in its plane cycle; the part reads and the checks of the cells take effect at
the close of the rand, those of the K tree and of the update lane after it. -/
def State.randChecks (s : State) (b : Nat) (r : WeaveRun) : Option (Site × Nat × Hit) × State :=
  let last := decide (s.arrLimit b ≤ r.fails + 1)
  let parts := slotParts r.op.sfmt
  let reads := if !r.latched || parts ≠ 1 then (List.range parts).map fun p => (Site.stakeBank, p) else []
  let stages := [[(Site.planeBus, 0)], reads ++ [(Site.cell, 0)], [(Site.ktree, 0)], [(Site.update, 0)]]
  stages.foldl (fun acc l => if acc.1.isSome then acc else acc.2.checkStage b last l) (none, s)

/-- A check of a rand has failed (R74, R77): the location is recorded, the rand is discarded and will be replayed, after a reload of the
slot part that failed where the check was a stake bank's. Where the replays of one rand fail at different locations, only the last
one's is tested; and the run of the failing rand after a retirement is not counted in REPLAYS: the rules leave both open (DESIGN
CHOICE, log entry 91). -/
def State.randFailed (s : State) (b : Nat) (r : WeaveRun) (site : Site) (part : Nat) (h : Hit) : State :=
  let col := if site = .planeBus then 0xFF else h.col
  let row := if site = .planeBus || site = .cell || site = .stakeBank then h.row else 0
  let s := s.setFld (BLK_ARR_STATUS_LAST_COL b) col
  let s := s.setFld (BLK_ARR_STATUS_LAST_ROW b) row
  let last := decide (s.arrLimit b ≤ r.fails + 1)
  let s := if last then s else s.count (BLK_ARR_COUNT_REPLAYS b) 1
  let s := s.modBst b fun x => { x with run := some { r with fails := r.fails + 1, latched := false } }
  s.modBlk b fun x =>
    { x with
      arrTest := some ⟨site, h.col, row, r.op.slot + part, false, h.injected && (match x.arrTest with | some t => t.injected | none => true)⟩
      reload := if site = .stakeBank && !last then some (r.op.slot + part) else x.reload }

/-- The entries of an accumulator row after update() (R49, R66), and how many overflowed. -/
def updateRow (o : WeaveOp) (old : List Byte) (xs : List FVal) : List Byte × Nat :=
  let k := if o.wide then f64 else f32
  let n := o.entryBytes
  let rs := ((List.range xs.length).zip xs).map fun (i, x) => updateEntry k (leNat ((old.drop (n * i)).take n)) x (!o.acc)
  (rs.flatMap fun r => leBytes r.1 n, (rs.filter (·.2)).length)

/-- A due self-test starts at the boundary once the replayed rand has been written (R76, R83). -/
def State.startArrTest (s : State) (b : Nat) : State :=
  match (s.blk b).arrTest with
  | some t => if t.running then s else
      (s.modBlk b fun x => { x with arrTest := some { t with running := true } }).setFlag (BLK_ARR_STATUS_SELFTEST b) true
  | none => s

/-- The throttle's idle cycles at a boundary, after a preemption (R83, R517): where the block is to stop, those that are owed carry
over. -/
def State.idleCycles (s : State) (b : Nat) : State := if s.unitsHalt b then s else s.throttle b

/-- The boundary after a rand that was written: a due self-test, and what comes after it, in the order of R83. -/
def State.boundary (s : State) (b : Nat) : State := (s.startArrTest b).idleCycles b

/-- The rand that a stop request lets complete has run: the array stops at its boundary (R82). -/
def State.closeRun (s : State) (b : Nat) : State :=
  if s.unitsHalt b then s.modBst b fun x => { x with run := x.run.map fun r => { r with closed := true } } else s

/-- The rand of a row is written (R66, R73, R93): the row's entries, the overflow record (R201), and the instruction's end. A self-test
that is due when the WEAVE ends with a code before the replayed rand is written stays due, and runs at the boundary of the next rand
that the block writes, of whatever WEAVE; only a slot that is lost drops it (DESIGN CHOICE, log entry 103).
ARR_PROGRESS.VALID clears at the next rand that is written, or when the WEAVE completes: the rules do not say when (DESIGN CHOICE, log
entry 91). -/
def State.randWrite (s : State) (b : Nat) (r : WeaveRun) (gs : List Group) : State :=
  let o := r.op
  let a := o.rowAddr r.next
  let n := o.nc * o.entryBytes
  if o.acc && s.localPoisoned b a n then s.weaveDone b o POISONED true
  else
    let hit := if o.acc then s.check .accRead b (fun _ _ => true) (fun _ => s.lowestServing b) false else (none, s)
    match hit with
    | (some h, s) =>
      let s := s.setFld (BLK_ARR_STATUS_LAST_COL b) (if h.injected then s.lowestServing b else h.col)
      let s := s.setFld (BLK_ARR_STATUS_LAST_ROW b) 0
      ((s.poisonRows b o r.next).dueRowTest b (bankRow a) h.injected).weaveDone b o ACC_PARITY true
    | (none, s) =>
      let ww := splintWidth o.wfmt
      let ws := splintWidth o.sfmt
      let xs := (List.range o.nc).map fun c =>
        refGroup ww ws gs ((List.range 16).map fun k => (s.bst b).stakeGroup o.slot o.sfmt k c)
      let u := updateRow o (s.localBytes b a n) xs
      let s := s.writeLocal b a u.1
      let s := s.count (BLK_NUM_COUNT_UPDATES b) u.2
      let s := if u.2 = 0 then s else s.modBst b fun x => { x with pending := withBits x.pending o.ticket o.ticket 1 }
      let s := s.setFlag (BLK_ARR_PROGRESS_VALID b) false
      if r.next + 1 = o.rows then (s.weaveDone b o 0 true).boundary b
      else
        (s.modBst b fun x => { x with run := some { r with next := r.next + 1, fails := 0, latched := true } }).boundary b

/-- One rand of the running WEAVE: fetch, plane cycles, checks, K tree and update (R63 to R74, R82, R85). After a stop request one rand
completes, the one in its plane cycles. -/
def execRandBoundary (b : Nat) (s : State) : Out :=
  .next (
    if !s.arrayRuns b then s
    else match (s.bst b).run with
      | none => s
      | some r =>
        let o := r.op
        if r.rowWait || r.closed || s.arrLimit b ≤ r.fails then s
        else if s.fetchLost b || s.rowBusy b (o.sigSpan r.next).1 (o.sigSpan r.next).2 ||
            s.rowBusy b (o.expSpan r.next).1 (o.expSpan r.next).2 then
          s.modBst b fun x => { x with run := some { r with rowWait := true } }
        else match if r.stale then (s.bst b).slotCheck o.slot o.sfmt else none with
          | some e => (if e = STAKE_ORIGIN_LOST then s.poisonRows b o r.next else s).weaveDone b o e true
          | none =>
            let r := { r with stale := false }
            match s.fetchRow b o r.next with
            | (.error e, s) => s.weaveDone b o e true
            | (.ok gs, s) =>
              let t := s.randLength b o gs
              match s.randChecks b r with
              | (some (site, part, h), s) => (((s.planeCycles b t 0).randFailed b r site part h).idleCycles b).closeRun b
              | (none, s) =>
                ((s.planeCycles b t (splintWidth o.wfmt * slotParts o.sfmt - t)).randWrite b r gs).closeRun b)

/-- A row that was not ready arrives (R82). -/
def execWeaverRowArrive (b : Nat) (s : State) : Out :=
  .next (s.whenOn fun s => match (s.bst b).run with
    | some r =>
      if s.fetchLost b || s.rowBusy b (r.op.sigSpan r.next).1 (r.op.sigSpan r.next).2 ||
          s.rowBusy b (r.op.expSpan r.next).1 (r.op.expSpan r.next).2
      then s
      else s.modBst b fun x => { x with run := some { r with rowWait := false, latched := false } }
    | none => s)

/-- The reload of a slot from its origin ends (R75). -/
def execOriginReloadDone (b : Nat) (s : State) : Out :=
  .next (s.whenOn fun s => match (s.blk b).reload with
    | none => s
    | some slot =>
      match s.reloadSlot b slot with
      | (none, s) => s
      | (some ok, s) =>
        let s := s.modBlk b fun x => { x with reload := none }
        if ok then s else s.slotLost b slot)

/-- The targeted self-test of the array ends (R76). -/
def execArrSelftestDone (b : Nat) (pass : Bool) (s : State) : Out :=
  .next (s.whenOn fun s => match (s.blk b).arrTest with
    | none => s
    | some t =>
      if !t.running then s
      else
        let s := s.setFlag (BLK_ARR_STATUS_SELFTEST b) false
        let s := s.modBlk b fun x => { x with arrTest := none }
        if pass then
          let s := (s.count (BLK_ARR_COUNT_TRANSIENT b) 1).arrHealth b .transient ARR_TRANSIENT t.injected
          let s := s.modBst b fun x => { x with run := x.run.map fun r => { r with latched := false } }
          if t.site = .stakeBank && decide (((s.bst b).originOf t.slot).st = .valid) then
            (s.modBlk b fun x => { x with reload := some t.slot }).modBst b fun x =>
              { x with run := x.run.map fun r => { r with stale := true } }
          else s
        else s.unitFailed b t)

/-- One rand has failed REPLAY_LIMIT times in a row (R77). -/
def execReplayLimitReached (b : Nat) (s : State) : Out :=
  .next (s.whenOn fun s => match (s.bst b).run, (s.blk b).arrTest with
    | some r, some t =>
      if r.fails < s.arrLimit b then s
      else
        let s := s.modBlk b fun x => { x with arrTest := none }
        let s := s.modBst b fun x => { x with run := some { r with fails := 0, stale := true, latched := false } }
        s.unitFailed b t
    | _, _ => s)

/-- Reload the slots of a list that hold valid records, one after another (R75, R78): the first whose read must wait, if one must. -/
def State.refill (s : State) (b : Nat) : List Nat → Option Nat × State
  | [] => (none, s)
  | k :: ks =>
    if ((s.bst b).originOf k).st ≠ .valid then s.refill b ks
    else match s.reloadSlot b k with
      | (none, s) => (some k, s)
      | (some ok, s) => (if ok then s else s.slotLost b k).refill b ks

/-- The spare column is filled (R78, steps 2 to 4): where the fault was in the banks every slot with a valid record is reloaded from its
origin, one after another; the retirement is recorded, journaled and reported to the companion (R80). -/
def execSpareFillDone (b : Nat) (s : State) : Out :=
  .next (s.whenOn fun s => match (s.blk b).spareFill with
    | none => s
    | some (n, from_, old) =>
      match s.refill b ((List.range 128).drop (from_.getD 128)) with
      | (some k, s) => s.modBlk b fun x => { x with spareFill := some (n, some k, old) }
      | (none, s) =>
        let s := s.modBlk b fun x => { x with spareFill := none }
        let s := s.modBst b fun x => { x with run := x.run.map fun r => { r with stale := true, latched := false } }
        s.columnRetired b old)

/-- A failure at the replay limit that has not acted yet acts, for a block whose context is gone: the unit is failed (R77, R198). -/
def State.limitReached (s : State) (b : Nat) : State :=
  let s := if s.coreLimit b ≤ (s.blk b).coreFails then (s.modBlk b fun x => { x with coreFails := 0 }).coreOut b else s
  match (s.bst b).run, (s.blk b).arrTest with
  | some r, some t =>
    if r.fails < s.arrLimit b then s
    else
      let s := (s.modBlk b fun x => { x with arrTest := none }).modBst b fun x => { x with run := none }
      match if t.site = .planeBus then none else s.remapColumn b (s.logicalOf b t.col) with
      | some t => t.columnRetired b (s.reg (BLK_ARR_REMAP b))
      | none => (s.setFlag (BLK_ARR_STATUS_OUT_OF_SERVICE b) true).blockLeaves b ARR_UNREPAIRABLE
  | _, _ => s

end Sys2Proof.Machine
end

