-- ==== Sys2Proof/Machine/Arb.lean ====
section
/-!
DEFINITION. Arbitration (R258 to R273): who is served where, the requests with their stamps and the ages of flows, the decision,
grants with their beats, burst limits and break points, quota windows and the emergency requester, and the stalls of PTB_STALL (R532).
A command of an arbiter is one clk of it, and brings the requests that enter the device's arbitration there.
-/

namespace Sys2Proof.Machine

/-! ### Arbiters (R258, R259) -/

/-- The fields of an arbiter's registers. -/
def arbQuota (o : Nat) : Fld := ⟨o, 63, 48⟩
def arbBurst (o : Nat) : Fld := ⟨o, 47, 40⟩
def arbGroup (o : Nat) : Fld := ⟨o, 39, 34⟩
def arbEmergSel (o : Nat) : Fld := ⟨o, 33, 32⟩
def arbRot (o : Nat) : Fld := ⟨o, 31, 26⟩
def arbTestEn (o : Nat) : Fld := ⟨o, 3, 3⟩
def arbMaxAge (o : Nat) : Fld := ⟨o + 0x18, 63, 32⟩
def arbEmergBeats (o : Nat) : Fld := ⟨o + 0x18, 31, 16⟩
def arbMaskings (o : Nat) : Fld := ⟨o + 0x18, 15, 0⟩

/-- The arbiter of a block's registers `a`: those of the CELL arbiters are of all 16 column rows. -/
def arbOfIndex (b a : Nat) : ArbId := if a = 20 then .cell b 0 false else .block b a false

/-- Does the device have the arbiter? Of a block's, the accumulator sets and the cells have a write port of their own (R258). -/
def State.arbPresent (s : State) : ArbId → Bool
  | .chip a => decide (a ≤ 16)
  | .region r a => decide (r < 4) && decide (a < 4)
  | .block b a wr => s.blockPresent b && decide (a < 20) && (!wr || a == 16 || a == 17)
  | .cell b row _ => s.blockPresent b && decide (row < 16)

/-- The requesters that an arbiter serves (R259). -/
def arbServes (i : ArbId) (n : Nat) : Bool :=
  decide (61 ≤ n ∧ n ≤ 63) || match i with
    | .chip a =>
      if a < 4 then (decide (n < 4) && n != a) || (decide (4 ≤ n) && decide (n ≤ 10))
      else if a = 4 then decide (n < 4) || n == 5 || n == 9
      else n == 5 || n == 7 || n == 11 || n == 12
    | .region _ a =>
      if a < 2 then decide (n ≤ 35) else if a = 2 then decide (n < 32) || n == 33 || n == 34 else decide (n < 32)
    | .cell _ _ wr => if wr then [1, 10, 11].contains n else [0, 10].contains n
    | .block _ a _ =>
      if a < 16 then [0, 1, 2, 3, 4, 5, 6, 7, 10, 11].contains n
      else if a < 18 then [2, 3, 4, 5, 6, 7, 10, 11].contains n
      else if a = 18 then [3, 4, 5, 6, 7, 10, 11].contains n
      else [1, 2, 3, 4, 5, 6, 7, 8, 9, 10].contains n

/-- The requesters of either port, as a mask: the bits of ARB_PRIO that can be set. -/
def arbServedMask (i : ArbId) : Nat :=
  let j := match i with
    | .cell b row _ => ArbId.cell b row true
    | x => x
  (List.range 64).foldl (fun m n => if arbServes i n || arbServes j n then m + 2 ^ n else m) 0

/-! ### Beats and break points (R258, R259) -/

/-- The most that one beat of an arbiter transfers: bytes, or one slot part, walk or packet. -/
def arbBeat : ArbId → Nat
  | .block _ a _ => if a < 18 then 1024 else if a = 18 then 64 else 256
  | .cell _ _ _ => 1
  | .region _ a => if a < 3 then 256 else 1
  | .chip a => if a < 5 then 256 else 1

/-- The beats that an arbiter transfers in a clk. -/
def arbRate : ArbId → Nat
  | .region _ a => if a < 2 then 2 else 1
  | _ => 1

/-- After how much of a request its requester has a break point within it; 0 where only the request's end is one. -/
def arbBreak (i : ArbId) (n : Nat) : Nat :=
  if 61 ≤ n then arbBeat i
  else match i with
    | .cell _ _ _ => 1
    | .block _ _ _ => if n = 1 ∨ n = 10 then 4096 else if n = 2 ∨ n = 11 then arbBeat i else 0
    | .region _ a => if n = 33 ∨ a = 3 then 0 else if n = 35 then arbBeat i else 1024
    | .chip a => if a < 5 then 1024 else if n = 11 ∨ n = 12 then 1 else 4

/-- The limit of R259 on a request that reaches a region or chip arbiter. -/
def hopFits (h : Hop) : Bool :=
  match h.arb with
  | .block _ _ _ | .cell _ _ _ => true
  | _ => decide (h.len ≤ 4096)

/-- Can a request take a way through the arbiters: it begins at one that serves it, and each hop is served? The debug port requests only
while the debug authority exists (R542). -/
def State.hopsOk (s : State) (i : ArbId) (l : List Hop) : Bool :=
  (match l with | h :: _ => h.arb == i && (h.idx != 61 || s.flag LID_AUTH_DEBUG_EN) | [] => false) &&
    l.all fun h => s.arbPresent h.arb && arbServes h.arb h.idx && decide (0 < h.len) && hopFits h

/-- Is a requester an engine, or does its request come in over a link? Its stamp is then of the clk of forming or of acceptance, which
may lie before the clk in which it comes to its first arbiter (R261) (DEDUCED, log entry 87). -/
def stampedBefore (i : ArbId) (n : Nat) : Bool :=
  n != 61 && match i with
    | .chip _ => decide (4 ≤ n)
    | .region _ _ => decide (33 ≤ n)
    | .block _ _ _ | .cell _ _ _ => decide (n ∉ [0, 7, 8, 9])

/-! ### Requests and ages (R261, R262) -/

/-- The stamp of a request that enters at an arbiter. -/
def State.stampFor (s : State) (i : ArbId) (r : ArbNew) : Nat :=
  match r.hops with
  | h :: _ => if stampedBefore i h.idx then Nat.min r.stamp s.clk else s.clk
  | [] => s.clk

/-- The block whose unit a request at an arbiter is of: the debug port is no unit of a block. -/
def srcOf (i : ArbId) (l : List Hop) : Option Nat :=
  match i, l with
  | .block b _ _, h :: _ | .cell b _ _, h :: _ => if h.idx = 61 then none else some b
  | _, _ => none

/-- Requests enter the device's arbitration at an arbiter, each with its stamp. -/
def State.enter (s : State) (i : ArbId) (new : List ArbNew) : State :=
  { s with arbReqs := s.arbReqs ++ (new.filter fun r => s.hopsOk i r.hops).map fun r => ⟨r.hops, s.stampFor i r, 0, false, srcOf i r.hops⟩ }

/-- An age as it is presented: it saturates (R261). -/
def satAge (n : Nat) : Nat := Nat.min n (2 ^ 32 - 1)

/-- The age that requester `n` presents at an arbiter's port: that of the oldest request waiting anywhere on its way there (R262). -/
def State.flowAge (s : State) (key n : Nat) : Nat :=
  ((s.arbReqs.filter fun r => r.hops.any fun h => arbKey h.arb == key && h.idx == n).map fun r => s.clk - r.stamp).foldl Nat.max 0

/-- Those who request at an arbiter's port now, each with the age that it presents. -/
def State.requesters (s : State) (i : ArbId) : List (Nat × Nat) :=
  (positions 64 fun n => s.requests (arbKey i) n).map fun n => (n, s.flowAge (arbKey i) n)

/-- Does the beat that takes what is served of a request from `lo` to `hi` end at a break point: every beat, or the first one that ends at
or after each of the multiples that R259 gives? -/
def breakAt (i : ArbId) (n lo hi : Nat) : Bool :=
  arbBreak i n != 0 && (decide (arbBreak i n ≤ arbBeat i) || lo / arbBreak i n != hi / arbBreak i n)

/-- A unit admitted to a stack takes a credit of it. -/
def State.beatCredit (s : State) : ArbId → State
  | .region r a => if a < 2 then s.stackCredit (2 * r + a) else s
  | _ => s

/-- The next beat of requester `n`'s request that waits longest: the state after it, and whether the beat ends at a break point. -/
def State.transfer (s : State) (i : ArbId) (n : Nat) : Bool × State :=
  let s := s.beatCredit i
  match takeFirst (fun r : ArbReq => r.waits (arbKey i) n) s.arbReqs with
  | (some r, _) =>
    match r.hops with
    | [] => (true, s)
    | h :: rest =>
      let at_ := h.addr + r.served
      let served := r.served + Nat.min (h.len - r.served) (arbBeat i - at_ % arbBeat i)
      if h.len ≤ served then
        let left := (takeFirst (fun r : ArbReq => r.waits (arbKey i) n) s.arbReqs).2
        (true, { s with arbReqs := left ++ (if rest.isEmpty then [] else [{ r with hops := rest, served := 0, lost := false }]) })
      else
        (breakAt i n r.served served,
          { s with arbReqs := replaceFirst (fun r : ArbReq => r.waits (arbKey i) n) (fun r => { r with served := served }) s.arbReqs })
  | (none, _) => (true, s)

/-! ### The array and its ports (R260) -/

/-- Does a block's array run rands of a WEAVE? -/
def State.arrayBusy (s : State) (b : Nat) : Bool :=
  s.arrayRuns b && match (s.bst b).run with | some r => !r.rowWait | none => false

/-- May a requester take a port now? While the array runs, only the latch loader requests at the cell read port, and the self-test engine
requests cell ports only at its boundaries (R260, R272). A stack admits what its credits allow (R533). -/
def State.portOpen (s : State) (i : ArbId) (n : Nat) : Bool :=
  match i with
  | .region r a => decide (2 ≤ a) || s.stackAdmits (2 * r + a)
  | .cell b _ wr => !s.arrayBusy b || (if wr then n != 62 else n == 0)
  | _ => true

/-- Does the update lane take the accumulator ports of an arbiter in this clk (R260) (DESIGN CHOICE, log entry 97)? -/
def State.laneTakes (s : State) (i : ArbId) : Bool :=
  match i with
  | .block b a _ =>
    (a == 16 || a == 17) && s.arrayBusy b && (match (s.bst b).run with | some r => r.op.aset == a - 16 | none => false) &&
      Config.updateLane b s.clk
  | _ => false

/-! ### The emergency requester (R271) -/

/-- Where the reload of a slot from its origin reads: the banks of the operand store, or the stacks behind its context's pages, 8 for the
companion. -/
def State.reloadPlaces (s : State) (b slot : Nat) : List Nat × List Nat :=
  let o := (s.bst b).originOf slot
  if o.st ≠ .valid then ([], [])
  else
    let w := splintWidth o.fmt
    let parts := (List.range o.nc).flatMap fun n => [(o.sig + n * o.stride, 4 * w * o.kg), (o.exp + n * (o.stride / (4 * w)), o.kg)]
    if !o.space then (distinct (parts.flatMap fun p => (spans 0x40000 (p.2 / 0x40000 + 2) p.1 p.2).map fun q => q.1 / 0x40000), [])
    else
      let c := (s.blk b).ctx.getD 0
      ([], distinct (parts.flatMap fun p => (pagePieces p.1 p.2).filterMap fun q => match s.translate c q.1 .read with
        | .ok (0, pa) => some (s.locate pa).1
        | .ok _ => some 8
        | .error _ => none))

/-- Does the reload of a slot on block `b` need an arbiter: the bank, the block's port, and the way to the stack or the companion? -/
def State.reloadNeeds (s : State) (b slot : Nat) : ArbId → Bool
  | .block b' a _ =>
    b' == b && ((a < 16 && (s.reloadPlaces b slot).1.contains a) || (a == 19 && !(s.reloadPlaces b slot).2.isEmpty))
  | .cell b' _ _ => b' == b
  | .region r a =>
    (s.reloadPlaces b slot).2.any fun p =>
      if a < 2 then p == 2 * r + a else a == 2 && r == b / 32 && p / 2 != r
  | .chip a => (s.reloadPlaces b slot).2.any fun p => if a < 4 then p / 2 == a && a != b / 32 else a == 4 && p == 8

/-- The slots that block `b` reloads from their origins, with the action: of a reload under way, or of a spare fill whose banks are not
copied. -/
def State.reloading (s : State) (b : Nat) : List (RecAct × Nat) :=
  (match (s.blk b).reload with | some k => [(.reload b k, k)] | none => []) ++
    match (s.blk b).spareFill with
    | some (_, some _, _) => (positions 128 fun k => ((s.bst b).originOf k).st == .valid).map fun k => (.spare b, k)
    | _ => []

/-- The recovery actions that need an arbiter, each with its engine: 62 for self-tests, 63 for the others. -/
def State.recoveryActs (s : State) (i : ArbId) : List (RecAct × Nat) :=
  let reloads := (s.blks.map (·.1)).flatMap fun b => ((s.reloading b).filter fun x => s.reloadNeeds b x.2 i).map fun x => (x.1, 63)
  let own : List (RecAct × Nat) := match i with
    | .chip _ => []
    | .region r a =>
      (s.frameTests.filter fun t => decide (a < 2) && t.stack == 2 * r + a).map fun t => (.frame t.stack t.frame, if t.staged then 62 else 63)
    | .block b a _ =>
      let k := s.blk b
      (if k.inReset && decide (a ≤ 18) then [(.scrub b, 63)] else []) ++
        (if a = 18 && s.flag (BLK_CORE_STATUS_SELFTEST b) then [(.core b, 62)] else []) ++
        (if k.vregTest then [(.vregs b, 62)] else []) ++
        (match k.rowTests with | (row, _) :: _ => if row / 256 = a then [(.row b row, 62)] else [] | [] => [])
    | .cell b _ _ =>
      let k := s.blk b
      (if k.inReset then [(.scrub b, 63)] else []) ++
        (if (match k.arrTest with | some t => t.running | none => false) then [(.array b, 62)] else []) ++
        (if k.spareFill.isSome then [(.spare b, 63)] else [])
  own ++ reloads

/-- The recovery action that has an arbiter's emergency requester, with its engine: one that holds it until it ends, else the first
(R271). -/
def State.recoveryAct (s : State) (i : ArbId) : Option (RecAct × Nat) :=
  let l := s.recoveryActs i
  match (s.arb (arbKey i)).held with
  | some a => (l.find? fun x => x.1 == a).or l.head?
  | none => l.head?

/-- The recovery action that has the emergency requester in this clk holds it. -/
def State.holdAct (s : State) (i : ArbId) : State :=
  s.modArb (arbKey i) fun x => { x with held := (s.recoveryAct i).map (·.1) }

/-- ARB_CFG and ARB_PRIO as a decision of this clk sees them: as they were before a write in it (R266). -/
def State.cfgSeen (s : State) (i : ArbId) : Nat :=
  match (s.arb (arbOff i)).old with
  | some (t, c, _) => if t = s.clk then c.toNat else (s.reg (arbOff i)).toNat
  | none => (s.reg (arbOff i)).toNat
def State.prioSeen (s : State) (i : ArbId) : Nat :=
  match (s.arb (arbOff i)).old with
  | some (t, _, p) => if t = s.clk then p.toNat else (s.reg (arbOff i + 8)).toNat
  | none => (s.reg (arbOff i + 8)).toNat

/-- The enabled emergency requester of an arbiter. -/
def State.emergency (s : State) (i : ArbId) : Option Nat :=
  match s.recoveryAct i with
  | some (_, e) => some e
  | none =>
    let v := s.cfgSeen i
    if bits v 33 32 ≠ 0 && (bitOf v 3 || !s.ready) then some (60 + bits v 33 32) else none

/-- Does a requester request at an arbiter's port that it may take now? -/
def State.requestsAt (s : State) (i : ArbId) (n : Nat) : Bool := s.requests (arbKey i) n && s.portOpen i n

/-- The emergency requester that takes the next beat: it is enabled and it requests (R272). -/
def State.emergencyTakes (s : State) (i : ArbId) : Option Nat := (s.emergency i).filter (s.requestsAt i)

/-! ### The decision (R263) -/

/-- Is a requester high-priority? -/
def State.arbPrio (s : State) (i : ArbId) (n : Nat) : Bool := bitOf (s.prioSeen i) n

/-- Is a requester masked? Only a high-priority one can be, because its quota is spent (R268). Each port counts for itself; ARB_MASK shows
those that either port masks. -/
def State.arbMasked (s : State) (i : ArbId) (n : Nat) : Bool :=
  s.arbPrio i n && decide (Nat.max 1 (s.arb (arbKey i)).quota ≤ SMap.get (fun _ => 0) (s.arb (arbKey i)).grants n)

/-- The winner among requests with their ages: priority, then age, then the lowest index counted from ROT (DEDUCED, log entry 87). -/
def State.arbPick (s : State) (i : ArbId) (reqs : List (Nat × Nat)) : Option (Nat × Nat) :=
  let cand := reqs.filter fun q => arbServes i q.1 && !s.arbMasked i q.1
  let hi := cand.filter fun q => s.arbPrio i q.1
  let pool := if hi.isEmpty then cand else hi
  let oldest := (pool.map fun q => satAge q.2).foldl Nat.max 0
  let rot := s.fld (arbRot (arbOff i))
  let key (n : Nat) : Nat := (n + 64 - rot) % 64
  (pool.filter fun q => satAge q.2 == oldest).foldl (fun best q => match best with
    | none => some q
    | some w => if key q.1 < key w.1 then some q else best) none

/-! ### Stalls (R532) -/

/-- Does a PTB_STALL entry name an arbiter? -/
def State.stallNames (s : State) (e : Nat) : ArbId → Bool
  | .chip a => s.ptb.fld (PTB_STALL_LEVEL e) == 0 && s.ptb.fld (PTB_STALL_ARB e) == a
  | .region r a => s.ptb.fld (PTB_STALL_LEVEL e) == 1 && s.ptb.fld (PTB_STALL_UNIT e) == r && s.ptb.fld (PTB_STALL_ARB e) == a
  | .block b a _ => s.ptb.fld (PTB_STALL_LEVEL e) == 2 && s.ptb.fld (PTB_STALL_UNIT e) == b && s.ptb.fld (PTB_STALL_ARB e) == a
  | .cell b _ _ => s.ptb.fld (PTB_STALL_LEVEL e) == 2 && s.ptb.fld (PTB_STALL_UNIT e) == b && s.ptb.fld (PTB_STALL_ARB e) == 20

/-- Draw for each entry that names the arbiter, in ascending index, until one defers the decision (DESIGN CHOICE, log entry 11). -/
def State.stallDraw (s : State) (i : ArbId) : List Nat → Bool × State
  | [] => (false, s)
  | e :: es =>
    if s.stallNames e i && decide (s.ptb.fld (PTB_STALL_PROB e) ≠ 0) then
      let d := Config.ptbDraw (s.ptb.reg PTB_SEED).toNat 0 s.stallDraws % 65536
      let s := { s with stallDraws := s.stallDraws + 1 }
      if d < s.ptb.fld (PTB_STALL_PROB e) then (true, s.count PTB_COUNT_STALLED 1) else s.stallDraw i es
    else s.stallDraw i es

/-! ### Taking the resource (R264, R265, R272) -/

/-- A request is granted: ARB_STAT keeps the largest age, and the others that wait at the port have lost. -/
def State.noteGrant (s : State) (i : ArbId) (n : Nat) : State :=
  let s := s.setFld (arbMaxAge (arbOff i)) (Nat.max (s.fld (arbMaxAge (arbOff i))) (satAge (s.flowAge (arbKey i) n)))
  { s with arbReqs := s.arbReqs.map fun r =>
      match r.hops with
      | h :: _ => if arbKey h.arb = arbKey i && h.idx != n then { r with lost := true } else r
      | [] => r }

/-- A requester is granted: if it is high-priority, its grant is counted against its quota (R268) (DEDUCED, log entry 87). -/
def State.arbGrant (s : State) (i : ArbId) (n : Nat) : State :=
  let s := s.noteGrant i n
  let prio := s.arbPrio i n
  let limit := bits (s.cfgSeen i) 47 40 + 1
  s.modArb (arbKey i) fun x =>
    { x with owner := some n, expired := false, beats := 0, limit := limit,
             grants := if prio then SMap.modify (fun _ => 0) x.grants n (· + 1) else x.grants }

/-- The emergency requester has the next beats, before an owner that keeps its grant, if there is one (R272): no quota counts it. -/
def State.giveEmergency (s : State) (i : ArbId) (e : Nat) (old : Option Nat) : State :=
  (s.noteGrant i e).modArb (arbKey i) fun x => { x with owner := some e, emergency := some old }

/-- An arbiter's port without an owner. -/
def State.freePort (s : State) (i : ArbId) : State :=
  s.modArb (arbKey i) fun x => { x with owner := none, expired := false, beats := 0, emergency := none }

/-- The arbiter decides over the requests that stand (R263): the emergency requester first, if it is enabled and requests; PTB_STALL may put
any other decision off by a clk. -/
def State.decide_ (s : State) (i : ArbId) : State :=
  match s.emergencyTakes i with
  | some e => (s.freePort i).giveEmergency i e none
  | none =>
    match s.arbPick i ((s.requesters i).filter fun q => s.portOpen i q.1) with
    | none => s.freePort i
    | some w =>
      match (if s.ptb.flag PTB_CTRL_EN then s.stallDraw i (List.range 8) else (false, s)) with
      | (true, s) => s.freePort i
      | (false, s) => (s.freePort i).arbGrant i w.1

/-- A beat of the owner, and the decision during its last beat: the grant ends when the owner has no request left that the port is open to,
or at a break point once its burst limit has expired. -/
def State.ownerBeat (s : State) (i : ArbId) (n : Nat) : State :=
  if !s.requestsAt i n then s.decide_ i
  else
    let (brk, s) := s.transfer i n
    let s := s.modArb (arbKey i) fun x => { x with beats := x.beats + 1, expired := x.expired || decide (x.limit ≤ x.beats + 1) }
    if !s.requestsAt i n || (brk && (s.arb (arbKey i)).expired) then s.decide_ i else s

/-- The staging of a frame is complete: its march test follows (R247). -/
def State.frameStaged (s : State) : Option (RecAct × Nat) → State
  | some (.frame k fr, 63) => { s with frameTests := s.frameTests.map fun t => if t.stack = k && t.frame = fr then { t with staged := true } else t }
  | _ => s

/-- A beat of the emergency requester: it goes on while it requests, or another that is enabled now takes its place. Then the displaced
owner has its grant back, with its burst count as it was, or where there is none the arbiter decides in this last beat (R264, R272). -/
def State.emergencyBeat (s : State) (i : ArbId) (n : Nat) (old : Option Nat) : State :=
  let s := if s.requestsAt i n then (s.transfer i n).2.count (arbEmergBeats (arbOff i)) 1 else s
  let s := if n = 63 && !s.requests (arbKey i) n then s.frameStaged (s.recoveryAct i) else s
  match s.emergencyTakes i, old with
  | some e, _ => if e = n then s else s.giveEmergency i e old
  | none, some o => s.modArb (arbKey i) fun x => { x with owner := some o, emergency := none }
  | none, none => (s.freePort i).decide_ i

/-- An emergency requester that requests takes the next beat from whoever has it. A row fetch that waits has lost. -/
def State.displace (s : State) (i : ArbId) : State :=
  if (s.arb (arbKey i)).emergency.isSome then s
  else match s.emergencyTakes i with
    | none => s
    | some e => s.giveEmergency i e (s.arb (arbKey i)).owner

/-- One clk of an arbiter: requests that come while it has no owner are decided on at once, others wait for the next decision (R264). -/
def State.arbClk (s : State) (i : ArbId) (new : List ArbNew) : State :=
  let x := s.arb (arbKey i)
  let s := match x.owner, x.emergency with
    | some n, some old => (s.emergencyBeat i n old).enter i new
    | some n, none => (s.ownerBeat i n).enter i new
    | none, _ => (s.enter i new).decide_ i
  s.displace i

/-- Beats and decisions that an arbiter has had in this clk. -/
def State.usedNow (s : State) (i : ArbId) : Nat :=
  if (s.arb (arbKey i)).used.1 = s.clk then (s.arb (arbKey i)).used.2 else 0

/-- Can an arbiter transfer a beat or decide now: it has a beat of this clk left, and the update lane does not have its ports? -/
def State.arbOpen (s : State) (i : ArbId) : Bool := decide (s.usedNow i < arbRate i) && !s.laneTakes i

/-- A clk of an arbiter whose port can transfer nothing in it: its beats of the clk are used up, or the update lane has the port. Requests
come to wait, and an emergency requester takes the next beat; a port that no one owns is decided on where only the lane stands in the
way. -/
def State.arbShut (s : State) (i : ArbId) (new : List ArbNew) : State :=
  let s := s.enter i new
  let s := if s.usedNow i = 0 && (s.arb (arbKey i)).owner.isNone then s.decide_ i else s
  s.displace i

/-- A clk of an arbiter, with the requests that enter the device's arbitration at it. It has as many beats as R258 gives it in one clk; where
they are used up, or the update lane has the ports, requests only come to wait (DEDUCED, log entry 87). -/
def execArbDecision (i : ArbId) (new : List ArbNew) (s : State) : Out :=
  .next (
    if !s.powered || !s.arbPresent i then s
    else
      let s := s.holdAct i
      let u := (s.clk, s.usedNow i + 1)
      if s.arbOpen i then (s.arbClk i new).modArb (arbKey i) fun x => { x with used := u } else s.arbShut i new)

/-- The burst limit of the current grant expires: as many beats as it allows have gone (R265). -/
def execBurstLimitExpire (i : ArbId) (s : State) : Out :=
  .next (
    let x := s.arb (arbKey i)
    if s.powered && s.arbPresent i && x.owner.isSome && x.emergency.isNone && decide (x.limit ≤ x.beats) then
      s.modArb (arbKey i) fun x => { x with expired := true }
    else s)

/-- A high-priority requester has spent its quota: it is masked until the window ends (R268). -/
def execQuotaExhausted (i : ArbId) (req : Nat) (s : State) : Out :=
  .next (
    let o := arbOff i
    if s.powered && s.arbPresent i && decide (req < 64) && s.arbPrio i req && !bitOf (s.reg (o + 0x10)).toNat req && s.arbMasked i req then
      (s.setMaskBit (o + 0x10) req true).count (arbMaskings o) 1
    else s)

/-! ### Windows (R269, R270) -/

/-- The window of one arbiter ends: masks and counts clear, ROT advances once a clk, and QUOTA comes into force. -/
def State.endWindow (s : State) (i : ArbId) : State :=
  let o := arbOff i
  let rotated := (s.arb o).rotAt == some s.clk
  let s := s.setReg (o + 0x10) 0
  let s := if rotated then s else s.setFld (arbRot o) (s.fld (arbRot o) + 1)
  let q := s.fld (arbQuota o)
  let clear (x : Arb) : Arb := { x with grants := [], quota := q, rotAt := some s.clk }
  let s := s.modArb o clear
  match i with
  | .block _ _ _ => s.modArb (o + 4) clear
  | .cell _ _ _ => s.forEach (List.range 31) fun s k => s.modArb (o + k + 1) clear
  | _ => s

/-- A QUOTA trigger of the chip or of a region fires for a target. -/
def State.quotaFire (s : State) (region : Option Nat) (target : Nat) : State :=
  match region with
  | none =>
    let s := s.forEach ((List.range 17).filter fun a => s.fld (arbGroup (SCH_ARB_CFG a)) == target) fun s a => s.endWindow (.chip a)
    s.forEach ((List.range 16).filter fun n => s.fld (arbGroup (RGN_ARB_CFG (n / 4) (n % 4))) == target)
      fun s n => s.endWindow (.region (n / 4) (n % 4))
  | some r =>
    if 32 ≤ target && decide (target < 48) && s.partExists (target - 32) then
      s.forEach ((s.partBlocks (target - 32)).filter fun b => b / 32 == r) fun s b =>
        s.forEach (List.range 21) fun s a => s.endWindow (arbOfIndex b a)
    else s

/-- MAKE_PART and FREE_PART set the window group of a block's arbiters (R277, R278). -/
def State.setBlockGroup (s : State) (b g : Nat) : State :=
  s.forEach (List.range 21) fun s a => s.setFld (arbGroup (BLK_ARB_CFG b a)) g

/-! ### Register writes -/

/-- May a class write the RWL fields of an arbiter: of a block's, the driver only where a partition holds the block? -/
def State.arbMay (s : State) (i : ArbId) (a : Auth) (f : FieldSpec) : Bool :=
  ownAllows f.own a (arbOff i) && match i with
    | .block b _ _ | .cell b _ _ => a != .driver || ((s.blockPart b).map s.driverOwns).getD false
    | _ => true

/-- ARB_CFG as it reads: UPSETT, RECOVERY and EMERG_ACTIVE are those of now (R271). -/
def State.arbCfg (s : State) (i : ArbId) : Nat :=
  let held (j : ArbId) : Bool := (s.arb (arbKey j)).emergency.isSome
  let any (f : ArbId → Bool) : Bool := match i with
    | .block b a _ => f (.block b a false) || f (.block b a true)
    | .cell b _ _ => (List.range 16).any fun row => f (.cell b row false) || f (.cell b row true)
    | j => f j
  let n := withBits (s.reg (arbOff i)).toNat 2 2 (b2n !s.ready)
  withBits (withBits n 1 1 (b2n (any fun j => (s.recoveryAct j).isSome))) 0 0 (b2n (any held))

/-- What ARB_CFG and ARB_PRIO hold as a write comes: decisions of its clk go by it (R266). -/
def State.noteArb (s : State) (i : ArbId) : State :=
  let o := arbOff i
  s.modArb o fun x =>
    { x with old := match x.old with
        | some (t, c, p) => if t = s.clk then some (t, c, p) else some (s.clk, s.reg o, s.reg (o + 8))
        | none => some (s.clk, s.reg o, s.reg (o + 8)) }

/-- A write of ARB_CFG: CLR, written 1, clears ARB_STAT. -/
def State.writeArbCfg (s : State) (a : Auth) (p : Path) (i : ArbId) (v : Word) : State :=
  let o := arbOff i
  let s := (s.noteArb i).setReg o (BitVec.ofNat 64 (s.arbCfg i))
  let s := s.storeWith a p o v (s.arbMay i a)
  let may := (regFields o).any fun f => f.acc == .rwl && s.arbMay i a f
  if bitOf v.toNat 4 && may then s.setReg (o + 0x18) 0 else s

/-- A write of ARB_PRIO: bits of requesters that the arbiter does not serve stay 0. -/
def State.writeArbPrio (s : State) (a : Auth) (p : Path) (i : ArbId) (v : Word) : State :=
  (s.noteArb i).storeWith a p (arbOff i + 8) v (s.arbMay i a) fun n => n &&& arbServedMask i

/-- A write of ARB_CFG with CLR (R273). -/
def execArbStatClear (a : Auth) (p : Path) (i : ArbId) (v : Word) (s : State) : Out :=
  .next (s.arrives a p (arbOff i) v fun s => if s.arbPresent i then s.writeArbCfg a p i v else s)

end Sys2Proof.Machine
end

