-- ==== Sys2Proof/Machine/Move.lean ====
section
/-!
DEFINITION. The move class: issue checks (R238, R239, R255), bursts (R240 to R243), the Josil cache's write-back before an
uncached request (R462), and the ends of uncached requests of a move (R463).
-/

namespace Sys2Proof.Machine

/-! ### Issue (R238, R239) -/

/-- The move that an instruction describes, without an identity. -/
def State.moveOf (s : State) (b : Nat) (f : Bool) (w : Word) (kind : Nat) : Move :=
  let shape := (s.sreg b f (wSb w)).toNat
  let len := bits shape 31 0
  let st := (s.sreg b f (wBits w 31 27)).toNat
  let c := (s.blk b).ctx.getD 0
  { id := s.moveId, blk := b, ctx := s.homeIndex c b, tag := s.tagOf c, f := f, ticket := wTicket w, kind := kind,
    src := s.sreg b f (wSa w), dst := s.sreg b f (wDst w),
    srcVirt := bitOf w.toNat 26, dstVirt := bitOf w.toNat 25,
    rows := bits shape 47 32 + 1, len := len,
    srcStride := if wBits w 31 27 = 0 then len else bits st 31 0,
    dstStride := if wBits w 31 27 = 0 then len else bits st 63 32,
    row := 0, col := 0, poisonRow := none, paused := false, dest := none, got := none, again := 0, olds := [] }

/-- Do the rows of an endpoint lie in the block-local spaces? -/
def rowsLocal (base stride rows len : Nat) : Bool := (List.range rows).all fun i => localRange (base + i * stride) len

/-- The issue checks of a move, in their order (R239). -/
def State.moveCheck (s : State) (b : Nat) (f : Bool) (w : Word) (kind : Nat) : Option Nat :=
  let m := s.moveOf b f w kind
  let shape := (s.sreg b f (wSb w)).toNat
  if wBits w 24 0 ≠ 0 || bits shape 63 48 ≠ 0 || m.len = 0 || (kind = 1 && m.srcVirt) then some MOVE_FIELD_INVALID
  else if m.len % 4 ≠ 0 || m.srcStride % 4 ≠ 0 || m.dstStride % 4 ≠ 0 || m.dst.toNat % 4 ≠ 0 ||
      (kind ≠ 1 && m.src.toNat % 4 ≠ 0) then some MOVE_ALIGN
  else if (!m.dstVirt && !rowsLocal m.dst.toNat m.dstStride m.rows m.len) ||
      (kind ≠ 1 && !m.srcVirt && !rowsLocal m.src.toNat m.srcStride m.rows m.len) then some MOVE_RANGE
  else none

/-- The moves in the queue of a block: those of a current tag that are not away with their context. -/
def State.movesOf (s : State) (b : Nat) : List Move :=
  s.moves.filter fun m => m.blk == b && !m.paused && s.tagCurrent m.tag

/-- Issue a move. -/
def State.issueMove (s : State) (b : Nat) (f : Bool) (w : Word) (kind : Nat) : State :=
  s.issueAsync b f w (wTicket w) unitMove (fun s => decide (8 ≤ (s.movesOf b).length)) fun s =>
    match s.moveCheck b f w kind with
    | some e => .error e
    | none =>
      let m := s.moveOf b f w kind
      .ok fun s => { s with moves := s.moves ++ [m], moveId := s.moveId + 1 }

def execMove (b : Nat) (f : Bool) (w : Word) (s : State) : Out := .next (s.issueMove b f w 0)
def execMoveFill (b : Nat) (f : Bool) (w : Word) (s : State) : Out := .next (s.issueMove b f w 1)

/-- MOVE.NC: its companion bytes bypass the Josil cache. -/
def execMoveNc (b : Nat) (f : Bool) (w : Word) (s : State) : Out := .next (s.issueMove b f w 2)

/-! ### Progress and completion (R240 to R242) -/

/-- Has the move a block-local endpoint (R243)? -/
def Move.isLocal (m : Move) : Bool := !m.dstVirt || (m.kind != 1 && !m.srcVirt)

/-- Source and destination addresses of the next burst. -/
def Move.srcAt (m : Move) : Nat := m.src.toNat + m.row * m.srcStride + m.col
def Move.dstAt (m : Move) : Nat := m.dst.toNat + m.row * m.dstStride + m.col

/-- Bytes of the next burst: up to 4 KiB, crossing no 4 KiB boundary of either side (DEDUCED, log entry 33). -/
def Move.burst (m : Move) : Nat :=
  let n := Nat.min (m.len - m.col) (4096 - m.dstAt % 4096)
  if m.kind = 1 then n else Nat.min n (4096 - m.srcAt % 4096)

def State.dropMove (s : State) (id : Nat) : State := { s with moves := s.moves.filter fun m => m.id != id }
def State.putMove (s : State) (m : Move) : State := { s with moves := s.moves.map fun x => if x.id = m.id then m else x }

/-- The move ends with a code and a row. -/
def State.endMove (s : State) (m : Move) (code row : Nat) : State :=
  (s.dropMove m.id).completeOp m.blk m.tag m.ctx m.f m.ticket unitMove row code

/-- Note the first row that carried poison. -/
def Move.carry (m : Move) (carried : Bool) : Move :=
  if carried && m.poisonRow.isNone then { m with poisonRow := some m.row } else m

/-- A burst has been written: the move goes on, or it completes. -/
def State.advanceMove (s : State) (m : Move) : State :=
  let col := m.col + m.burst
  let m := { m with dest := none, got := none, again := 0 }
  let m' := if m.len ≤ col then { m with row := m.row + 1, col := 0 } else { m with col := col }
  if m'.rows ≤ m'.row then
    match m.poisonRow with
    | some r => s.endMove m MOVE_POISON_CARRIED r
    | none => s.endMove m 0 0
  else s.putMove m'

/-! ### Where a burst reads and writes -/

/-- Where an address of an endpoint lies. A burst lies in one page. -/
def State.placeOf (s : State) (c : Nat) (virt : Bool) (a : Nat) (acc : Access) : Except Nat Place :=
  if !virt then .ok (.blk a)
  else match s.translate c a acc with
    | .error e => .error e
    | .ok (t, pa) => .ok (if t = 1 then .comp pa else .hbm pa)

/-- Read bytes with their poison from block-local memory; a parity mismatch is a code (R246). -/
def State.readBlk (s : State) (b a n : Nat) : Except Nat (List (Byte × Bool)) × State :=
  if scrBase ≤ a then
    match s.checkUnit .scratchRead b false with
    | (some h, s) =>
      (.error CORE_PARITY, s.parityTest b h.injected)
    | (none, s) => (.ok ((s.localBytes b a n).map fun v => (v, false)), s)
  else
    match s.checkOps b a n with
    | (true, s) => (.error OPSTORE_PARITY, s)
    | (false, s) =>
      match s.checkAcc b a n with
      | (true, s) => (.error ACC_PARITY, s)
      | (false, s) => (.ok ((List.range n).map fun i => ((s.bst b).byte (a + i), (s.bst b).linePoisoned (a + i))), s)

/-- The offsets of a data list that are poisoned. -/
def poisonedOffsets (d : List (Byte × Bool)) : List Nat := positions d.length fun i => (d.getD i (0, false)).2

/-- Write data to block-local memory with the poison it carries; only lines of the operand and accumulator stores hold poison. -/
def State.writeBlk (s : State) (b a : Nat) (d : List (Byte × Bool)) : State :=
  let s := s.writeLocal b a (d.map (·.1))
  s.forEach ((poisonedOffsets d).filter fun i => decide (a + i < accEnd)) fun s i => s.modBst b fun x => x.setLinePoison (a + i) true

/-- Write data to HBM with the poison it carries. -/
def State.writeHbmPoison (s : State) (a : Nat) (d : List (Byte × Bool)) : State :=
  s.writeHbmFull a (d.map (·.1)) (poisonedOffsets d) none

/-! ### The Josil cache and uncached requests (R459, R462) -/

/-- Is a line ready for a read or a write of a burst? If not it is asked for. -/
def State.lineReady (s : State) (c : Nat) (write : Bool) (n : Nat) : Res Unit × State :=
  let s := if write then s else s.lineParity n
  let l := s.line n
  match s.lineErr c n with
  | some e => (.fault e, s.setLine n { l with err := none })
  | none =>
  if !l.evicting && !l.filling && l.heldFor write then (.ok (), s)
  else (.wait, s.fillLine c n (if write then opcRdOwn else opcRdShared))

/-- Is an end of a burst ready? -/
def State.placeReady (s : State) (c : Nat) (nc write : Bool) (n : Nat) : Place → Res Unit × State
  | .blk _ => (.ok (), s)
  | .hbm a =>
    if if write then s.writeHeld a n else (unitsOf a n).any (fun u => s.frameBusy (u * 256)) then
      (.wait, if write then (s.noteHeld a).noteHeld (a + n - 1) else s)
    else (.ok (), s)
  | .comp a =>
    if nc then (if s.fillsIn a n then .wait else .ok (), s)
    else (linePieces a n).foldl (fun r p =>
      match r with
      | (.fault e, s) => (.fault e, s)
      | (.ok (), s) => s.lineReady c write (lineOf p.1)
      | (.wait, s) => match s.lineReady c write (lineOf p.1) with
        | (.fault e, s) => (.fault e, s)
        | (_, s) => (.wait, s)) (.ok (), s)

/-- Read a burst from a place that is ready. -/
def State.placeRead (s : State) (b n : Nat) : Place → Except Nat (List (Byte × Bool)) × State
  | .blk a => s.readBlk b a n
  | .hbm a =>
    let s := s.checkHbmRead a n
    (.ok ((List.range n).map fun i => (s.hbmByte (a + i), s.hbmPoisoned (a + i))), s)
  | .comp a => (.ok ((List.range n).map fun i =>
      let l := s.line (lineOf (a + i))
      (l.data.getD ((a + i) % 128) 0, l.poison)), s)

/-- Write a burst through the cache: the lines are in E or M. -/
def State.writeLines (s : State) (a : Nat) (d : List (Byte × Bool)) : State :=
  s.forEach (linePieces a d.length) fun s p =>
    let l := s.line (lineOf p.1)
    let piece := (d.drop (p.1 - a)).take p.2
    s.setLine (lineOf p.1) { l with
      st := .modified
      data := overlay l.data (piece.map (·.1)) (p.1 % 128)
      poison := (l.poison && decide (p.2 < 128)) || piece.any (·.2) }

/-- Does a move write the address `a` of the space that it reads? -/
def Move.writes (m : Move) (a : Nat) : Bool :=
  m.srcVirt == m.dstVirt && decide (m.dst.toNat ≤ a) && decide (a < m.dst.toNat + (m.rows - 1) * m.dstStride + m.len) &&
    (List.range m.rows).any fun i => decide (m.dst.toNat + i * m.dstStride ≤ a) && decide (a < m.dst.toNat + i * m.dstStride + m.len)

/-- Does a move read the address `a` of the space that it writes? -/
def Move.reads (m : Move) (a : Nat) : Bool :=
  m.kind != 1 && m.srcVirt == m.dstVirt && decide (m.src.toNat ≤ a) && decide (a < m.src.toNat + (m.rows - 1) * m.srcStride + m.len) &&
    (List.range m.rows).any fun i => decide (m.src.toNat + i * m.srcStride ≤ a) && decide (a < m.src.toNat + i * m.srcStride + m.len)

/-- What a burst writes of the bytes that it has read. Where source and destination overlap, a source byte may be one that the move has
written: it is then taken as it stands, or as it was before the move, which of the two is free (R240, log entry 33). -/
def Move.taken (m : Move) (d : List (Byte × Bool)) : List (Byte × Bool) :=
  ((List.range d.length).zip d).map fun (i, x) =>
    match SMap.get (fun _ => none) (m.olds.map fun e => (e.1, some e.2)) (m.srcAt + i) with
    | some old => if Config.moveOverlap m.id m.row (m.col + i) then (old, x.2) else x
    | none => x

/-- A byte at a place as it stands; companion memory that the cache does not hold is read by no one here. -/
def State.byteAt (s : State) (b i : Nat) : Place → Option Byte
  | .blk a => some ((s.bst b).byte (a + i))
  | .hbm a => some (s.hbmByte (a + i))
  | .comp a =>
    let l := s.line (lineOf (a + i))
    if l.st = .invalid then none else some (l.data.getD ((a + i) % 128) 0)

/-- The move with the source bytes kept that the burst is going to write (R240). -/
def State.keepOlds (s : State) (m : Move) (n : Nat) (to_ : Place) : Move :=
  { m with olds := (List.range n).foldl (fun o i =>
      if m.reads (m.dstAt + i) && !(o.any fun e => e.1 == m.dstAt + i) then
        match s.byteAt m.blk i to_ with
        | some x => SMap.set (fun _ => x + 1) o (m.dstAt + i) x
        | none => o
      else o) m.olds }

/-- Poison what a burst was to write (R246). -/
def State.poisonDest (s : State) (b n : Nat) : Place → State
  | .blk a => s.forEach ((List.range n).filter fun i => decide (a + i < accEnd)) fun s i => s.modBst b fun x => x.setLinePoison (a + i) true
  | .hbm a => s.forEach (unitsOf a n) fun s u => (s.setPoison (u * 256) true).count (HBM_COUNT_LOST (s.frameOf (u * 256)).1) 1
  | .comp a => s.writeLines a ((List.range n).map fun _ => (0, true))

/-- The checks of a burst's data: on its way from the read to the write, and at the interfaces of the stacks that it is written to (R246). Where
one fails, what is lost if it is the last time: all that the burst was to write, or the units of the interface. -/
def State.dataCheck (s : State) (m : Move) (n : Nat) (to_ : Place) : Option (State → State) × State :=
  match s.checkUnit .moveData m.blk false with
  | (some _, s) => (some fun s => s.poisonDest m.blk n to_, s)
  | (none, s) =>
    match to_ with
    | .hbm a =>
      let r := s.writeLosses a n
      (if r.1.isEmpty then none else some fun s => s.forEach r.1 fun s u => s.loseUnit (u * 256), r.2)
    | _ => (none, s)

/-- Write a burst to its destination and go on; an uncached write waits for its CMP. Where a check of its data fails nothing is written: the
burst is issued again from its source, up to 3 times, and is then lost (R246) (DEDUCED, log entry 98). -/
def State.burstWrite (s : State) (m : Move) (bytes : List (Byte × Bool)) (to_ : Place) : State :=
  let d := m.taken bytes
  match s.dataCheck m d.length to_ with
  | (some lose, s) =>
    if m.again < 3 then s.putMove { m with again := m.again + 1, dest := none, got := none }
    else
      let s := match to_ with
        | .hbm a => s.lastCode (HBM_STATUS_LAST_CODE (s.frameOf a).1) MOVE_SOURCE_LOST
        | _ => s
      (lose s).endMove m MOVE_SOURCE_LOST m.row
  | (none, s) =>
    let m := s.keepOlds m d.length to_
    match to_ with
    | .blk a => (s.writeBlk m.blk a d).advanceMove (m.carry (d.any (·.2)))
    | .hbm a => (s.writeHbmPoison a d).advanceMove (m.carry (d.any (·.2)))
    | .comp a =>
      if m.kind = 2 then
        let m' := { m.carry (d.any (·.2)) with got := none }
        ((s.putMove m').uncache a d.length).josilRequest opcWrNc a d.length (some m.tag) (d.any (·.2)) (d.map (·.1)) (.move m.id)
      else (s.writeLines a d).advanceMove (m.carry (d.any (·.2)))

/-- The bytes of a fill: the pattern at every 8-byte position from the row's start (R239). -/
def Move.fillBytes (m : Move) (n : Nat) : List (Byte × Bool) :=
  (List.range n).map fun i => (BitVec.ofNat 8 (m.src.toNat / 2 ^ (8 * ((m.col + i) % 8))), false)

/-- The code that a move ends with for one of a memory access: lost data are MOVE_SOURCE_LOST (R463). -/
def moveCode (e : Nat) : Nat := if e = HBM_READ_LOST then MOVE_SOURCE_LOST else e

/-- One burst (R240): both ends are translated first, then it is read and written (DEDUCED, log entry 33). -/
def State.runBurst (s : State) (m : Move) : State :=
  let c := m.tag / 256
  let n := m.burst
  if (m.kind != 1 && m.srcVirt && s.walkWaits c m.srcAt) || (m.dstVirt && s.walkWaits c m.dstAt) then s
  else match (if m.kind = 1 then .ok (.blk 0) else s.placeOf c m.srcVirt m.srcAt .read), s.placeOf c m.dstVirt m.dstAt .write with
  | .error e, _ => (s.walkReads c m.srcAt).endMove m e m.row
  | .ok _, .error e => ((if m.kind ≠ 1 && m.srcVirt then s.cacheXl c m.srcAt else s).walkReads c m.dstAt).endMove m e m.row
  | .ok from_, .ok to_ =>
    let s := if m.kind ≠ 1 && m.srcVirt then s.cacheXl c m.srcAt else s
    let s := if m.dstVirt then s.cacheXl c m.dstAt else s
    let nc := decide (m.kind = 2)
    match (if m.kind = 1 then (Res.ok (), s) else s.placeReady c nc false n from_) with
    | (.fault e, s) => s.endMove m (moveCode e) m.row
    | (.wait, s) =>
      match s.placeReady c nc true n to_ with
      | (.fault e, s) => s.endMove m (moveCode e) m.row
      | (_, s) => s
    | (.ok (), s) =>
      match s.placeReady c nc true n to_ with
      | (.fault e, s) => s.endMove m (moveCode e) m.row
      | (.wait, s) => s
      | (.ok (), s) =>
        if m.kind = 1 then s.burstWrite m (m.fillBytes n) to_
        else match from_, nc with
          | .comp a, true =>
            ((s.putMove { m with dest := some to_ }).uncache a n).josilRequest opcRdNc a n (some m.tag) false [] (.move m.id)
          | _, _ =>
            match s.placeRead m.blk n from_ with
            | (.error e, s) => s.endMove m e m.row
            | (.ok d, s) => s.burstWrite m d to_

/-- Does a request of the move stand at the companion? -/
def State.moveOutstanding (s : State) (id : Nat) : Bool := s.josil.reqs.any fun r => r.who == .move id

/-- Can a move run a burst now: among the four that its queue runs, no request outstanding, and with a block-local endpoint only
on its running block (R241, R243)? -/
def State.moveRuns (s : State) (m : Move) : Bool :=
  s.powered && !m.paused && !s.moveOutstanding m.id && ((s.movesOf m.blk).take 4).any (fun x => x.id == m.id) &&
    (!m.isLocal || (decide ((s.blk m.blk).ctx = some (m.tag / 256)) && decide ((s.blk m.blk).phase = .idle)))

/-- Data of the companion for the burst under way: it is written, to the place that the burst was translated to before it was read (R235),
once that is ready. -/
def State.finishBurst (s : State) (m : Move) (d : List (Byte × Bool)) : State :=
  match m.dest with
  | none => s.putMove { m with got := none }
  | some to_ =>
    match s.placeReady (m.tag / 256) true true d.length to_ with
    | (.ok (), s) => s.burstWrite m d to_
    | (.fault e, s) => s.endMove m (moveCode e) m.row
    | (.wait, s) => s.putMove { m with got := some d }

/-- Does a move of an old tag hold a burst that was issued before the bump, with its data read and its destination in memory? It completes
(R414). -/
def State.moveLands (s : State) (m : Move) : Bool := s.powered && m.got.isSome && m.dstVirt && !s.tagCurrent m.tag

/-- The next burst of a move; a move of an old tag runs none, but for one that is already under way (R414) (DEDUCED, log entry 33). -/
def execMoveBurst (id : Nat) (s : State) : Out :=
  .next (s.whenOn fun s => match s.moves.find? fun m => m.id == id with
    | none => s
    | some m =>
      if !s.moveRuns m && !s.moveLands m then s
      else match m.got with
        | some d => s.finishBurst m d
        | none => s.runBurst m)

/-! ### Answers to a move's uncached requests (R463) -/

/-- The code that a response status ends a move with. -/
def moveStatus (status : Nat) : Nat := if status = 3 then MOVE_SOURCE_LOST else JSL_TARGET_FAULT

/-- Data of an uncached read: the burst is written. -/
def State.moveData (s : State) (id : Nat) (data : List Byte) (poison : Bool) : State :=
  match s.moves.find? fun m => m.id == id with
  | none => s
  | some m => s.finishBurst m (data.map fun v => (v, poison))

/-- An uncached write is complete, or a request of the move has failed with a code. -/
def State.moveAnswer (s : State) (id : Nat) (code : Nat) : State :=
  match s.moves.find? fun m => m.id == id with
  | none => s
  | some m => if code = 0 then s.advanceMove m else s.endMove m code m.row

end Sys2Proof.Machine
end

