-- ==== Sys2Proof/Machine/Hbm.lean ====
section
/-!
DEFINITION. The memory system's own events and commands: frame and bank-row tests with
retirement (R247 to R250), invalidations (R235), dirty banks (R245), octet modes (R230) and scrubs (R254).
-/

namespace Sys2Proof.Machine

/-! ### Frame tests (R247, R249, R250) -/

/-- A health event of a stack. -/
def State.hbmHealth (s : State) (k : Nat) (cls : HealthClass) (code : Nat) : State :=
  (s.lastCode (HBM_STATUS_LAST_CODE k) code).health cls ⟨none, code, 0x0480 + k, 0, 0⟩

/-- The spare frames of a stack in use. -/
def State.sparesUsed (s : State) (k : Nat) : List Nat :=
  s.remap.filterMap fun (key, v) => if key / 2 ^ 23 = k then v else none

/-- Enter a frame in the remap table of its stack. -/
def State.remapFrame (s : State) (k fr spare : Nat) : State :=
  let s := { s with remap := SMap.set (fun _ => none) s.remap (k * 2 ^ 23 + fr) (some spare) }
  let used := (s.sparesUsed k).length
  (s.setFld (HBM_STATUS_REMAP_USED k) used).setFlag (HBM_STATUS_REMAP_FULL k) (decide (1024 ≤ used))

/-- The first spare frame that is not in use. -/
def freeSpare (used : List Nat) : Option Nat := (List.range 1024).find? fun n => !used.contains n

/-- A frame fails its test: it is retired to a spare frame, or poisoned where the table is full. -/
def State.retireFrame (s : State) (k fr : Nat) : State :=
  match freeSpare (s.sparesUsed k) with
  | some spare =>
    let s := (s.remapFrame k fr spare).count (HBM_COUNT_RETIRED k) 1
    let s := s.hbmHealth k .repaired HBM_FRAME_RETIRED
    let s := s.journalEvent HBM_FRAME_RETIRED (BitVec.ofNat 64 (k * 2 ^ 56 + fr * 2 ^ 32 + spare))
    s.mailRepair 2 k fr spare
  | none =>
    let us := (s.frameUnits k fr).filter fun a => decide (a < usableEnd) && !s.hbmPoisoned a
    (s.forEach us State.loseUnit).hbmHealth k .lasting HBM_REMAP_FULL

/-- A channel of a stack fails: posted once for each channel (R247). -/
def State.channelFailed (s : State) (k ch : Nat) : State :=
  if s.badChannels.contains (k, ch) then s
  else (({ s with badChannels := s.badChannels ++ [(k, ch)] } : State).setFlag (HBM_STATUS_CHANNEL_FAILED k) true).hbmHealth k
    .lasting HBM_CHANNEL_FAILED

/-- The oldest test of a stack ends: what waited for its frame goes on. A channel's failure is posted when its test first fails (R247). -/
def execFrameTestDone (k : Nat) (pass channelOk : Bool) (s : State) : Out :=
  .next (s.whenOn fun s => match takeFirst (fun t : FrameTest => t.stack == k) s.frameTests with
    | (none, _) => s
    | (some t, rest) =>
      let s := { s with frameTests := rest }
      let s := s.setFlag (HBM_STATUS_SELFTEST k) (rest.any fun t => t.stack == k)
      let s := s.flushHeld
      if !channelOk then s.channelFailed k (Config.hbmChannel k t.frame)
      else if pass then
        let s := s.count (HBM_COUNT_TRANSIENT k) 1
        if t.injected then s else s.hbmHealth k .transient HBM_TRANSIENT
      else s.retireFrame k t.frame)

/-! ### Bank-row tests (R248) -/

/-- The first byte of a bank row. -/
def bankRowBase (row : Nat) : Nat :=
  if row / 256 < 16 then row / 256 * 2 ^ 18 + row % 256 * 1024 else accBase + (row / 256 - 16) * 2 ^ 17 + row % 256 * 1024

/-- A spare row of a bank that nothing uses and that has not failed: 4 to a bank. -/
def Blk.freeRowSpare (x : Blk) (bank : Nat) : Option Nat :=
  (List.range 4).find? fun n => !(x.rowSpares.any fun e => e.1 / 256 == bank && e.2 == n) && !x.deadSpares.contains (bank * 4 + n)

/-- A row fails its test: the spare that stands for it, if one does, is no longer of use. -/
def Blk.dropSpare (x : Blk) (row : Nat) : Blk :=
  let n := SMap.get (fun _ => 4) x.rowSpares row
  if n = 4 then x
  else { x with rowSpares := SMap.set (fun _ => 4) x.rowSpares row 4, deadSpares := x.deadSpares ++ [row / 256 * 4 + n] }

/-- A bank row fails: its contents are lost, and a free spare row of its bank replaces it; false where there is none. -/
def State.rowFailed (s : State) (b row : Nat) : Bool × State :=
  let s := s.forEach (List.range 4) fun s i => s.modBst b fun x => x.setLinePoison (bankRowBase row + 256 * i) true
  let s := s.modBlk b fun x => x.dropSpare row
  match (s.blk b).freeRowSpare (row / 256) with
  | some spare =>
    let s := s.modBlk b fun x => { x with rowSpares := SMap.set (fun _ => 4) x.rowSpares row spare }
    let s := s.health .repaired ⟨none, SRAM_ROW_RETIRED, 0x0400 + b, 0, 0⟩
    (true, s.mailRepair 3 b row spare)
  | none => (false, s)

/-- The oldest due test of a block's bank rows ends: a row that fails, a spare among them, is replaced by a free spare row of its bank. -/
def execSramRowTestDone (b : Nat) (pass : Bool) (s : State) : Out :=
  .next (s.whenOn fun s => match (s.blk b).rowTests with
    | [] => s
    | (row, injected) :: rest =>
      let s := s.modBlk b fun x => { x with rowTests := rest }
      if pass then s.healthUnless injected .transient ⟨none, SRAM_TRANSIENT, 0x0400 + b, 0, 0⟩
      else
        match s.rowFailed b row with
        | (true, s) => s
        | (false, s) => s.blockLeaves b (if row / 256 < 16 then OPSTORE_PARITY else ACC_PARITY))

/-! ### Translation invalidation (R235) -/

/-- A write of HBM_TLBI_CTRL: ignored and journaled while an invalidation runs; the driver's START begins one for a context of
its own. -/
def execTlbiStart (a : Auth) (p : Path) (v : Word) (s : State) : Out :=
  .next (s.arrives a p HBM_TLBI_CTRL v fun s =>
    if !s.flag HBM_TLBI_CTRL_DONE then s.refuse a p HBM_TLBI_CTRL v
    else
      let s := s.store a p HBM_TLBI_CTRL v
      if a = .driver && bitOf v.toNat 62 then s.setFlag HBM_TLBI_CTRL_DONE false else s)

/-- A write of HBM_TLBI_ADDR. -/
def State.writeTlbiAddr (s : State) (a : Auth) (p : Path) (v : Word) : State :=
  if !s.flag HBM_TLBI_CTRL_DONE then s.refuse a p HBM_TLBI_ADDR v else s.store a p HBM_TLBI_ADDR v

/-- The invalidation completes: no cache holds an entry of the range, and no burst that was translated before is under way (R235). -/
def execTlbiDone (s : State) : Out :=
  .next (s.whenOn fun s =>
    let c := s.fld HBM_TLBI_CTRL_CONTEXT
    if s.flag HBM_TLBI_CTRL_DONE || s.moves.any (fun m => m.tag == s.tagOf c && (s.moveOutstanding m.id || m.got.isSome)) then s
    else
      let lo := s.fld HBM_TLBI_ADDR_VBASE * 65536
      let hi := lo + s.fld HBM_TLBI_CTRL_PAGES * 65536
      let all := s.flag HBM_TLBI_CTRL_ALL
      let s := { s with tlb := s.tlb.filter fun x =>
        !(x.tag / 256 == c && (all || (decide (x.vbase < hi) && decide (lo < x.vbase + x.len)))) }
      s.setFlag HBM_TLBI_CTRL_DONE true)

/-! ### Dirty banks (R245, R390) -/

/-- The other bank becomes active. -/
def State.swapDirty (s : State) : State := s.setFlag HBM_DIRTY_CTRL_ACTIVE (!s.flag HBM_DIRTY_CTRL_ACTIVE)

/-- A write of HBM_DIRTY_CTRL: SWAP is the operator's or the driver's, and is ignored and journaled while a ring entry is
enabled. -/
def execDirtySwap (a : Auth) (p : Path) (v : Word) (s : State) : Out :=
  .next (s.arrives a p HBM_DIRTY_CTRL v fun s =>
    if !bitOf v.toNat 1 then s
    else if !(decide (a = .operator) || decide (a = .driver)) then s.refuseAuth a p HBM_DIRTY_CTRL (s.reg HBM_DIRTY_CTRL) v
    else if s.coilOn then s.refuse a p HBM_DIRTY_CTRL v
    else s.swapDirty)

/-- A write of ones to a word of a dirty bank. -/
def execDirtyClear (a : Auth) (p : Path) (bank idx : Nat) (v : Word) (s : State) : Out :=
  .next (s.arrives a p (HBM_DIRTY bank idx) v fun s =>
    if v = 0 then s
    else if s.coilOn then s.refuse a p (HBM_DIRTY bank idx) v
    else s.store a p (HBM_DIRTY bank idx) v)

/-! ### Scrubs (R230, R254) -/

/-- A scrub starts. -/
def State.startScrub (s : State) (base len : Nat) (why : ScrubFor) : State := { s with scrubs := s.scrubs ++ [(base, len, why)] }

/-- A write of HBM_ILV: every octet whose bit changes is scrubbed. -/
def execHbmIlvWrite (a : Auth) (p : Path) (v : Word) (s : State) : Out :=
  .next (s.arrives a p HBM_ILV v fun s =>
    let old := s.fld HBM_ILV_LOCAL
    let s := s.store a p HBM_ILV v
    let new := s.fld HBM_ILV_LOCAL
    s.forEach (positions 59 fun o => bitOf old o != bitOf new o) fun s o => s.startScrub (o * 2 ^ 33) (2 ^ 33) (.octet o))

/-- Does a DPA range lie in the union of the HBM ranges of the partitions that the driver owns? -/
def State.driverRange (s : State) (base len : Nat) : Bool :=
  let ps := s.partList.filter s.driverOwns
  -- from a covered unit, the partition that holds it covers up to its end
  let rec walk : Nat → Nat → Bool
    | 0, u => decide (base / 65536 + len / 65536 ≤ u)
    | n + 1, u =>
      if base / 65536 + len / 65536 ≤ u then true
      else match ps.find? fun p =>
          decide (s.fld (SCH_PART_HBM_BASE p) ≤ u) && decide (u < s.fld (SCH_PART_HBM_BASE p) + s.fld (SCH_PART_HBM_SIZE p)) with
        | some p => walk n (s.fld (SCH_PART_HBM_BASE p) + s.fld (SCH_PART_HBM_SIZE p))
        | none => false
  walk 16 (base / 65536)

/-- A write of HBM_SCRUB_CTRL: ignored and journaled while a scrub runs; START scrubs a range, clipped at the reserve, or is
refused where the driver's range leaves its partitions. -/
def execScrubStart (a : Auth) (p : Path) (v : Word) (s : State) : Out :=
  .next (s.arrives a p HBM_SCRUB_CTRL v fun s =>
    if !s.flag HBM_SCRUB_CTRL_DONE then s.refuse a p HBM_SCRUB_CTRL v
    else
      let s := s.store a p HBM_SCRUB_CTRL v
      if !bitOf v.toNat 62 then s
      else
        let base := s.fld HBM_SCRUB_BASE_BASE * 65536
        let len := Nat.min (s.fld HBM_SCRUB_CTRL_SIZE * 65536) (usableEnd - base)
        if a = .operator || (a = .driver && s.driverRange base len) then
          (s.setFlag HBM_SCRUB_CTRL_DONE false).startScrub base len .command
        else s.refuse a p HBM_SCRUB_CTRL v)

/-- A write of HBM_SCRUB_BASE. -/
def State.writeScrubBase (s : State) (a : Auth) (p : Path) (v : Word) : State := s.store a p HBM_SCRUB_BASE v

/-- The oldest scrub completes: the range reads 0, its poison and its protection are gone, and the time is kept (R489). It stalls, as every
writer does, for a page of a snapshot and for a frame under test (R247, R392). -/
def execScrubDone (s : State) : Out :=
  .next (s.whenOn fun s => match s.scrubs with
    | [] => s
    | (base, len, why) :: rest =>
      if s.saveHeld base len then s.askHeld (s.heldIn base len)
      else
      let s := ({ s with scrubs := rest } : State).scrubHbm base len
      let s : State := { s with scrubLog := (s.scrubLog.filter fun e =>
        !(decide (base ≤ e.1) && decide (e.1 + e.2.1 ≤ base + len))) ++ [(base, len, s.now)] }
      match why with
      | .command => s.setFlag HBM_SCRUB_CTRL_DONE true
      | .octet _ => s
      | .quarantine c gen => s.modCtx c fun x => { x with quar := x.quar.filter fun e => !(e.base == base && e.gen == gen) })

end Sys2Proof.Machine
end

