-- ==== Sys2Proof/Machine/Recorder.lean ====
section
/-!
DEFINITION. The step replay recorder (R405 to R409): the records of the step replay area, their use in a replay, and the
write of RPL_CTRL that starts and ends both.
-/

namespace Sys2Proof.Machine

/-- Modes of RPL_CTRL. -/
def rplOff : Nat := 0
def rplRecord : Nat := 1
def rplReplay : Nat := 2

/-- Kinds of a record (R406). -/
def rplEntry : Nat := 1
def rplConfig : Nat := 2
def rplPeer : Nat := 3
def rplEnd : Nat := 4

/-- Does the recorder serve context `c` in a mode? -/
def State.rplServes (s : State) (c mode : Nat) : Bool :=
  s.flag DIM_UNITS_STEP_REPLAY && s.fld RPL_CTRL_MODE == mode && s.fld RPL_CTRL_CONTEXT == c

/-- Bytes of the area that a record takes: a header of 16 bytes and the body, 16-byte-aligned. -/
def RplRec.size (r : RplRec) : Nat := 16 + ceilDiv r.body.length 16 * 16

/-- Bytes of the area in use. -/
def rplBytes (l : List RplRec) : Nat := l.foldl (fun n r => n + r.size) 0

/-- The bytes of a record in the area (R406). -/
def RplRec.bytes (r : RplRec) : List Byte :=
  leBytes r.kind 4 ++ leBytes r.body.length 4 ++ leBytes r.time 8 ++ r.body ++ List.replicate (r.size - 16 - r.body.length) 0

/-- The byte at an offset of the area, in which the records stand one behind the other; what no record covers reads 0 (log entry 5). -/
def rplByte : List RplRec → Nat → Byte
  | [], _ => 0
  | r :: rs, i => if i < r.size then r.bytes.getD i 0 else rplByte rs (i - r.size)

/-- The step replay area (R231): 32 GiB. -/
def rplArea : Nat := 2 ^ 35

/-- Post a code of the recorder on the chip ring (R409). -/
def State.rplPost (s : State) (code : Nat) : State :=
  (s.lastCode RPL_STATUS_LAST_CODE code).post ⟨none, code, 0x0AFF, 0, 0⟩

/-- Append a record of an event at a time, or stop the recording when the area is full (R406). -/
def State.rplAppend (s : State) (kind time : Nat) (body : List Byte) : State :=
  if s.rplFull then s
  else
    let r : RplRec := ⟨kind, time, body⟩
    if rplArea < rplBytes s.recorder + r.size then ({ s with rplFull := true } : State).rplPost RPL_FULL
    else
      let s : State := { s with recorder := s.recorder ++ [r] }
      s.setFld RPL_STATUS_USED (ceilDiv (rplBytes s.recorder) 65536)

/-- Record an event of context `c`, if the recorder records it (DEDUCED, log entry 59). -/
def State.rplNote (s : State) (c kind : Nat) (body : List Byte) : State :=
  if s.rplServes c rplRecord then s.rplAppend kind s.now body else s

/-- A record that no operation takes: of a DOORBELL packet, or of a packet whose OPID has bit 31 set (R393). -/
def RplRec.unused (r : RplRec) : Bool :=
  r.kind == rplPeer && (r.body.headD 0 == 4 || bitOf (leNat ((r.body.drop 12).take 4)) 31)

/-- Could an operation of the context still be accepted: it has an entry that has been read, or a
task that is placed or saved? -/
def State.rplWorking (s : State) : Bool :=
  let c := s.fld RPL_CTRL_CONTEXT
  (s.ctxQueues c).any (fun q => (s.queueOf q).entry.isSome) || (s.blocksOf c).any s.taskPlaced ||
    (s.ctxOf c).saved.any fun e => e.2.main.placed || e.2.fill.placed

/-- The replay has reached the END record (R408): every record before it has been used, or is one that no operation takes, and no
operation of the context is in flight. It is done, and MODE returns to OFF. A packet that the recording's operations did not take
stands in the way of END only while a task of the context could take it (DEDUCED, log entry 59). -/
def State.rplFinish (s : State) : State :=
  let flying := s.plait.any fun (_, o) => match o with | some o => o.ctx == s.fld RPL_CTRL_CONTEXT | none => false
  if !flying && s.replay.all fun r => r.kind == rplEnd || r.unused || (r.kind == rplPeer && !s.rplWorking) then
    (({ s with replay := [] } : State).setFld RPL_CTRL_MODE rplOff).rplPost RPL_DONE
  else s

/-- A clk of a replay: it ends when END has been reached. -/
def State.rplTick (s : State) : State := if s.fld RPL_CTRL_MODE == rplReplay then s.rplFinish else s

/-- Use the next record that matches. -/
def State.rplTake (s : State) (p : RplRec → Bool) : Option RplRec × State :=
  match takeFirst p s.replay with
  | (none, _) => (none, s)
  | (some r, rest) => (some r, { s with replay := rest })

/-- The replay differs from the recording (R408): a context fault, reported on the chip ring (R409). -/
def State.rplDiverged (s : State) (c : Nat) : State := (s.teardown c).rplPost RPL_DIVERGED

/-- The body of a CONFIG record. -/
def configBody (b item : Nat) (v : Word) : List Byte := leBytes b 2 ++ [BitVec.ofNat 8 item, 0, 0, 0, 0, 0] ++ leBytes v.toNat 8

/-- VCFG of item 0 or 1 by context `c` on block `b` (R406, R408). -/
def State.rplConfigWrite (s : State) (c b item : Nat) (v : Word) : State :=
  if 1 < item then s
  else if s.rplServes c rplReplay then
    match s.rplTake fun r => r.kind == rplConfig && leNat (r.body.take 2) == b with
    | (some r, s) => if r.body = configBody b item v then s.rplFinish else s.rplDiverged c
    | (none, s) => s.rplDiverged c
  else s.rplNote c rplConfig (configBody b item v)

/-- Is context `c` admitted? -/
def State.admitted (s : State) (c : Nat) : Bool := (s.ctxOf c).st == .swapped || (s.ctxOf c).st == .resident

/-- May the recorder be armed for context `c` (R405)? For a replay the area must hold a complete recording (R406) (DEDUCED, log
entry 59). -/
def State.rplArmable (s : State) (c : Nat) : Bool :=
  s.fld RPL_CTRL_MODE == rplOff && s.admitted c &&
    (s.ctxList.all fun d => d == c || !(s.admitted d && (s.ctxOf d).part == (s.ctxOf c).part))

/-- A write of RPL_CTRL: MODE to RECORD or REPLAY arms the recorder, or is refused; MODE to OFF ends a recording (R405 to R407).
The reserved mode 3 is refused. -/
def State.writeRplCtrl (s : State) (a : Auth) (p : Path) (v : Word) : State :=
  s.arrives a p RPL_CTRL v fun s =>
    let mode := bits v.toNat 1 0
    let c := bits v.toNat 63 52
    let cur := s.fld RPL_CTRL_MODE
    if !ownAllows .op a RPL_CTRL then s.store a p RPL_CTRL v
    else if mode = rplOff then
      let s := if cur = rplRecord then
          let s := s.rplAppend rplEnd s.now (leBytes s.recorder.length 8)
          if s.rplFull then s else s.setFlag RPL_STATUS_VALID true
        else s
      ({ s with replay := [] } : State).store a p RPL_CTRL v
    else if mode = 3 || !s.rplArmable c || (mode == rplReplay && (s.rplFull || !s.flag RPL_STATUS_VALID)) then
      (s.refuse a p RPL_CTRL v).setFld RPL_STATUS_LAST_CODE RPL_CFG_REFUSED
    else
      let s := s.store a p RPL_CTRL v
      if mode = rplRecord then
        let s : State := { s with recorder := [], rplFull := false, replay := [] }
        (s.setFlag RPL_STATUS_VALID false).setFld RPL_STATUS_USED 0
      else ({ s with replay := s.recorder } : State).rplFinish

def execRplModeWrite (a : Auth) (p : Path) (v : Word) (s : State) : Out := .next (s.writeRplCtrl a p v)

end Sys2Proof.Machine
end

