-- ==== Sys2Proof/Machine/Ports.lean ====
section
/-!
DEFINITION. Rim ports (R342 to R347): routes and link masks, packets that wait at a port, credits with their perturbation
(R352, R533), and the border and fence checks of an arriving packet (R353, R412, R428, R538).
-/

namespace Sys2Proof.Machine

/-! ### Types of packets (R350, R393) -/

def ptWrite : Nat := 1
def ptResult : Nat := 2
def ptCredit : Nat := 3
def ptDoorbell : Nat := 4
def ptSummary : Nat := 5
def ptVersion : Nat := 6

/-- Is a packet one of the coil engine's (R393)? -/
def pktCoil (p : Pkt) : Bool := p.ptype == ptWrite && decide (2 ^ 31 ≤ p.opid)

/-- Bytes of a packet in a payload. -/
def pktBytes (p : Pkt) : Nat := 32 + p.data.length

/-! ### Routes and masks (R343, R344) -/

/-- The entry of an address in the route table of a map, as RPT_RT_DATA lays it out: VALID in bit 7, PORT in bits 3 to 0 (R343). -/
def State.routeEntry (s : State) (m dst : Nat) : Nat := SMap.get (fun _ => 0) s.routes (m * 65536 + dst)

/-- The route of an address under a map: its egress port. -/
def State.routeOf (s : State) (m dst : Nat) : Option Nat :=
  if bitOf (s.routeEntry m dst) 7 then some (s.routeEntry m dst % 16) else none

/-- Does a link belong to a port in a map? -/
def State.inPort (s : State) (m p k : Nat) : Bool := bitOf (s.fld (RPT_MAP_PORT_LINKS m p)) k

/-- Is a link UP? -/
def State.linkIsUp (s : State) (k : Nat) : Bool := s.linkPresent k && s.fld (RIM_STATUS_STATE k) == 5

/-- The links of a port that are UP. -/
def State.upLinks (s : State) (m p : Nat) : List Nat := positions 36 fun k => s.inPort m p k && s.linkIsUp k

/-- Frames that a link's replay window holds at most (R323). -/
def Link.windowSize (l : Link) : Nat := if l.far then l.farFrames else 13107

/-- Packets that a link's ingress buffer holds (R352). -/
def Link.ingressSize (l : Link) : Nat := if l.far then l.farSlots else 7168

/-- Free room of a link's replay window. -/
def State.windowRoom (s : State) (k : Nat) : Nat := (s.link k).windowSize - (s.link k).window.length

/-- The link that a packet of a port goes out on now: the most room, then the lower index (R344). -/
def State.bestLink (s : State) (m p : Nat) : Option Nat :=
  (s.upLinks m p).foldl (fun r k =>
    match r with
    | none => some k
    | some j => if s.windowRoom j < s.windowRoom k then some k else some j) none

/-- The key of the packets whose route is not valid; they wait as at a port with no UP link (R344). -/
def noPort : Nat := 12

/-- The key of the CREDIT packets that wait for link `k`: they are not routed (R352). -/
def creditPort (k : Nat) : Nat := 16 + k

/-- May a context's packet leave through a port (R345)? -/
def State.portAllowed (s : State) (tag : Option Nat) (p : Nat) : Bool :=
  match tag with
  | some t => bitOf (s.fld (SCH_PART_CTRL_RIM_PORTS (s.ctxOf (t / 256)).part)) p
  | none => true

/-- Append a packet to a port. -/
def State.atPort (s : State) (p : Nat) (q : QPkt) : State := s.setPort p (s.port p ++ [q])

/-- The pseudo-link that brings the packets this device sends to itself (R342). -/
def selfLink : Nat := 36

/-- A packet to this device's own address arrives at once. -/
def State.loopback (s : State) (pk : Pkt) : State := s.modLink selfLink fun l => { l with ingress := l.ingress ++ [(pk, s.now)] }

/-- Send a packet that the device forms, for the context of a tag where one is given: `none` where the port is denied (R345), which no coil
packet is: it belongs to no operation. A replay of the recorder sends nothing of its context (R407). -/
def State.sendPkt (s : State) (tag : Option Nat) (pk : Pkt) : Option State :=
  let m := s.fld RPT_GLOBAL_ACTIVE
  let muted := match tag with
    | some t => s.flag DIM_UNITS_STEP_REPLAY && s.fld RPL_CTRL_MODE == 2 && s.fld RPL_CTRL_CONTEXT == t / 256 && !pktCoil pk
    | none => false
  if muted then some s
  else if pk.dst = s.fld RPT_GLOBAL_SELF then some (s.loopback pk)
  else match s.routeOf m pk.dst with
    | none => some (s.atPort noPort ⟨pk, m, tag, none, false⟩)
    | some p => if s.portAllowed tag p || pktCoil pk then some (s.atPort p ⟨pk, m, tag, none, false⟩) else none

/-- HOPS of a formed packet: HOP_LIMIT, 0 treated as 1. -/
def State.hopLimit (s : State) : Nat := Nat.max 1 (s.fld RPT_GLOBAL_HOP_LIMIT)

/-- Packets of transit that came in on a link and wait at a port. -/
def State.transitOf (s : State) (k : Nat) : Nat :=
  s.ports.foldl (fun n e => n + (e.2.filter fun q => q.from_ == some k).length) 0

/-- Places in use in a link's ingress buffer; CREDIT packets take none (R352). -/
def State.ingressUsed (s : State) (k : Nat) : Nat :=
  ((s.link k).ingress.filter fun e => e.1.ptype != ptCredit).length + s.transitOf k

/-! ### Credits (R352, R533) -/

/-- Credits of a rim link are returned. -/
def State.linkCredits (s : State) (k n : Nat) : State :=
  let r := s.gainCredits 0 k 0 (s.link k).credits n
  r.2.modLink k fun l => { l with credits := l.credits + r.1 }

/-! ### The border (R353, R412, R413, R428, R538) -/

/-- The header of a packet (R350). -/
def pktHeader (p : Pkt) : List Byte :=
  [BitVec.ofNat 8 p.ptype, BitVec.ofNat 8 p.hops] ++ leBytes p.data.length 2 ++ leBytes p.dst 2 ++ leBytes p.src 2 ++
    leBytes (p.tag % 2 ^ 20 + b2n p.poison * 2 ^ 20) 4 ++ leBytes p.opid 4 ++ leBytes p.stamp 8 ++ leBytes p.offset 4 ++
    leBytes p.aux 4

/-- The packet whose header and data stand in a record (R406). -/
def pktOf (l : List Byte) : Pkt :=
  let at_ (o n : Nat) : Nat := leNat ((l.drop o).take n)
  ⟨at_ 0 1, at_ 1 1, at_ 4 2, at_ 6 2, at_ 8 4 % 2 ^ 20, bitOf (at_ 8 4) 20, at_ 12 4, at_ 16 8, at_ 24 4, at_ 28 4, l.drop 32⟩

/-- The ingress buffer of a far link lies in HBM (R352): a packet that comes into it is written at the first of its places that holds
none. `key` is the packet as the device goes on with it, one hop less in transit. -/
def State.storeFarIn (s : State) (k : Nat) (pk key : Pkt) : State :=
  let l := s.link k
  if !l.far then s
  else
    match ((List.range (l.farIn.length + 1)).map (l.farInBase + 288 * ·)).find? fun a => !l.farIn.any fun e => e.2 == a with
    | some a => (s.writeHbm a (pktHeader pk ++ pk.data)).modLink k fun l => { l with farIn := l.farIn ++ [(key, a)] }
    | none => s

/-- A packet leaves the ingress buffer without being read: its place is free. -/
def Link.dropFarIn (key : Pkt) (l : Link) : Link := { l with farIn := (takeFirst (fun e : Pkt × Nat => e.1 == key) l.farIn).2 }

/-- The packet that leaves the ingress buffer of link `k`, as it is read back where it lies in HBM. -/
def State.readFarIn (s : State) (k : Nat) (key : Pkt) : Pkt × State :=
  match (s.link k).farIn.find? fun e => e.1 == key with
  | some (_, a) =>
    let s := s.checkHbmRead a (pktBytes key)
    ({ pktOf (s.hbmBytes a (pktBytes key)) with hops := key.hops }, s.modLink k (Link.dropFarIn key))
  | none => (key, s)

/-- Take a packet out of a link's ingress buffer: the packet with its arrival time, and the place is returned as a credit. -/
def State.takeIngress (s : State) (k : Nat) (pk : Pkt) : Option (Pkt × Nat) × State :=
  match takeFirst (fun e : Pkt × Nat => e.1 == pk) (s.link k).ingress with
  | (none, _) => (none, s)
  | (some e, rest) =>
    let r := s.readFarIn k pk
    (some (r.1, e.2), r.2.modLink k fun l =>
      { l with ingress := rest, owed := if k = selfLink || pk.ptype = ptCredit then l.owed else l.owed + 1 })

/-- The border check of a packet that has arrived; what is dropped is counted. -/
def State.border (s : State) (pk : Pkt) : Bool × State :=
  let stale := s.ptb.flag PTB_CTRL_EN && s.ptb.fld PTB_GEN_COUNT != 0 && s.ptb.fld PTB_GEN_CONTEXT == pk.tag / 256 % 4096 &&
    (s.ptb.fld PTB_GEN_SRC == 0xFFFF || s.ptb.fld PTB_GEN_SRC == pk.src)
  if stale then
    let s := s.setPtb PTB_GEN_COUNT (s.ptb.fld PTB_GEN_COUNT - 1)
    (false, (s.count PTB_COUNT_GEN_DROPS 1).count RST_BORDER_RIM_DROP 1)
  else if !s.tagCurrent (pk.tag % 2 ^ 20) then (false, s.count RST_BORDER_RIM_DROP 1)
  else if SMap.get (fun _ => false) s.fence pk.src then (false, s.count RST_BORDER_FENCED_DROP 1)
  else (true, s)

/-- An arriving packet of a type on a link: it leaves the ingress buffer, and with its arrival time acts unless a border drops
it. `act` says whether it could act; if not it stays where it is. The recorder notes a packet for its context, and takes none
from the rim during a replay (R406, R407). -/
def State.arrive (s : State) (k : Nat) (pk : Pkt) (act : State → Pkt → Nat → Bool × State) : Bool × State :=
  if !s.powered then (true, s)
  else match s.takeIngress k pk with
    | (none, _) => (true, s)
    | (some (pk, t), s1) => match s1.border pk with
      | (false, s2) => (true, s2)
      | (true, s2) =>
        let c := pk.tag / 256 % 4096
        if s2.rplServes c rplReplay && !pktCoil pk then (true, s2)
        else
          let s2 := if s2.rplServes c rplRecord then s2.rplAppend rplPeer t (pktHeader pk ++ pk.data) else s2
          match act s2 pk t with
          | (true, s3) => (true, s3)
          | (false, s3) => (false, s.onlyAsked s3)

end Sys2Proof.Machine
end

