-- ==== Sys2Proof/Machine/Fabric.lean ====
section
/-!
DEFINITION. Fabric time: the sources and the servo (R15 to R24, R539), the epoch (R16) and the trigger slots as they are written
and armed (R25 to R28, R277, R422). What a firing does is in Trigger.lean.
-/

namespace Sys2Proof.Machine

/-! ### Sources (R18 to R20) -/

/-- Sources 0 to 35 are rim links, 36 and 37 the management ports. -/
def State.source (s : State) (p : Nat) : Source := SMap.get (fun _ => Source.reset) s.sources p
def State.setSource (s : State) (p : Nat) (x : Source) : State :=
  { s with sources := SMap.set (fun _ => Source.reset) s.sources p x }

/-- One ns in the units of the estimate. -/
def nsUnit : Int := 2 ^ 32

/-- ASYM_NS of a path. -/
def State.asymNs (s : State) (p : Nat) : Int := signed 32 (s.fld (FTU_PATH_ASYM_NS p))

/-- The skew that PTB_SKEW adds while perturbations are active (R531, R539). -/
def State.skewNs (s : State) : Int := if s.ptb.flag PTB_CTRL_EN then signed 32 (s.ptb.fld PTB_SKEW_SKEW_NS) else 0

/-- State code of an UP link (R330). -/
def linkUp : Nat := 5

/-- Is a source valid (R20)? -/
def State.sourceValid (s : State) (p : Nat) : Bool :=
  (s.source p).valid &&
    (if p < 36 then s.fld (RIM_STATUS_STATE p) == linkUp && s.flag FTU_CTRL_BEACON_EN && s.fld FTU_EPOCH_EPOCH_ID != 0
     else if p = 36 then s.flag FTU_CTRL_PTP0_EN else s.flag FTU_CTRL_PTP1_EN)

/-- The valid sources with their offsets after the skew. -/
def State.validSources (s : State) : List (Nat × Int) :=
  ((List.range 38).filter s.sourceValid).map fun p => (p, (s.source p).offset - s.skewNs * nsUnit)

/-- Insert into an ascending list. -/
def insertInt (x : Int) : List Int → List Int
  | [] => [x]
  | y :: ys => if x ≤ y then x :: y :: ys else y :: insertInt x ys

/-- Ascending order. -/
def sortInt (l : List Int) : List Int := l.foldr insertInt []

/-- Twice the median: twice the middle offset, or the sum of the two middle ones (DEDUCED, log entry 41). -/
def median2 (l : List Int) : Int :=
  let a := sortInt l
  a.getD ((a.length - 1) / 2) 0 + a.getD (a.length / 2) 0

/-- The sources in use: those within OUTLIER_NS of the median (R20) (DEDUCED, log entry 41). -/
def State.usedSources (s : State) : List (Nat × Int) :=
  let v := s.validSources
  let m := median2 (v.map (·.2))
  v.filter fun x => decide ((2 * x.2 - m).natAbs ≤ 2 * s.fld FTU_CTRL_OUTLIER_NS * 2 ^ 32)

/-- The weight of a source: 4 for PTP, 1 for a beacon. -/
def sourceWeight (p : Nat) : Int := if p < 36 then 1 else 4

/-- The combined offset as numerator and denominator, in units of the estimate. -/
def combined (l : List (Nat × Int)) : Int × Int :=
  (l.foldl (fun a x => a + sourceWeight x.1 * x.2) 0, l.foldl (fun a x => a + sourceWeight x.1) 0)

/-- A number of ns of a fraction of units: where it is no whole number, rounded down or up as the free value says (DESIGN CHOICE, log entry 12). -/
def nsOf (num den : Int) (n : Nat) : Int :=
  let d := den * nsUnit
  num / d + (if num % d ≠ 0 && Config.roundUp n then 1 else 0)

/-- |num / den| ≤ OUTLIER_NS. -/
def State.withinOutlier (s : State) (num den : Int) : Bool :=
  decide ((num.natAbs : Int) ≤ s.fld FTU_CTRL_OUTLIER_NS * nsUnit * den)

/-! ### The servo (R21 to R23) -/

/-- Move the estimate by a number of units. Fabric time never passes below 0. -/
def State.moveEstimate (s : State) (d : Int) : State := { s with servo := { s.servo with est := (s.servo.est + d).toNat } }

/-- Move the estimate against the sources, by a step or a slew: every source's offset moves with it. -/
def State.correctEstimate (s : State) (d : Int) : State :=
  { s.moveEstimate d with sources := s.sources.map fun (p, x) => (p, { x with offset := x.offset + d }) }

/-- SOURCE of FTU_STATUS for the sources in use. -/
def sourceCode (l : List (Nat × Int)) : Nat :=
  let p0 := l.any fun x => x.1 == 36
  let p1 := l.any fun x => x.1 == 37
  let b := l.any fun x => decide (x.1 < 36)
  if (p0 || p1) && b then 5 else if p0 && p1 then 3 else if p0 then 1 else if p1 then 2 else if b then 4 else 0

/-- HOPS (R19) of a locked device. -/
def State.hopsOf (s : State) (l : List (Nat × Int)) : Nat :=
  if l.any fun x => decide (36 ≤ x.1) then 0
  else Nat.min 15 (1 + ((l.map fun x => (s.source x.1).hops).foldl Nat.min 14))

/-- Set LOCKED, with the hop count that goes with it. -/
def State.setLocked (s : State) (on : Bool) (l : List (Nat × Int)) : State :=
  (s.setFlag FTU_STATUS_LOCKED on).setFld FTU_STATUS_HOPS (if on then s.hopsOf l else 15)

/-- ERR_BOUND now: in holdover it grows by 50 ns a second (R23). -/
def State.errBound (s : State) : Nat :=
  if !s.servo.everLocked then 0xFFFF
  else match s.usedSources with
    | [] => Nat.min 0xFFFF (s.servo.holdErr + 50 * (s.now - s.servo.holdAt) / 1000000000)
    | _ => s.fld FTU_STATUS_ERR_BOUND

/-- No source is in use: holdover (R23). The spec does not say whether a device that has never locked, and whose HOLDOVER resets to 0 with
no source in use, enters holdover: the model's does not, and nor is it DEGRADED, before the first lock (DESIGN CHOICE, log entry 102). -/
def State.enterHoldover (s : State) : State :=
  if !s.servo.everLocked then s
  else
    let s := if s.fld FTU_STATUS_SOURCE = 0 then s
      else s.modServo fun v => { v with holdErr := s.fld FTU_STATUS_ERR_BOUND, holdAt := s.now }
    let s := s.setFlag FTU_STATUS_HOLDOVER true
    let s := (s.setLocked false []).setFld FTU_STATUS_SOURCE 0
    s.modServo fun v => { v with slew := 0, goodSince := none }

/-- At the first lock, the limit of step 6 goes on in fabric time (R474). -/
def State.step6Locks (s : State) (first : Bool) : State :=
  if first && s.lid.upsett && decide (s.fld LID_STATUS_STEP = 6) then
    s.modLid fun l => { l with step6Due := some (s.now + (900000000 - (s.local - l.step6At))) }
  else s

/-- Combine the valid sources (R20, R21): load before the first lock, a forward step beyond STEP_NS, else a slew. A load or a step by a
combined offset that is no whole number of 2^-32 ns takes its floor: the rule gives no rounding there (DESIGN CHOICE, log entry 12).
`sample` says that a source has delivered an offset, and the servo then takes a new frequency correction (R23) (DEDUCED, log entry 41)
(DESIGN CHOICE, log entry 13). -/
def State.combine (s : State) (sample : Bool) : State :=
  match s.usedSources with
  | [] => s.enterHoldover
  | used =>
    let c := combined used
    let lim : Int := s.fld FTU_SERVO_STEP_NS * nsUnit
    let jump := !s.servo.everLocked || decide (c.1 < -(lim * c.2))
    let s := if jump then ((s.correctEstimate (-(c.1 / c.2))).step6Locks !s.servo.everLocked).modServo fun v => { v with everLocked := true, slew := 0 }
      else s.modServo fun v => { v with slew := c.1 / c.2 }
    let s := if sample then
        s.modServo fun v => { v with freq := Config.servoFreq (s.fld FTU_SERVO_BANDWIDTH) v.draws, draws := v.draws + 1 }
      else s
    let used := s.usedSources
    let c := combined used
    let n := s.servo.draws
    let spread := used.foldl (fun m x => Nat.max m (c.2 * x.2 - c.1).natAbs) 0
    let err := (nsOf ((c.1.natAbs + spread : Nat) : Int) c.2 (n + 1)).toNat
    let s := s.setFld FTU_STATUS_OFFSET_EST (wrap 32 (nsOf c.1 c.2 n))
    let s := s.setFld FTU_STATUS_ERR_BOUND (Nat.min 0xFFFF err)
    let s := s.setFld FTU_STATUS_SOURCE (sourceCode used)
    let good := s.withinOutlier c.1 c.2
    let s := s.modServo fun v =>
      { v with draws := n + 2
               reacquire := v.reacquire && !sample
               goodSince := if good then (if v.goodSince.isSome then v.goodSince else some s.now) else none }
    s.setLocked (good && !s.flag FTU_STATUS_HOLDOVER && !s.servo.reacquire) used

/-- A source delivers an offset. After a change of epoch only sources of the new epoch count (R16). -/
def State.sample (s : State) (p : Nat) (x : Source) : State :=
  let s := if s.servo.reacquire then { s with sources := s.sources.map fun (q, y) => (q, ({ y with valid := false } : Source)) } else s
  (s.setSource p x).combine true

/-- The kinds of source that are lost: the source is no longer valid, and the servo recombines. -/
def State.dropSource (s : State) (p : Nat) : State :=
  if (s.source p).valid then (s.setSource p { s.source p with valid := false }).combine false else s

/-- Does the device take fabric time: from step 6 of upsett on (R17, R472)? -/
def State.timeRuns (s : State) : Bool := s.powered && (s.ready || decide (6 ≤ s.fld LID_STATUS_STEP))

/-- A PTP message that gives an offset (R20): `offset` is the offset for a symmetric path, in units of 2^-32 ns. A duplicate of a
message that has counted at the other port is discarded, so that the message counts once. The rule does not say how far back a sequence identifier is recognised: the model compares
with the latest one of the other port (DESIGN CHOICE, log entry 101). -/
def execPtpMessage (port seqId : Nat) (slave : Bool) (offset : Int) (pathDelay : Nat) (s : State) : Out :=
  .next (
    if !s.timeRuns || decide (2 ≤ port) then s
    else if s.sourceValid (37 - port) && (s.source (37 - port)).seqId == some seqId then s
    else
      let p := 36 + port
      if !slave then
        let s := s.setSource p { s.source p with seqId := some seqId }
        s.dropSource p
      else
        let s := s.setFld (FTU_PATH_RTT_NS p) (2 * pathDelay)
        s.sample p ⟨true, offset - s.asymNs p * nsUnit, 0, some seqId⟩)

/-- A source ceases to be valid (R23). -/
def execHoldover (source : Nat) (s : State) : Out := .next (if s.powered then s.dropSource source else s)

/-- ERR_BOUND exceeds HOLD_LIMIT_NS: DEGRADED (R23, R432). -/
def execHoldoverLimit (s : State) : Out :=
  .next (
    if s.powered && s.servo.everLocked && decide (s.fld FTU_CTRL_HOLD_LIMIT_NS < s.errBound) &&
        !s.flag FTU_STATUS_DEGRADED then
      (s.setFlag FTU_STATUS_DEGRADED true).condition 1 TIME_DEGRADED true
    else s)

/-- The combined offset has stayed within OUTLIER_NS for a second with a source in use: HOLDOVER and DEGRADED clear (R23) (DEDUCED, log entry 41). -/
def execTimeRelock (s : State) : Out :=
  .next (s.whenOn fun s =>
    let used := s.usedSources
    match s.servo.goodSince with
    | none => s
    | some t =>
      if s.powered && (s.flag FTU_STATUS_HOLDOVER || s.flag FTU_STATUS_DEGRADED) && !used.isEmpty && decide (t + 1000000000 ≤ s.now) then
        let s := (s.setFlag FTU_STATUS_HOLDOVER false).setFlag FTU_STATUS_DEGRADED false
        let s := s.condition 1 TIME_DEGRADED false
        s.setLocked (!s.servo.reacquire) used
      else s)

/-- A write of FTU_CTRL: BEACON_US of 0 is taken as 1; which sources are valid may change. -/
def State.writeFtuCtrl (s : State) (a : Auth) (p : Path) (v : Word) : State :=
  let s := s.storeWith a p FTU_CTRL v (fun f => ownAllows f.own a FTU_CTRL)
    fun n => if bits n 31 24 = 0 then withBits n 31 24 1 else n
  if s.servo.everLocked then s.combine false else s

/-! ### The epoch (R16) -/

/-- Is an offset a trigger slot's control register? -/
def isTrigCtrl (off : Nat) : Bool :=
  decide (off % 16 = 8) &&
    ((decide (FTU_TRIG_CTRL 0 ≤ off) && decide (off ≤ FTU_TRIG_CTRL 255)) ||
      (List.range 4).any fun r => decide (RGN_TRIG_CTRL r 0 ≤ off) && decide (off ≤ RGN_TRIG_CTRL r 255))

/-- Disarm every trigger slot. -/
def State.disarmAll (s : State) : State :=
  s.forEach ((s.regs.map (·.1)).filter isTrigCtrl) fun s off => s.setMaskBit off 0 false

/-- The beacons of an old epoch are no sources. -/
def State.dropBeacons (s : State) : State :=
  { s with sources := s.sources.map fun (q, y) => (q, { y with valid := y.valid && decide (36 ≤ q) }) }

/-- A write of FTU_EPOCH (DESIGN CHOICE, log entry 37). -/
def execFtuEpochWrite (a : Auth) (p : Path) (v : Word) (s : State) : Out :=
  .next (s.arrives a p FTU_EPOCH v fun s =>
    if a ≠ .operator then s.store a p FTU_EPOCH v
    else
      let old := s.fld FTU_EPOCH_EPOCH_ID
      let new := bits v.toNat 31 0
      if new = 0 || !s.partList.isEmpty then s.refuse a p FTU_EPOCH v
      else
        let s := (s.store a p FTU_EPOCH v).setFlag FTU_STATUS_EPOCH_SET true
        if old = 0 || old = new then s
        else
          let s := (s.setLocked false []).disarmAll
          let s := s.dropBeacons.modServo fun x => { x with reacquire := true, goodSince := none }
          if s.servo.everLocked then s.combine false else s)

/-! ### Trigger slots (R25 to R28) -/

/-- The registers of a slot: of a region, or of the chip. -/
def trigCtrl (region : Option Nat) (i : Nat) : Nat := match region with | none => FTU_TRIG_CTRL i | some r => RGN_TRIG_CTRL r i
def trigTime (region : Option Nat) (i : Nat) : Nat := match region with | none => FTU_TRIG_TIME i | some r => RGN_TRIG_TIME r i

/-- Is an action code allowed at a level (R27)? -/
def actionAllowed (chip : Bool) (action : Nat) : Bool :=
  if chip then [0, 2, 3, 5, 6, 7, 8].contains action else [0, 1, 2, 4, 8].contains action

/-- Do an action and a target of a region slot belong to partitions that the driver owns (R28)? -/
def State.driverTarget (s : State) (r action target : Nat) : Bool :=
  match action with
  | 1 => s.driverOwns target
  | 2 => decide (32 ≤ target) && s.driverOwns (target - 32)
  | 4 => (s.ctxOf target).st != .free && s.driverOwns (s.ctxOf target).part
  | 8 => decide (target = 0xFF) || (decide (target < 32) &&
      ((s.blockPart (32 * r + target)).map s.driverOwns).getD false)
  | _ => true

/-- May a class write the slots of a level: the operator the chip's, the driver a region's, firmware before READY (R28, R422)? -/
def State.slotMay (s : State) (region : Option Nat) (a : Auth) : Bool :=
  (match region with | none => decide (a = .operator) | some _ => decide (a = .driver)) || (decide (a = .firmware) && !s.ready)

/-- A slot has been written in this clk: it fires in the next one at the earliest (R25, R32). -/
def State.slotFresh (s : State) (off : Nat) : State := s.modServo fun v => { v with fresh := off :: v.fresh }

/-- A write of a slot's control register: a reserved or disallowed action does not arm; arming clears MISSED. -/
def State.writeTrigCtrl (s : State) (a : Auth) (p : Path) (region : Option Nat) (i : Nat) (v : Word) : State :=
  let off := trigCtrl region i
  let n := v.toNat
  let own := match region with
    | none => true
    | some r => a != .driver || s.driverTarget r (bits n 11 8) (bits n 23 12)
  if s.slotMay region a && !own then s.refuseAuth a p off (s.reg off) v
  else
    (s.storeWith a p off v (fun _ => s.slotMay region a) fun m =>
      if bitOf m 0 then
        let m := withBits m 31 24 0
        if actionAllowed region.isNone (bits m 11 8) then m else withBits m 0 0 0
      else m).slotFresh off

def execTriggerArm (a : Auth) (p : Path) (region : Option Nat) (i : Nat) (v : Word) (s : State) : Out :=
  .next (s.arrives a p (trigCtrl region i) v fun s => s.writeTrigCtrl a p region i v)

/-- A write of a slot's TIME. -/
def State.writeTrigTime (s : State) (a : Auth) (p : Path) (region : Option Nat) (i : Nat) (v : Word) : State :=
  (s.storeWith a p (trigTime region i) v fun _ => s.slotMay region a).slotFresh (trigCtrl region i)

/-- The device arms a slot itself (R277, R422). -/
def State.armSlot (s : State) (region : Option Nat) (i time period action target : Nat) : State :=
  let s := s.setReg (trigTime region i) (BitVec.ofNat 64 time)
  (s.setReg (trigCtrl region i) (BitVec.ofNat 64 (period * 2 ^ 32 + target * 2 ^ 12 + action * 2 ^ 8 + 1))).slotFresh (trigCtrl region i)

/-- The device disarms a slot. -/
def State.disarmSlot (s : State) (region : Option Nat) (i : Nat) : State := s.setMaskBit (trigCtrl region i) 0 false

end Sys2Proof.Machine
end

