-- ==== Sys2Proof/Machine/Sync.lean ====
section
/-!
DEFINITION. The sync and system classes of the block core (R176 to R185), illegal instructions (R162), and the core's own
events: resume, self-test end, replay limit and timed waits (R179, R184, R197, R198).
-/

namespace Sys2Proof.Machine

/-! ### The WAIT family (R176, R177) -/

/-- The ticket mask of a WAIT-family instruction. -/
def State.waitMask (s : State) (b : Nat) (f : Bool) (w : Word) : Nat :=
  (w.toNat ||| (s.sreg b f (wSa w)).toNat) % 2 ^ 32

/-- The tickets of a mask that are BUSY. -/
def CoreSet.busyIn (x : CoreSet) (mask : Nat) : List Nat :=
  positions 32 fun t => bitOf mask t && decide ((x.ticket t).st = .busy)

/-- The tickets of a mask that are not BUSY, lowest first. -/
def CoreSet.idleIn (x : CoreSet) (mask : Nat) : List Nat :=
  positions 32 fun t => bitOf mask t && decide ((x.ticket t).st ≠ .busy)

/-- Set or clear the parked state of MAIN (R177); a FILL instruction leaves it. -/
def State.park (s : State) (b : Nat) (f : Bool) (on : Bool) : State :=
  if f then s else s.modBst b fun x => { x with parked := on }

/-- A WAIT-family instruction that does not complete parks MAIN where Y is set. -/
def State.keepWaiting (s : State) (b : Nat) (f : Bool) (w : Word) (wt : Wait) : Act :=
  .hold (if bitOf w.toNat 32 then s.park b f true else s) wt

/-- WAIT: DST, SB and [36:33] are RSV. -/
def execWait (b : Nat) (f : Bool) (w : Word) (s : State) : Out :=
  .next (s.issue b f w fun s =>
    if wDst w ≠ 0 || wSb w ≠ 0 || wBits w 36 33 ≠ 0 then .fault s CORE_FIELD_INVALID
    else if ((s.cset b f).busyIn (s.waitMask b f w)).isEmpty then .retire (s.park b f false)
    else s.keepWaiting b f w (.tickets false (s.waitMask b f w)))

/-- WAITANY: SB and [36:33] are RSV. -/
def execWaitany (b : Nat) (f : Bool) (w : Word) (s : State) : Out :=
  .next (s.issue b f w fun s =>
    if wSb w ≠ 0 || wBits w 36 33 ≠ 0 then .fault s CORE_FIELD_INVALID
    else
      let m := s.waitMask b f w
      if m = 0 then .retire ((s.park b f false).setSreg b f (wDst w) 32)
      else match (s.cset b f).idleIn m with
        | t :: _ => .retire ((s.park b f false).setSreg b f (wDst w) (BitVec.ofNat 64 t))
        | [] => s.keepWaiting b f w (.tickets true m))

/-- WAIT.T: the tickets decide before the deadline does. -/
def execWaitT (b : Nat) (f : Bool) (w : Word) (s : State) : Out :=
  .next (s.issue b f w fun s =>
    if wBits w 36 33 ≠ 0 then .fault s CORE_FIELD_INVALID
    else
      let m := s.waitMask b f w
      let dl := (s.sreg b f (wSb w)).toNat
      if ((s.cset b f).busyIn m).isEmpty then .retire ((s.park b f false).setSreg b f (wDst w) 0)
      else if dl ≤ s.blockNow b then .retire ((s.park b f false).setSreg b f (wDst w) 1)
      else s.keepWaiting b f w (.deadline (wDst w) dl m))

/-- TKST: SA, SB and [36:5] are RSV. -/
def execTkst (b : Nat) (f : Bool) (w : Word) (s : State) : Out :=
  .next (s.issue b f w fun s =>
    if wSa w ≠ 0 || wSb w ≠ 0 || wBits w 36 5 ≠ 0 then .fault s CORE_FIELD_INVALID
    else
      let t := (s.cset b f).ticket (wBits w 4 0)
      .retire (s.setSreg b f (wDst w) (if t.st = .done then t.word else 0)))

/-! ### Fabric time (R178, R179) -/

/-- FTNOW: every field but DST is RSV. -/
def execFtnow (b : Nat) (f : Bool) (w : Word) (s : State) : Out :=
  .next (s.issue b f w fun s =>
    if wSa w ≠ 0 || wSb w ≠ 0 || wImm w ≠ 0 then .fault s CORE_FIELD_INVALID
    else .retire (s.setSreg b f (wDst w) (BitVec.ofNat 64 (s.blockNow b))))

/-- FTWAIT: SB and [36:0] are RSV. Before the first lock it waits for the lock and then for its target. -/
def execFtwait (b : Nat) (f : Bool) (w : Word) (s : State) : Out :=
  .next (s.issue b f w fun s =>
    if wSb w ≠ 0 || wImm w ≠ 0 then .fault s CORE_FIELD_INVALID
    else
      let target := (s.sreg b f (wSa w)).toNat
      if s.servo.everLocked && decide (target ≤ s.blockNow b) then
        .retire (s.setSreg b f (wDst w) (BitVec.ofNat 64 (s.blockNow b)))
      else .hold s (.time (wDst w) target))

/-- FTSTAT: bits [31:0] of FTU_STATUS, with ERR_BOUND as it stands (R23). -/
def execFtstat (b : Nat) (f : Bool) (w : Word) (s : State) : Out :=
  .next (s.issue b f w fun s =>
    if wSa w ≠ 0 || wSb w ≠ 0 || wImm w ≠ 0 then .fault s CORE_FIELD_INVALID
    else .retire (s.setSreg b f (wDst w) (BitVec.ofNat 64 (withBits (s.reg FTU_STATUS).toNat 31 16 s.errBound % 2 ^ 32))))

/-- The deadline of a WAIT.T or the target of an FTWAIT that waits is reached (R176, R179). -/
def execTimedWaitDeadline (b : Nat) (f : Bool) (s : State) : Out :=
  .next (
    if !s.canIssue b f then s
    else
      let x := s.cset b f
      match x.wait with
      | .deadline dst target mask =>
        if (x.busyIn mask).isEmpty then
          ((s.park b f false).setSreg b f dst 0).retireTo b f (x.pc + 8)
        else if target ≤ s.blockNow b then
          ((s.park b f false).setSreg b f dst 1).retireTo b f (x.pc + 8)
        else s
      | .time dst target =>
        if s.servo.everLocked && decide (target ≤ s.blockNow b) then
          (s.setSreg b f dst (BitVec.ofNat 64 (s.blockNow b))).retireTo b f (x.pc + 8)
        else s
      | _ => s)

/-! ### The system class (R183 to R185, R545) -/

/-- Do the array, stake and vector queues hold something that a set issued? -/
def BlkState.queued (x : BlkState) (f : Bool) : Bool :=
  x.aq.any (fun o => o.f == f) || x.sq.any (fun o => o.f == f) || x.vq.any (fun o => o.f == f) ||
    (match x.run with | some r => r.op.f == f | none => false)

/-- EXIT: DST, SB and [36:0] are RSV. The exit value is reported once every ticket has left BUSY and the queues hold nothing of
the set. -/
def execExit (b : Nat) (f : Bool) (w : Word) (s : State) : Out :=
  .next (s.issue b f w fun s =>
    if wDst w ≠ 0 || wSb w ≠ 0 || wImm w ≠ 0 then .fault s CORE_FIELD_INVALID
    else if ((s.cset b f).busyIn (2 ^ 32 - 1)).isEmpty && !(s.bst b).queued f then
      let v := BitVec.ofNat 64 ((s.sreg b f (wSa w)).toNat % 2 ^ 32)
      .retire (s.modSet b f fun x => { x with exited := some v })
    else .hold s .exit)

/-- FENCE: every scalar store has been made visible when it retires, so it completes at once (R171). -/
def execFence (b : Nat) (f : Bool) (w : Word) (s : State) : Out :=
  .next (s.issue b f w fun s =>
    if wDst w ≠ 0 || wSa w ≠ 0 || wSb w ≠ 0 || wImm w ≠ 0 then .fault s CORE_FIELD_INVALID else .retire s)

/-- A CSR (R185), or none where the number is not listed. -/
def State.csr (s : State) (b : Nat) (f : Bool) (n : Nat) : Option Word :=
  let x := s.cset b f
  match n with
  | 0 => some (BitVec.ofNat 64 b)
  | 1 => some (BitVec.ofNat 64 (((s.blockPart b).map fun p => (s.partBlocks p).findIdx (· == b)).getD 0))
  | 2 => some (BitVec.ofNat 64 ((s.blockPart b).getD 0))
  | 3 => some (BitVec.ofNat 64 ((s.blk b).ctx.getD 0))
  | 4 => some (BitVec.ofNat 64 x.queue)
  | 5 => some (BitVec.ofNat 64 (b2n f))
  | 6 => some x.cycles
  | 7 => some x.retired
  | 8 => some x.taskPc
  | _ => if 0x10 ≤ n && decide (n ≤ 0x17) then some (SMap.get (fun _ => 0) x.user (n - 0x10)) else none

/-- CSRR: SA, SB and [36:8] are RSV. -/
def execCsrr (b : Nat) (f : Bool) (w : Word) (s : State) : Out :=
  .next (s.issue b f w fun s =>
    if wSa w ≠ 0 || wSb w ≠ 0 || wBits w 36 8 ≠ 0 then .fault s CORE_FIELD_INVALID
    else match s.csr b f (wBits w 7 0) with
      | none => .fault s CSR_ACCESS
      | some v => .retire (s.setSreg b f (wDst w) v))

/-- CSRW: DST, SB and [36:8] are RSV; only USER0 to USER7 may be written. -/
def execCsrw (b : Nat) (f : Bool) (w : Word) (s : State) : Out :=
  .next (s.issue b f w fun s =>
    let n := wBits w 7 0
    if wDst w ≠ 0 || wSb w ≠ 0 || wBits w 36 8 ≠ 0 then .fault s CORE_FIELD_INVALID
    else if n < 0x10 || 0x17 < n then .fault s CSR_ACCESS
    else .retire (s.modSet b f fun x => { x with user := SMap.set (fun _ => 0) x.user (n - 0x10) (x.rd (wSa w)) }))

/-- NOP. -/
def execNop (b : Nat) (f : Bool) (w : Word) (s : State) : Out :=
  .next (s.issue b f w fun s =>
    if wDst w ≠ 0 || wSa w ≠ 0 || wSb w ≠ 0 || wImm w ≠ 0 then .fault s CORE_FIELD_INVALID else .retire s)

/-- BREAK: CORE_BREAK, or with DEBUG_ATTACH a halt before the next instruction (R184). -/
def execBrk (b : Nat) (f : Bool) (w : Word) (s : State) : Out :=
  .next (s.issue b f w fun s =>
    if wDst w ≠ 0 || wSa w ≠ 0 || wSb w ≠ 0 || wImm w ≠ 0 then .fault s CORE_FIELD_INVALID
    else if s.flag (BLK_CORE_CTRL_DEBUG_ATTACH b) then .retire (s.setFlag (BLK_CORE_STATUS_HALTED b) true)
    else .fault s CORE_BREAK)

/-- A word whose major and minor no chapter defines raises ILLEGAL_INSTRUCTION (R162). A word that some chapter defines is no illegal
instruction: it is the command of its own row (R161), and this one does nothing. -/
def execIllegalInstruction (b : Nat) (f : Bool) (w : Word) (s : State) : Out :=
  .next (if (Sys2Proof.decodeCore? b f w).isNone then s.issue b f w fun s => .fault s ILLEGAL_INSTRUCTION else s)

/-! ### The core's self-test (R197, R198) -/

/-- The core self-test ends. -/
def execCoreSelftestDone (b : Nat) (pass : Bool) (s : State) : Out :=
  .next (s.whenOn fun s =>
    if !s.flag (BLK_CORE_STATUS_SELFTEST b) then s
    else
      let inj := (s.blk b).coreTestInjected
      let s := s.setFlag (BLK_CORE_STATUS_SELFTEST b) false
      let s := s.modBlk b fun x => { x with coreFails := 0, coreTestInjected := false }
      if pass then
        let s := s.count (BLK_CORE_COUNT_TRANSIENT b) 1
        if inj then s
        else (s.lastCode RST_STATUS_LAST_CODE CORE_TRANSIENT).health .transient ⟨none, CORE_TRANSIENT, 0x0AFF, b, 0⟩
      else s.coreFailed b)

/-- One instruction has failed its residue check REPLAY_LIMIT times in a row. -/
def execCoreReplayLimit (b : Nat) (s : State) : Out :=
  .next (s.whenOn fun s => if s.coreLimit b ≤ (s.blk b).coreFails then (s.modBlk b fun x => { x with coreFails := 0 }).coreFailed b else s)

end Sys2Proof.Machine
end

