-- ==== Sys2Proof/Machine/Queue.lean ====
section
/-!
DEFINITION. Queues as every sender of a doorbell sees them (R284, R285), readiness of entries (R287 to R289), what can start or
issue, and which contexts are runnable or blocked (R293, R294).
-/

namespace Sys2Proof.Machine

/-! ### Codes of the scheduler -/

/-- The SOURCE of a partition's scheduler: its lead region (R277, R310). -/
def State.schSrc (s : State) (p : Nat) : Nat := 0x0500 + s.leadRegion p

/-- Post a code of the scheduler (R312, R313). -/
def State.schPost (s : State) (n : Note) : State := (s.lastCode SCH_STATUS_LAST_CODE n.code).post n

/-- A context fault that the scheduler raises (R287, R304). -/
def State.schFault (s : State) (c code lo hi : Nat) : State :=
  (s.lastCode SCH_STATUS_LAST_CODE code).ctxFault c code (s.schSrc (s.ctxOf c).part) lo hi

/-- A heartbeat of a region's scheduler (R420). -/
def State.beat (s : State) (r : Nat) : State :=
  { s with heartbeats := SMap.modify (fun _ => 0) s.heartbeats r (· + 1) }

/-! ### Doorbells (R284, R285) -/

/-- Sequence number a is below b (R284). -/
def below (a b : Nat) : Bool :=
  let d := (b + 2 ^ 32 - a % 2 ^ 32) % 2 ^ 32
  decide (1 ≤ d) && decide (d ≤ 2 ^ 31)

/-- Does a replay of the recorder ignore the doorbells of queue `q` (R407)? (DEDUCED, log entry 59). -/
def State.replayQueue (s : State) (q : Nat) : Bool :=
  s.rplServes (s.queueOf q).ctx rplReplay && s.recorder.any fun r => r.kind == rplEntry && leNat (r.body.take 4) == q

/-- A write of TAIL to DB[q].TAIL, from whatever sender. The entry at HEAD becomes head when the doorbell makes it visible
(DESIGN CHOICE, log entry 14). -/
def State.doorbell (s : State) (q tail : Nat) : State :=
  let x := s.queueOf q
  let old := x.tail
  if x.st != .unbound then
    if s.replayQueue q then s
    else if (tail + 2 ^ 32 - old) % 2 ^ 32 ≤ (x.done + 2 ^ x.sizeLog2 + 2 ^ 32 - old) % 2 ^ 32 then
      if tail = old then s
      else s.putQueue q { x with tail := tail, headStamp := if x.head = old then s.now else x.headStamp }
    else s.schPost ⟨some (s.tagOf x.ctx), SCH_DOORBELL_INVALID, s.schSrc (s.ctxOf x.ctx).part, q + tail * 2 ^ 32, old⟩
  else s.schPost ⟨none, SCH_DOORBELL_INVALID, 0x0500 + Config.doorbellRegion q % 4, q + tail * 2 ^ 32, old⟩

/-- A write of DB[q].TAIL. -/
def State.writeDoorbell (s : State) (a : Auth) (p : Path) (q : Nat) (v : Word) : State :=
  s.arrives a p (DB_TAIL q) v fun s => s.doorbell q (bits v.toNat 31 0)

def execDoorbellWrite (a : Auth) (p : Path) (q : Nat) (v : Word) (s : State) : Out := .next (s.writeDoorbell a p q v)

/-! ### Readiness (R288, R289, R292) -/

/-- Is a dependency met (R289)? -/
def State.depMet (s : State) (d : Nat × Nat) : Bool :=
  (s.queueOf d.1).st != .unbound && below d.2 (s.queueOf d.1).done

/-- Is the entry that queue `q` holds ready (R289)? -/
def State.entryReady (s : State) (q : Nat) : Bool :=
  match (s.queueOf q).entry with
  | some e => e.deps.all s.depMet
  | none => false

/-- The queues of a context whose entries are ready; of one kind, or of both. -/
def State.readyQueues (s : State) (c : Nat) (kind : Option Nat) : List Nat :=
  (s.ctxQueues c).filter fun q => s.entryReady q && (match kind with | some k => (s.queueOf q).kind == k | none => true)

/-- The queues of a kind whose ready entries may start: STOP_Q halts the taking of entries (R284) (DEDUCED, log entry 44). -/
def State.startQueues (s : State) (c kind : Nat) : List Nat :=
  (s.readyQueues c (some kind)).filter fun q => decide ((s.queueOf q).st = .run)

/-- The queue whose entry goes first: earliest HEAD_STAMP, then the lower number (R291, R292). -/
def State.firstQueue (s : State) : List Nat → Option Nat
  | [] => none
  | q :: l => match s.firstQueue l with
    | none => some q
    | some r =>
      let a := (s.queueOf q).headStamp
      let b := (s.queueOf r).headStamp
      if a < b || (a = b && q < r) then some q else some r

/-- Does block `b` run context `c`, ready to take a task? -/
def State.holdsCtx (s : State) (c b : Nat) : Bool :=
  decide ((s.blk b).ctx = some c) && decide ((s.blk b).phase = .idle) && s.blockPresent b && !s.blockOut b && !(s.blk b).inReset &&
    !s.flag (BLK_CORE_STATUS_FAULTED b)

/-- The lowest idle home block of a context (R291). -/
def State.idleBlock (s : State) (c : Nat) : Option Nat :=
  (s.homeBlocks c).find? fun b => s.holdsCtx c b && !(s.bst b).main.placed

/-- The lowest home block that can take a fill task (R292). -/
def State.fillBlock (s : State) (c : Nat) : Option Nat :=
  if s.flag SCH_CTRL_FILL_EN then
    (s.homeBlocks c).find? fun b => s.holdsCtx c b && (s.bst b).main.placed && (s.bst b).parked && !(s.bst b).fill.placed
  else none

/-- The key of a gather hold: partition × 1,024 + index (R376). -/
def holdKey (part h : Nat) : Nat := part * 1024 + h

/-- Is a gather hold ACTIVE? -/
def State.holdActive (s : State) (key : Nat) : Bool := (SMap.get (fun _ => none) s.holds key).isSome

/-- Is a ready fill entry fenced by its hold (R292)? -/
def State.fenced (s : State) (q : Nat) : Bool :=
  match (s.queueOf q).entry with
  | some e => e.hold != 0 && decide (e.hold ≤ 1024) && s.holdActive (holdKey (s.ctxOf (s.queueOf q).ctx).part (e.hold - 1))
  | none => false

/-- The queues whose fill entries are eligible but for the block. -/
def State.fillQueues (s : State) (c : Nat) : List Nat := (s.startQueues c 1).filter fun q => !s.fenced q

/-! ### Runnable and blocked (R293, R294) -/

/-- Is a set stalled in a WAIT-family instruction or in FTWAIT? -/
def CoreSet.inWait (x : CoreSet) : Bool :=
  match x.wait with
  | .tickets _ _ | .deadline _ _ _ | .time _ _ => true
  | _ => false

/-- Can a placed set issue: not stalled in a wait whose end has not come? -/
def State.setIssues (s : State) (x : CoreSet) : Bool :=
  x.placed && x.exited.isNone &&
    match x.wait with
    | .tickets any mask => if any then decide (mask = 0) || !(x.idleIn mask).isEmpty else (x.busyIn mask).isEmpty
    | .deadline _ target mask => (x.busyIn mask).isEmpty || decide (target ≤ s.now)
    | .time _ target => s.servo.everLocked && decide (target ≤ s.now)
    | _ => true

/-- Can a task of a saved block state issue? While a fill task is placed, MAIN does not (R177). -/
def State.savedIssues (s : State) (x : BlkState) : Bool := s.setIssues (if x.fill.placed then x.fill else x.main)

/-- Is a swapped context runnable (R294)? A block that it has not left yet counts with the saved ones (DEDUCED, log entry 44). -/
def State.runnable (s : State) (c : Nat) : Bool :=
  decide ((s.ctxOf c).st = .swapped) &&
    (!(s.readyQueues c none).isEmpty || (s.ctxOf c).saved.any (fun e => s.savedIssues e.2) ||
      (s.blocksOf c).any fun b => s.savedIssues (s.bst b))

/-- Do two contexts compete for shares: the same partition and class? -/
def Ctx.peer (x y : Ctx) : Bool := x.part == y.part && x.cls == y.cls

/-- The charge lift of a context that becomes runnable (R293): to SHARE × m, m the smallest CHARGE / SHARE of its class,
rounded down. -/
def State.lift (s : State) (c : Nat) : State :=
  let s := s.settleAll
  let x := s.ctxOf c
  let qs := (s.ctxList.filter fun d => d != c && x.peer (s.ctxOf d) &&
      (decide ((s.ctxOf d).st = .resident) || s.runnable d)).map fun d => (s.ctxOf d).charge / (s.ctxOf d).share
  match qs with
  | [] => s
  | q :: l => if x.cls = 1 then s else s.modCtx c fun x => { x with charge := Nat.max x.charge (x.share * l.foldl Nat.min q) }

/-- Note which swapped contexts have become runnable, and lift their charges. -/
def State.refreshRunnable (s : State) : State :=
  s.forEach s.ctxList fun s c =>
    if s.runnable c then
      if (s.ctxOf c).runSince.isSome then s else (s.lift c).modCtx c fun x => { x with runSince := some s.now }
    else if (s.ctxOf c).runSince.isSome then s.modCtx c fun x => { x with runSince := none }
    else s

/-- A count that rises with every instruction that a task of the context retires and every task that starts. -/
def State.progress (s : State) (c : Nat) : Nat :=
  sumNat ((s.homeBlocks c).map fun b => (s.reg (BLK_CORE_RETIRED b)).toNat) + (s.ctxOf c).acct.tasks

/-- Does the condition of R294 hold of a resident context now? -/
def State.stalledNow (s : State) (c : Nat) : Bool :=
  decide ((s.ctxOf c).st = .resident) && !(s.ctxOf c).tearing &&
    ((s.startQueues c 0).isEmpty || (s.idleBlock c).isNone) &&
    ((s.fillQueues c).isEmpty || (s.fillBlock c).isNone) &&
    (s.homeBlocks c).all fun b =>
      (s.blk b).incoming != some c &&
      (let x := s.bst b
       (s.blk b).ctx != some c ||
        ((!x.main.placed || (x.main.inWait && (x.fill.placed || !s.setIssues x.main))) &&
          (!x.fill.placed || (x.fill.inWait && !s.setIssues x.fill))))

/-- Note, clk by clk, since when the condition has held of each resident (DEDUCED, log entry 44). -/
def State.noteStalls (s : State) : State :=
  s.forEach s.ctxList fun s c =>
    let n := s.progress c
    let next := if s.stalledNow c then
        match (s.ctxOf c).stallSince with
        | some (t, m) => if m = n then some (t, m) else some (s.now, n)
        | none => some (s.now, n)
      else none
    if (s.ctxOf c).stallSince = next then s else s.modCtx c fun x => { x with stallSince := next }

/-- Is a resident context blocked: has the condition held for BLOCKED_NS of fabric time, with nothing moved since (R294)? -/
def State.isBlocked (s : State) (c : Nat) : Bool :=
  match (s.ctxOf c).stallSince with
  | some (t, n) => n == s.progress c && s.stalledNow c && decide (t + s.fld SCH_CTRL_BLOCKED_NS ≤ s.now)
  | none => false

end Sys2Proof.Machine
end

