-- ==== Sys2Proof/Machine/Flags.lean ====
section
/-!
DEFINITION. The sticky flags of the vector engine: configuration item 4 (R156, R157).
-/

namespace Sys2Proof.Machine

/-- Set bits of configuration item 4 (R156). -/
def BlkState.raise (x : BlkState) (bit : Nat) (on : Bool) : BlkState :=
  if on then { x with cfg := SMap.set (fun _ => 0) x.cfg 4 (BitVec.ofNat 64 (withBits (x.cfgItem 4).toNat bit bit 1)) } else x

def flagNanMade : Nat := 0
def flagOverflow : Nat := 1
def flagEmptyRow : Nat := 2
def flagInfRow : Nat := 3
def flagOptClamp : Nat := 4
def flagOptNonfinite : Nat := 5

/-- R157: NaN from operands none of which is NaN, and ±infinity from finite operands. -/
def resultFlags (ops : List FVal) (r : FVal) : Bool × Bool :=
  (r.isNan && ops.all fun x => !x.isNan, r.isInf && ops.all FVal.isFin)

end Sys2Proof.Machine
end

