-- ==== Sys2Proof/Machine/VectorOps.lean ====
section
/-!
DEFINITION. What every vector and twine instruction shares: element types (R118), issue checks (R123, R127, R159, R544), the
vector queue (R121), active elements (R119), the sticky flags (R157) and the counter banks (R142).
-/

namespace Sys2Proof.Machine

/-! ### Fields and types -/

def wMen (w : Word) : Bool := bitOf w.toNat 30
def wMsk (w : Word) : Nat := wBits w 29 27
def wType (w : Word) : Nat := wBits w 26 24

/-- Width of an element type in bytes (R118). -/
def typeBytes (t : Nat) : Nat := [2, 2, 4, 8, 2, 4, 8].getD t 2
/-- VLMAX of a type. -/
def vlMax (t : Nat) : Nat := if typeBytes t = 8 then 512 else 1024
/-- Elements per beat. -/
def perBeat (t : Nat) : Nat := 1024 / typeBytes t
def typeFloat (t : Nat) : Bool := decide (t < 4)
/-- The binary format of a floating type. -/
def typeFmt (t : Nat) : Fmt := [bf16, f16, f32].getD t f64
/-- The value of an element pattern. -/
def typeVal (t raw : Nat) : FVal := if typeFloat t then (typeFmt t).decode raw else FVal.ofInt (8 * typeBytes t) raw

/-- Lists of types accepted (R544). -/
def floatTypes : List Nat := [0, 1, 2, 3]
def intTypes : List Nat := [4, 5, 6]
def anyType : List Nat := [0, 1, 2, 3, 4, 5, 6]

/-- The mask of bits `hi` to `lo` of an instruction word. -/
def bitMask (hi lo : Nat) : Nat := 2 ^ (hi + 1) - 2 ^ lo

/-- A field that names a mask register has bits [4:3] 0. -/
def maskField (r : Nat) : Bool := decide (r < 8)

/-! ### Elements -/

/-- Is element `i` active: below vl and, when masked, with its mask bit 1 (R119)? -/
def BlkState.active (x : BlkState) (w : Word) (i : Nat) : Bool := decide (i < x.vl) && (!wMen w || x.mbit (wMsk w) i)

/-- Write the active elements of v[DST]; `g` gives element and flags. -/
def BlkState.writeElems (x : BlkState) (w : Word) (wd : Nat) (g : Nat → Nat × Bool × Bool) : BlkState :=
  let rs := (List.range x.vl).map fun i => if x.active w i then g i else (x.velem (wDst w) wd i, false, false)
  ((x.setVelems (wDst w) wd (rs.map (·.1))).raise flagNanMade (rs.any (·.2.1))).raise flagOverflow (rs.any (·.2.2))

/-- Write the active bits of a mask register. -/
def BlkState.writeMask (x : BlkState) (r : Nat) (act : Nat → Bool) (g : Nat → Bool) : BlkState :=
  x.setMreg r (BitVec.ofNat 1024 ((List.range 1024).foldr (fun i a => 2 * a + b2n (if act i then g i else x.mbit r i)) 0))

/-! ### Counter banks (R142) -/

/-- Take an element into a bank's amax: its magnitude rounded toward +infinity to binary32. -/
def Bank.takeAmax (k : Bank) : FVal → Bank
  | .fin _ m e => { k with amax := BitVec.ofNat 32 (Nat.max k.amax.toNat (f32.roundUp m e)) }
  | _ => k

/-- Count an outcome. -/
def Bank.takeOutcome (k : Bank) : Outcome4 → Bank
  | .exact => { k with exact := satU 32 (k.exact + 1) }
  | .inexact => { k with inexact := satU 32 (k.inexact + 1) }
  | .saturated => { k with saturated := satU 32 (k.saturated + 1) }
  | .nonfinite => { k with nonfinite := satU 32 (k.nonfinite + 1) }

/-! ### Issue -/

/-- The issue checks that every instruction shares: TK and ticket, bits [23:0] that the tables name, and TYPE. No type list means
that TYPE is unused. `more` is the instruction's own check of its fields. Where several codes apply, VEC_FIELD_INVALID goes before
VEC_FORMAT_INVALID (DEDUCED, log entry 27), and VL_RANGE comes last: the rules give no order (DESIGN CHOICE, log entry 104). -/
def vecCheck (w : Word) (low : Nat) (types : List Nat) (vl : Nat) (more : Option Nat) : Option Nat :=
  let t := wType w
  if (!wTk w && wTicket w ≠ 0) || wBits w 23 0 &&& (2 ^ 24 - 1 - low) ≠ 0 || (types.isEmpty && t ≠ 0) ||
      more = some VEC_FIELD_INVALID then some VEC_FIELD_INVALID
  else if !types.isEmpty && !types.contains t then some VEC_FORMAT_INVALID
  else match more with
    | some e => some e
    | none => if !types.isEmpty && decide (vlMax t < vl) then some VL_RANGE else none

/-- No check of its own. -/
def noCheck (_ : State) : Option Nat := none

/-- The code of VEC_STATUS.LAST_CODE: only those of R159 enter it. -/
def State.vecLast (s : State) (b code : Nat) : State :=
  if 0x0201 ≤ code && decide (code ≤ 0x0206) then s.setFld (BLK_VEC_STATUS_LAST_CODE b) code else s

/-- Put an instruction into the vector queue with the code it completes with (DEDUCED, log entry 30). -/
def State.pushVec (s : State) (b : Nat) (f : Bool) (w : Word) (code : Nat) (twine : Bool) : State :=
  let pc := (s.cset b f).pc.toNat
  let s := if wTk w then s.takeTicket b f (wTicket w) unitVector else s
  (s.vecLast b code).modBst b fun x =>
    { x with vq := x.vq ++ [⟨f, if wTk w then some (wTicket w) else none, pc, code, twine⟩] }

/-- The check of register reads (R158): a mismatch gives VREG_PARITY and calls for the register file's self-test. -/
def State.vregCheck (s : State) (b : Nat) : Bool × State :=
  match s.checkUnit .vregParity b false with
  | (none, s) => (false, s)
  | (some h, s) =>
    (true, (s.count (BLK_VEC_COUNT_PARITY b) 1).modBlk b fun x => { x with vregTest := true, vregTestInjected := h.injected })

/-- Issue a vector or twine instruction: its checks, the stall on a full queue or a BUSY ticket, its effect, and its entry. With
vl = 0 it changes nothing (R119). `reads` says that it reads a vector or mask register. -/
def State.vec (s : State) (b : Nat) (f : Bool) (w : Word) (low : Nat) (types : List Nat) (more : State → Option Nat)
    (reads twine : Bool) (eff : State → Res Unit × State) : State :=
  s.issue b f w fun s =>
    match vecCheck w low types (s.bst b).vl (more s) with
    | some e => .fault (s.vecLast b e) e
    | none =>
      if 8 ≤ (s.bst b).vq.length || (s.blk b).vregTest || (wTk w && s.ticketBusy b f (wTicket w)) then .hold s .stall
      else if (s.bst b).vl = 0 then .retire (s.pushVec b f w 0 twine)
      else match if reads then s.vregCheck b else (false, s) with
        | (true, s) => .retire (s.pushVec b f w VREG_PARITY twine)
        | (false, s) =>
          match eff s with
          | (.ok (), s) => .retire (s.pushVec b f w 0 twine)
          | (.fault e, s) => .retire (s.pushVec b f w e twine)
          | (.wait, s) => .hold s .stall

/-- An instruction that works on registers alone. -/
def State.vecReg (s : State) (b : Nat) (f : Bool) (w : Word) (low : Nat) (types : List Nat) (more : State → Option Nat)
    (reads twine : Bool) (eff : State → BlkState → BlkState) : State :=
  s.vec b f w low types more reads twine fun s => (.ok (), s.modBst b (eff s))

/-- A synchronous instruction (R124): TK and ticket are 0; it waits for the queue and writes s[DST], but with vl = 0 it changes no register
(R119) (DEDUCED, log entry 95). -/
def State.vecSync (s : State) (b : Nat) (f : Bool) (w : Word) (low : Nat) (types : List Nat) (more : State → Option Nat)
    (reads : Bool) (val : State → Word) : State :=
  s.issue b f w fun s =>
    let m := if wTk w || wTicket w ≠ 0 then some VEC_FIELD_INVALID else more s
    match vecCheck w low types (s.bst b).vl m with
    | some e => .fault (s.vecLast b e) e
    | none =>
      if 8 ≤ (s.bst b).vq.length || (s.blk b).vregTest then .hold s .stall
      else if !(s.bst b).vq.isEmpty then .hold s (.sync false)
      else if (s.bst b).vl = 0 then .retire s
      else match if reads then s.vregCheck b else (false, s) with
        | (true, s) => .hold ((s.vecLast b VREG_PARITY).faultNoTicket b f (s.cset b f).pc.toNat VREG_PARITY) .none
        | (false, s) => .retire (s.setSreg b f (wDst w) (val s))

/-- Operand b: with VS the low bits of s[SB], else element `i` of v[SB] (R122, R127). -/
def State.opB (s : State) (b : Nat) (f : Bool) (w : Word) (x : BlkState) (i : Nat) : Nat :=
  let wd := typeBytes (wType w)
  if wVs w then (s.sreg b f (wSb w)).toNat % 2 ^ (8 * wd) else x.velem (wSb w) wd i

end Sys2Proof.Machine
end

