-- ==== Sys2Proof/Machine/Twine.lean ====
section
/-!
DEFINITION. The twine unit's reductions and counters (R140 to R146) and the softmax instructions (R147 to R150).
-/

namespace Sys2Proof.Machine

/-! ### Segments and the fixed order (R140, R141) -/

/-- SEG is 0 or 5 to 10. -/
def segOk (seg : Nat) : Bool := seg == 0 || (decide (5 ≤ seg) && decide (seg ≤ 10))

/-- Number of segments. -/
def segCount (vl seg : Nat) : Nat := if vl = 0 then 0 else if seg = 0 then 1 else ceilDiv vl (2 ^ seg)

/-- Segment k: first element and end. -/
def segBounds (vl seg k : Nat) : Nat × Nat :=
  if seg = 0 then (0, vl) else (k * 2 ^ seg, Nat.min ((k + 1) * 2 ^ seg) vl)

/-- Adjacent sums until one is left. -/
def pairTree : Nat → List FVal → FVal
  | 0, l => l.headD (.fin false 0 0)
  | n + 1, l => if l.length ≤ 1 then l.headD (.fin false 0 0) else pairTree n (pairLevel l)

/-- twine_sum() of elements lo to hi - 1; `leaf` gives +0 for an excluded element. -/
def twineSum (perB seg lo hi : Nat) (leaf : Nat → FVal) (prior : FVal) : FVal :=
  let leaves := if seg = 0 then perB else Nat.min perB (2 ^ seg)
  ((List.range ((hi - 1) / perB + 1)).drop (lo / perB)).foldl (fun acc beat =>
    let c0 := Nat.max lo (beat * perB)
    let c1 := Nat.min hi ((beat + 1) * perB)
    let t := (List.range leaves).map fun k => if c0 + k < c1 then leaf (c0 + k) else .fin false 0 0
    rnd64 (acc.add (pairTree 10 t))) prior

/-- An element widened to binary64 (R141). -/
def widen (t raw : Nat) : FVal := if typeFloat t then typeVal t raw else rnd64 (typeVal t raw)

/-- The elements of a segment that are not excluded: index and widened value. -/
def BlkState.segElems (x : BlkState) (w : Word) (lo hi : Nat) : List (Nat × FVal) :=
  (((List.range hi).drop lo).filter (x.active w)).map fun i => (i, widen (wType w) (x.velem (wSa w) (typeBytes (wType w)) i))

/-- Look up a leaf. -/
def leafOf (l : List (Nat × FVal)) (i : Nat) : FVal :=
  match l.find? fun p => p.1 == i with
  | some p => p.2
  | none => .fin false 0 0

/-! ### Reductions -/

/-- The issue check of a reduction: SEG, POST, SB, and the number of segments. POST on another reduction than SUMSQ raises VEC_FIELD_INVALID:
R140 says only that it is SUMSQ's (DESIGN CHOICE, log entry 104). -/
def twineCheck (w : Word) (sumsq argmax : Bool) (vl : Nat) : Option Nat :=
  let seg := wBits w 22 19
  let post := bitOf w.toNat 18
  if !segOk seg || (post && (!sumsq || seg ≠ 0)) || (wSb w ≠ 0 && !(argmax || post)) ||
      (if argmax then 16 else 32) < segCount vl seg then some VEC_FIELD_INVALID
  else none

/-- A reduction with one 64-bit result per segment: `g` gives result and flags from the elements, bounds and prior pattern. -/
def BlkState.reduce (x : BlkState) (w : Word) (g : List (Nat × FVal) → Nat × Nat → Nat → Nat × Bool × Bool) : BlkState :=
  let seg := wBits w 22 19
  let rs := (List.range (segCount x.vl seg)).map fun k =>
    let bd := segBounds x.vl seg k
    g (x.segElems w bd.1 bd.2) bd (x.velem (wDst w) 8 k)
  ((x.setVelems (wDst w) 8 (rs.map (·.1))).raise flagNanMade (rs.any (·.2.1))).raise flagOverflow (rs.any (·.2.2))

/-- SUM or SUMSQ of one segment. -/
def sumSeg (w : Word) (sq : Bool) (l : List (Nat × FVal)) (bd : Nat × Nat) (prior : Nat) : Nat × Bool × Bool :=
  let t := wType w
  let leaves := if sq then l.map fun (i, v) => (i, if t = 3 || t = 5 || t = 6 then rnd64 (v.mul v) else v.mul v) else l
  let p := if wVs w then f64.decode prior else .fin false 0 0
  let r := twineSum (perBeat t) (wBits w 22 19) bd.1 bd.2 (leafOf leaves) p
  (f64.encode r, resultFlags (p :: l.map (·.2)) r)

/-- MAX, MIN or AMAX of one segment. -/
def extSeg (w : Word) (start : FVal) (prep : FVal → Option FVal) (fold : FVal → FVal → FVal) (l : List (Nat × FVal))
    (_ : Nat × Nat) (prior : Nat) : Nat × Bool × Bool :=
  let r := (l.filterMap fun p => prep p.2).foldl fold start
  (f64.encode (if wVs w then fold (f64.decode prior) r else r), false, false)

/-- A twine reduction on registers. -/
def State.twine (s : State) (b : Nat) (f : Bool) (w : Word) (eff : State → BlkState → BlkState) : State :=
  s.vecReg b f w (bitMask 23 17) anyType (fun s => twineCheck w false false (s.bst b).vl) true true eff

def execTwSum (b : Nat) (f : Bool) (w : Word) (s : State) : Out :=
  .next (s.twine b f w fun _ x => x.reduce w (sumSeg w false))

def execTwMax (b : Nat) (f : Bool) (w : Word) (s : State) : Out :=
  .next (s.twine b f w fun _ x => x.reduce w (extSeg w (.inf true) some FVal.maximum))

def execTwMin (b : Nat) (f : Bool) (w : Word) (s : State) : Out :=
  .next (s.twine b f w fun _ x => x.reduce w (extSeg w (.inf false) some FVal.minimum))

/-- AMAX: NaN elements are ignored. -/
def execTwAmax (b : Nat) (f : Bool) (w : Word) (s : State) : Out :=
  .next (s.twine b f w fun _ x =>
    x.reduce w (extSeg w (.fin false 0 0) (fun v => if v.isNan then none else some v.abs) FVal.maximum))

/-- COUNT_NONFINITE. -/
def execTwCountNonfinite (b : Nat) (f : Bool) (w : Word) (s : State) : Out :=
  .next (s.twine b f w fun _ x =>
    x.reduce w fun l _ prior => ((l.filter fun p => !p.2.isFin).length + (if wVs w then prior else 0), false, false))

/-- Is a above b, with -0 below +0? -/
def aboveVal (a b : FVal) : Bool := b.lt a || (a.eq b && b.sign && !a.sign)

/-- The best of a segment: value and index, the first NaN if there is one. -/
def argBest (l : List (Nat × FVal)) : FVal × Option Nat :=
  match l.find? fun p => p.2.isNan with
  | some p => (.nan, some p.1)
  | none => l.foldl (fun (best : FVal × Option Nat) p =>
      if best.2.isNone || aboveVal p.2 best.1 then (p.2, some p.1) else best) (.inf true, none)

/-- ARGMAX writes elements 2k and 2k + 1. -/
def execTwArgmax (b : Nat) (f : Bool) (w : Word) (s : State) : Out :=
  .next (s.vecReg b f w (bitMask 23 17) anyType (fun s => twineCheck w false true (s.bst b).vl) true true fun s x =>
    let seg := wBits w 22 19
    let off := (s.sreg b f (wSb w)).toNat
    let rs := (List.range (segCount x.vl seg)).flatMap fun k =>
      let bd := segBounds x.vl seg k
      let best := argBest (x.segElems w bd.1 bd.2)
      let idx := match best.2 with
        | some i => (i + off) % 2 ^ 64
        | none => 2 ^ 64 - 1
      let pv := f64.decode (x.velem (wDst w) 8 (2 * k))
      if wVs w && (pv.isNan || (!best.1.isNan && !aboveVal best.1 pv)) then
        [f64.encode pv, x.velem (wDst w) 8 (2 * k + 1)]
      else [f64.encode best.1, idx]
    x.setVelems (wDst w) 8 rs)

/-- The statistics record (R145, R146). -/
def State.statRecord (s : State) (b : Nat) (f : Bool) (w : Word) (result : Nat) : List Byte :=
  let id := (s.sreg b f (wSb w)).toNat
  leBytes ((s.bst b).cfgItem 1).toNat 8 ++ leBytes id 4 ++ leBytes (id / 2 ^ 32) 2 ++ leBytes (wBits w 17 17) 1 ++ [0] ++
    leBytes result 8 ++ leBytes s.now 8

/-- SUMSQ; with POST the record goes to the ring of items 2 and 3, and a size of 0 disables posting (R156). -/
def execTwSumsq (b : Nat) (f : Bool) (w : Word) (s : State) : Out :=
  .next (s.vec b f w (bitMask 23 17) anyType (fun s => twineCheck w true false (s.bst b).vl) true true fun s =>
    let s1 := s.modBst b fun x => x.reduce w (sumSeg w true)
    let item := ((s.bst b).cfgItem 3).toNat
    let size := bits item 4 0
    if !bitOf w.toNat 18 || size = 0 then (.ok (), s1)
    else match (s.blk b).ctx with
      | none => (.ok (), s1)
      | some c =>
        let idx := bits item 63 32
        let a := (((s.bst b).cfgItem 2).toNat + 32 * (idx % 2 ^ size)) % 2 ^ 64
        let rec_ := s.statRecord b f w ((s1.bst b).velem (wDst w) 8 0)
        match s1.vwrite c a rec_ with
        | (.ok (), s2) =>
          let s2 := s2.modBst b fun x =>
            { x with cfg := SMap.set (fun _ => 0) x.cfg 3 (BitVec.ofNat 64 (withBits item 63 32 (idx + 1))) }
          (.ok (), s2.count (BLK_VEC_COUNT_STAT_RECORDS b) 1)
        | (.fault e, s2) => (.fault e, s2)
        | (.wait, _) => (.wait, (s.vwrite c a rec_).2))

/-- TW.CRD (R143). -/
def execTwCrd (b : Nat) (f : Bool) (w : Word) (s : State) : Out :=
  .next (s.vecReg b f w (bitMask 2 0) [] noCheck false true fun _ x =>
    let k := x.bank (wBits w 2 0)
    x.setVelems (wDst w) 8 [k.exact, k.inexact, k.saturated, k.nonfinite, f64.encode (f32.decode k.amax.toNat)])

/-- TW.CCLR. -/
def execTwCclr (b : Nat) (f : Bool) (w : Word) (s : State) : Out :=
  .next (s.vecReg b f w (bitMask 7 0) [] noCheck false true fun _ x =>
    (positions 8 (bitOf w.toNat)).foldl (fun x k => x.setBank k .reset) x)

/-! ### Softmax (R147 to R150) -/

/-- A row state: M, K, S. -/
structure RowState where
  m : FVal
  k : Nat
  s : FVal

/-- Read a row state: with K > 0 M reads as +inf unless it is NaN (R147). -/
def BlkState.rowState (x : BlkState) (r row : Nat) : RowState :=
  let v := x.velem r 16 row
  let m := f32.decode (v % 2 ^ 32)
  let k := v / 2 ^ 32 % 2 ^ 32
  ⟨if k ≠ 0 && !m.isNan then .inf false else m, k, f64.decode (v / 2 ^ 64)⟩

/-- The pattern of a row state. -/
def RowState.pat (t : RowState) : Nat := f32.encode t.m + t.k * 2 ^ 32 + f64.encode t.s * 2 ^ 64

/-- exp of an exact difference, rounded to binary64 (R148). -/
def expDiff (x m : FVal) : FVal := f64.decode (f64.fn .exp (x.add m.neg))

def zeroVal : FVal := .fin false 0 0
def oneVal : FVal := .fin false 1 0

/-- chunk() of the elements that are not excluded. -/
def smxChunk (perB seg lo hi : Nat) (inc : List (Nat × FVal)) : RowState :=
  let infs := (inc.filter fun p => p.2 == .inf false).length
  if inc.any fun p => p.2.isNan then ⟨.nan, 0, .nan⟩
  else if infs ≠ 0 then ⟨.inf false, infs, .fin false infs 0⟩
  else if inc.isEmpty then ⟨.inf true, 0, zeroVal⟩
  else
    let m := inc.foldl (fun m p => m.maximum p.2) (.inf true)
    ⟨m, 0, twineSum perB seg lo hi (leafOf (inc.map fun p => (p.1, expDiff p.2 m))) zeroVal⟩

/-- merge(): state and the factors. -/
def smxMerge (a c : RowState) : RowState × FVal × FVal :=
  if a.m.isNan || c.m.isNan then (⟨.nan, 0, .nan⟩, .nan, .nan)
  else
    let k := satU 32 (a.k + c.k)
    if k ≠ 0 then
      (⟨.inf false, k, .fin false k 0⟩, if a.k ≠ 0 then oneVal else zeroVal, if c.k ≠ 0 then oneVal else zeroVal)
    else
      let m := a.m.maximum c.m
      if m = .inf true then (⟨.inf true, 0, zeroVal⟩, zeroVal, zeroVal)
      else
        let fa := if a.m = .inf true then zeroVal else expDiff a.m m
        let fb := if c.m = .inf true then zeroVal else expDiff c.m m
        (⟨m, 0, rnd64 ((fa.mul a.s).add (fb.mul c.s))⟩, fa, fb)

/-- weight(). -/
def smxWeight (x : FVal) (excluded : Bool) (t : RowState) : FVal :=
  if t.m.isNan then .nan
  else if excluded then zeroVal
  else if t.k ≠ 0 then (if x = .inf false then oneVal else zeroVal)
  else if x = .inf true || t.m = .inf true then zeroVal
  else expDiff x t.m

/-- norm(), as a binary32 pattern. -/
def smxNorm (x : FVal) (excluded : Bool) (t : RowState) : Nat :=
  if t.m.isNan then f32.nanBits
  else if excluded then 0
  else if t.m = .inf true && t.k = 0 then 0
  else if t.k ≠ 0 then (if x = .inf false then f32.div oneVal (.fin false t.k 0) else 0)
  else f32.div (smxWeight x excluded t) t.s

/-- Is element `i` masked off? -/
def BlkState.maskedOff (x : BlkState) (w : Word) (i : Nat) : Bool := wMen w && !x.mbit (wMsk w) i

/-- The issue check on rows: SEG valid and at most 32 rows. -/
def smxCheck (w : Word) (vl : Nat) : Option Nat :=
  if !segOk (wBits w 22 19) || 32 < segCount vl (wBits w 22 19) then some VEC_FIELD_INVALID else none

/-- VSMX.STAT. -/
def execVsmxStat (b : Nat) (f : Bool) (w : Word) (s : State) : Out :=
  .next (s.vecReg b f w (bitMask 23 19) [0, 2] (fun s => smxCheck w (s.bst b).vl) true false fun _ x =>
    let t := wType w
    let seg := wBits w 22 19
    let rs := (List.range (segCount x.vl seg)).map fun r =>
      let bd := segBounds x.vl seg r
      let inc := (((List.range bd.2).drop bd.1).filter fun i => !x.maskedOff w i).filterMap fun i =>
        let v := typeVal t (x.velem (wSa w) (typeBytes t) i)
        if v = .inf true then none else some (i, v)
      let c := smxChunk (perBeat t) seg bd.1 bd.2 inc
      if wVs w then
        let old := x.rowState (wDst w) r
        let m := (smxMerge old c).1
        (m.pat, resultFlags [old.m, old.s, c.m, c.s] m.s)
      else (c.pat, false, false)
    ((x.setVelems (wDst w) 16 (rs.map (·.1))).raise flagNanMade (rs.any (·.2.1))).raise flagOverflow (rs.any (·.2.2)))

/-- VSMX.MERGE: vl is the number of rows. The flags are judged on what is given: the state's S, or the factor. -/
def execVsmxMerge (b : Nat) (f : Bool) (w : Word) (s : State) : Out :=
  let out := wBits w 23 22
  .next (s.vecReg b f w (bitMask 23 22) [0, 2]
    (fun s => if out = 3 || 32 < (s.bst b).vl then some VEC_FIELD_INVALID else none) true false fun _ x =>
    let ms := (List.range x.vl).map fun r =>
      let a := x.rowState (wDst w) r
      let c := x.rowState (wSa w) r
      (smxMerge a c, [a.m, a.s, c.m, c.s])
    let x1 := if out = 0 then x.setVelems (wDst w) 16 (ms.map fun m => m.1.1.pat)
      else x.setVelems (wDst w) 4 (ms.map fun m => f32.encode (if out = 1 then m.1.2.1 else m.1.2.2))
    let given := fun (m : RowState × FVal × FVal) => if out = 0 then m.1.s else if out = 1 then m.2.1 else m.2.2
    let fl := ms.map fun m => resultFlags m.2 (given m.1)
    (x1.raise flagNanMade (fl.any (·.1))).raise flagOverflow (fl.any (·.2)))

/-- The outputs of VSMX.WGT and VSMX.NORM: every element of a row within vl is written. -/
def BlkState.smxOut (x : BlkState) (w : Word) (norm : Bool) : BlkState :=
  let t := wType w
  let k := typeFmt t
  let seg := wBits w 22 19
  let rs := (List.range (segCount x.vl seg)).flatMap fun r =>
    let bd := segBounds x.vl seg r
    let st := x.rowState (wSb w) r
    ((List.range bd.2).drop bd.1).map fun i =>
      let v := typeVal t (x.velem (wSa w) (typeBytes t) i)
      let ex := x.maskedOff w i || v == .inf true
      let y := if norm then k.encode (f32.decode (smxNorm v ex st)) else k.encode (smxWeight v ex st)
      let fl := resultFlags [v, st.m, st.s] (k.decode y)
      (y, fl.1 && !ex, fl.2, st.m == .inf true && st.k == 0, st.k != 0, st.k != 0 && !st.m.isNan && v == .inf false && !ex)
  let x1 := ((x.setVelems (wDst w) (typeBytes t) (rs.map (·.1))).raise flagNanMade (rs.any (·.2.1))).raise flagOverflow
    (rs.any (·.2.2.1))
  if norm then
    let x1 := (x1.raise flagEmptyRow (rs.any (·.2.2.2.1))).raise flagInfRow (rs.any (·.2.2.2.2.1))
    if bitOf w.toNat 18 then
      let hot := (List.range 32).map fun g => (rs.drop (32 * g)).take 32 |>.any (·.2.2.2.2.2)
      x1.writeMask (wBits w 17 15) (fun i => decide (i < x.vl)) fun i =>
        (match rs[i]? with | some r => r.2.2.2.1 | none => false) || hot.getD (i / 32) false
    else x1
  else x1

/-- VSMX.WGT. -/
def execVsmxWgt (b : Nat) (f : Bool) (w : Word) (s : State) : Out :=
  .next (s.vecReg b f w (bitMask 22 19) [0, 2] (fun s => smxCheck w (s.bst b).vl) true false fun _ x => x.smxOut w false)

/-- VSMX.NORM. -/
def execVsmxNorm (b : Nat) (f : Bool) (w : Word) (s : State) : Out :=
  .next (s.vecReg b f w (bitMask 22 15) [0, 2] (fun s => smxCheck w (s.bst b).vl) true false fun _ x => x.smxOut w true)

end Sys2Proof.Machine
end

