-- ==== Sys2Proof/Machine/Plait.lean ====
section
/-!
DEFINITION. The plait engine's parts (R356 to R382): its reads and writes of context memory, descriptors, what an operation
expects, sends and holds, the fixed reduction, statistics records, and the end of an operation.
-/

namespace Sys2Proof.Machine

/-! ### Reads and writes with poison (R252, R253, R368) -/

/-- Go on with the value of a memory access. -/
def Res.bind {α β : Type} (r : Res α × State) (g : α → State → Res β × State) : Res β × State :=
  match r with
  | (.ok a, s) => g a s
  | (.fault e, s) => (.fault e, s)
  | (.wait, s) => (.wait, s)

/-- Read a context's bytes with their poison. -/
def State.engRead (s : State) (c va n : Nat) : Res (List (Byte × Bool)) × State :=
  (pagePieces va n).foldl (fun r p => Res.bind r fun l s =>
    match s.placeOf c true p.1 .read with
    | .error e => (.fault e, s)
    | .ok pl => Res.bind ((s.cacheXl c p.1).placeReady c false false p.2 pl) fun _ s =>
      match s.placeRead 0 p.2 pl with
      | (.error e, s) => (.fault e, s)
      | (.ok d, s) => (.ok (l ++ d), s)) (.ok [], s)

/-- Write bytes with their poison. -/
def State.engWrite (s : State) (c va : Nat) (d : List (Byte × Bool)) : Res Unit × State :=
  (pagePieces va d.length).foldl (fun r p => Res.bind r fun _ s =>
    match s.placeOf c true p.1 .write with
    | .error e => (.fault e, s)
    | .ok pl => Res.bind ((s.cacheXl c p.1).placeReady c false true p.2 pl) fun _ s =>
      let piece := (d.drop (p.1 - va)).take p.2
      match pl with
      | .hbm a => match s.commitChecked a (piece.map (·.1)) (poisonedOffsets piece) true with
        | (true, s) => (.ok (), s)
        | (false, s) => (.fault HBM_WRITE_LOST, s)
      | .comp a => (.ok (), s.writeLines a piece)
      | .blk _ => (.ok (), s)) (.ok (), s)

/-- Cut a list into pieces of `k`. -/
def cutEvery {α : Type} (k : Nat) : Nat → List α → List (List α)
  | 0, _ => []
  | fuel + 1, l => if l.isEmpty || k = 0 then [] else l.take k :: cutEvery k fuel (l.drop k)

/-- `n` rounded up to a multiple of 8: a packet's LEN is one (R350). -/
def up8 (n : Nat) : Nat := ceilDiv n 8 * 8

/-! ### Descriptors (R357, R358) -/

/-- The descriptor that 128 bytes hold. -/
def descOf (l : List Byte) : Desc :=
  let g (o n : Nat) : Nat := leNat ((l.drop o).take n)
  { op := g 0 1, red := g 1 1, dtype := g 2 1, flags := g 3 1, hold := g 4 2, root := g 6 2, groupVa := g 8 8, sendVa := g 16 8,
    recvVa := g 24 8, countsVa := g 32 8, units := g 40 4, unitElems := g 44 4, deadline := g 48 8, stageVa := g 56 8,
    step := g 64 8, opid := g 72 4, bufid := g 76 4, versionVa := g 80 8, versionsVa := g 88 8, statsVa := g 96 8,
    tensor := g 104 4, statTag := g 108 2, mode := g 110 1, reservedZero := g 111 17 == 0 }

def Desc.carry (d : Desc) : Bool := bitOf d.flags 0
def Desc.correct (d : Desc) : Bool := bitOf d.flags 1
def Desc.stats (d : Desc) : Bool := bitOf d.flags 2
def Desc.holdTake (d : Desc) : Bool := bitOf d.flags 3
def Desc.holdCheck (d : Desc) : Bool := bitOf d.flags 4
def Desc.holdRelease (d : Desc) : Bool := bitOf d.flags 5
def Desc.acc64 (d : Desc) : Bool := bitOf d.flags 6
def Desc.timing (d : Desc) : Bool := bitOf d.flags 7
def Desc.reduces (d : Desc) : Bool := decide (d.op ≤ 1)
def Desc.anyHold (d : Desc) : Bool := d.holdTake || d.holdCheck || d.holdRelease
def Desc.isFloat (d : Desc) : Bool := decide (d.dtype < 4)

/-- The checks of R358 that the descriptor alone decides; a nonzero reserved byte, and counts for BROADCAST (R362), are among
them (DEDUCED, log entry 52). -/
def Desc.bad (d : Desc) : Bool :=
  decide (6 < d.op) || decide (3 < d.red) || decide (8 < d.dtype) || decide (1 < d.mode) || !d.reservedZero ||
    (d.red == 3 && d.isFloat) || (d.correct && (d.carry || d.red != 0)) || ((d.carry || d.stats) && !d.reduces) ||
    (d.anyHold && d.op != 2) || d.deadline == 0 ||
    d.sendVa % 256 != 0 || d.recvVa % 256 != 0 || d.stageVa % 256 != 0 || d.countsVa % 4 != 0 || d.versionsVa % 4 != 0 ||
    (d.mode == 1 && !d.reduces) || (d.op == 4 && d.countsVa != 0)

/-! ### Groups and counts (R361, R362) -/

/-- The entries of a group table's bytes after its header: fabric address, tag and whether the reserved bits are 0. -/
def groupEntries (l : List Byte) : List (Nat × Nat × Bool) :=
  (cutEvery 8 (l.length / 8) l).map fun e => (leNat e % 65536, leNat e / 65536 % 2 ^ 20, leNat e / 2 ^ 36 == 0)

/-- The counts of the units placed over `n` ranks. -/
def unitCounts (n units elems : Nat) : List Nat :=
  (List.range n).map fun i => (units / Nat.max 1 n + b2n (decide (i < units % Nat.max 1 n))) * elems

/-- The counts that a descriptor without a count table gives; for ALL_TO_ALL every rank sends this rank's count to it. -/
def Desc.placedCounts (d : Desc) (n my : Nat) : List Nat :=
  let l := unitCounts n d.units d.unitElems
  if d.op = 3 then l ++ List.replicate n (l.getD my 0) else l

/-! ### What an operation expects (R363, R365, R371, R375) -/

/-- Bytes of an element. -/
def PlaitOp.eb (o : PlaitOp) : Nat := dtypeBytes o.desc.dtype

/-- Offset of rank `i`'s segment, in elements. -/
def PlaitOp.offset (o : PlaitOp) (i : Nat) : Nat := sumNat ((List.range i).map o.count)

/-- Send count and its offset in ALL_TO_ALL. -/
def PlaitOp.sendCount (o : PlaitOp) (i : Nat) : Nat := o.counts.getD i 0
def PlaitOp.sendOffset (o : PlaitOp) (i : Nat) : Nat := sumNat ((List.range i).map o.sendCount)

/-- The ranks before and after this one in the ring. -/
def PlaitOp.pred (o : PlaitOp) : Nat := (o.myRank + o.n - 1) % Nat.max 1 o.n
def PlaitOp.succ (o : PlaitOp) : Nat := (o.myRank + 1) % Nat.max 1 o.n

/-- Origin of the block that RING_PASS receives (DEDUCED, log entry 56). -/
def PlaitOp.ringOrigin (o : PlaitOp) : Nat := (o.desc.root + o.n - 1) % Nat.max 1 o.n

/-- Elements that this rank reduces. -/
def PlaitOp.segElems (o : PlaitOp) : Nat := if o.owner then o.count o.myRank else o.total

/-- Bytes expected from rank `r`, this rank's own contribution included. -/
def PlaitOp.expBytes (o : PlaitOp) (r : Nat) : Nat :=
  match o.desc.op with
  | 0 | 1 => if r < o.n then o.segElems * o.eb else 0
  | 2 | 3 => o.count r * o.eb
  | 4 => if r = o.desc.root then o.recvElems * o.eb else 0
  | 5 => if r = o.pred then o.recvElems * o.eb else 0
  | _ => 0

/-- Does the operation exchange shard versions (R376, R377)? (DEDUCED, log entry 55). -/
def PlaitOp.versioned (o : PlaitOp) : Bool := o.desc.holdTake || o.desc.holdCheck

/-- Has rank `r`'s contribution arrived on time? -/
def PlaitOp.arrived (o : PlaitOp) (r : Nat) : Bool :=
  decide (up8 (o.expBytes r) ≤ SMap.get (fun _ => 0) o.got r) && (!o.versioned || SMap.get (fun _ => false) o.versions r)

/-- The ranks whose contributions are expected and have not all arrived on time. -/
def PlaitOp.missing (o : PlaitOp) : List Nat :=
  positions o.n fun r => (o.expBytes r != 0 || o.versioned) && !o.arrived r

/-- Where rank `r`'s data goes. -/
def PlaitOp.place (o : PlaitOp) (r : Nat) : Nat :=
  match o.desc.op with
  | 0 | 1 => o.desc.stageVa + r * (o.segElems * o.eb)
  | 2 | 3 => o.desc.recvVa + o.offset r * o.eb
  | _ => o.desc.recvVa

/-- Bytes that SEND holds. -/
def PlaitOp.sendBytes (o : PlaitOp) : Nat :=
  match o.desc.op with
  | 0 | 1 => o.total * o.eb
  | 2 | 5 => o.count o.myRank * o.eb
  | 3 => sumNat ((List.range o.n).map o.sendCount) * o.eb
  | 4 => if o.desc.root = o.myRank then o.total * o.eb else 0
  | _ => 0

/-- The part of SEND that goes to rank `r`, this rank included: start and length in bytes. -/
def PlaitOp.sendPart (o : PlaitOp) (r : Nat) : Nat × Nat :=
  match o.desc.op with
  | 0 | 1 => if o.owner then (o.offset r * o.eb, o.count r * o.eb) else (0, o.total * o.eb)
  | 2 => (0, o.sendBytes)
  | 3 => (o.sendOffset r * o.eb, o.sendCount r * o.eb)
  | 4 => (0, o.sendBytes)
  | 5 => (0, if r = o.succ then o.sendBytes else 0)
  | _ => (0, 0)

/-- The peer ranks to which the operation sends or from which it expects packets (R381). -/
def PlaitOp.peers (o : PlaitOp) : List Nat :=
  (positions o.n fun r => match o.desc.op with
    | 0 | 1 => if o.owner then o.count r != 0 || o.count o.myRank != 0 else o.total != 0
    | 2 => o.count r != 0 || o.count o.myRank != 0 || o.versioned
    | 3 => o.count r != 0 || o.sendCount r != 0
    | 4 => if o.desc.root = o.myRank then o.total != 0 else r == o.desc.root && o.recvElems != 0
    | 5 => (r == o.pred && o.recvElems != 0) || (r == o.succ && o.count o.myRank != 0)
    | _ => r == o.desc.root).filter fun r => r != o.myRank

/-- Owners of nonempty segments. -/
def PlaitOp.owners (o : PlaitOp) : List Nat := positions o.n fun r => o.count r != 0

/-! ### The reduction (R366, R367, R373) -/

/-- The accumulation type of a floating operation. -/
def Desc.accFmt (d : Desc) : Fmt := if d.acc64 || d.dtype = 3 then f64 else f32

/-- A leaf's bit pattern widened to the accumulation type; an integer to 64 bits. -/
def Desc.leaf (d : Desc) (raw : Nat) : Nat :=
  if d.isFloat then d.accFmt.encode ((typeFmt d.dtype).decode raw)
  else if d.dtype ≤ 6 then wrap 64 (signed (8 * dtypeBytes d.dtype) raw) else raw

/-- A reduction of two floating values, exactly. -/
def Desc.reduceF (d : Desc) (a b : FVal) : FVal :=
  if d.red = 0 then a.add b else if d.red = 1 then a.maximum b else a.minimum b

/-- One step of the tree. -/
def Desc.combine (d : Desc) (x y : Nat) : Nat :=
  if d.isFloat then d.accFmt.encode (d.reduceF (d.accFmt.decode x) (d.accFmt.decode y))
  else match d.red with
    | 0 => (x + y) % 2 ^ 64
    | 1 => if (if d.dtype ≤ 6 then decide (signed 64 x < signed 64 y) else decide (x < y)) then y else x
    | 2 => if (if d.dtype ≤ 6 then decide (signed 64 y < signed 64 x) else decide (y < x)) then y else x
    | _ => x ^^^ y

/-- One level of the tree over leaves that may be absent. -/
def Desc.treeLevel (d : Desc) : List (Option Nat) → List (Option Nat)
  | some x :: some y :: l => some (d.combine x y) :: d.treeLevel l
  | none :: some y :: l => some y :: d.treeLevel l
  | x :: none :: l => x :: d.treeLevel l
  | [x] => [x]
  | [] => []

/-- The root of the tree. -/
def Desc.tree (d : Desc) : Nat → List (Option Nat) → Option Nat
  | 0, l => l.headD none
  | fuel + 1, l => if l.length ≤ 1 then l.headD none else d.tree fuel (d.treeLevel l)

/-- The root rounded once to DTYPE. -/
def Desc.finish (d : Desc) (x : Nat) : Nat :=
  if d.isFloat then (typeFmt d.dtype).encode (d.accFmt.decode x) else x % 2 ^ (8 * dtypeBytes d.dtype)

/-- The integer nearest a value, ties to even; a special value gives 0 (DEDUCED, log entry 58). -/
def nearestInt : FVal → Int
  | .fin neg m e =>
    let v : Nat :=
      if 0 ≤ e then m * 2 ^ e.toNat
      else
        let q := 2 ^ (-e).toNat
        if q < 2 * (m % q) || (2 * (m % q) = q && m / q % 2 = 1) then m / q + 1 else m / q
    if neg then -(v : Int) else v
  | _ => 0

/-- The value of a root, and a root as an integer of 64 bits. -/
def Desc.rootF (d : Desc) (x : Nat) : FVal :=
  if d.isFloat then d.accFmt.decode x else if d.dtype ≤ 6 then FVal.ofInt 64 x else .fin false x 0
def Desc.rootI (d : Desc) (x : Nat) : Nat := if d.isFloat then wrap 64 (nearestInt (d.accFmt.decode x)) else x

/-- The factor of the correction, N/(N − m) rounded to binary64 (R373). -/
def correction (n m : Nat) : FVal := f64.decode (f64.div (.fin false n 0) (.fin false (n - m) 0))

/-- Reduce a root that may be absent with others. -/
def foldRoots {α : Type} (g : α → α → α) (x : Option α) (l : List α) : Option α :=
  match x, l with
  | some v, l => some (l.foldl g v)
  | none, v :: l => some (l.foldl g v)
  | none, [] => none

/-- An element's result: its root, times the correction where one is due, with the roots of the carried trees by RED, rounded once to
DTYPE; none where no contribution is present (R207, R367, R373) (DEDUCED, log entry 58). -/
def Desc.close (d : Desc) (fac : Option FVal) (root : Option Nat) (carried : List (Desc × Nat)) : Option Nat :=
  if d.isFloat then
    let x := root.map fun v => match fac with
      | some k => (d.rootF v).mul k
      | none => d.rootF v
    (foldRoots d.reduceF x (carried.map fun c => c.1.rootF c.2)).map (typeFmt d.dtype).encode
  else
    let x := root.map fun v => match fac with
      | some k => wrap 64 (nearestInt ((d.rootF v).mul k))
      | none => v
    (foldRoots d.combine x (carried.map fun c => c.1.rootI c.2)).map d.finish

/-! ### Statistics (R378, R379) -/

/-- The widened value of an element and its square, for a squared norm. -/
def statLeaf (t raw : Nat) : FVal :=
  let v : FVal := if t ≤ 6 then widen t raw else rnd64 (.fin false raw 0)
  if t = 3 || t = 5 || t = 6 || t = 8 then rnd64 (v.mul v) else v.mul v

/-- The squared norm of elements, formed as twine SUMSQ with SEG = 0, as a binary64 pattern. -/
def squaredNorm (t : Nat) (l : List Nat) : Nat :=
  f64.encode (twineSum (1024 / dtypeBytes t) 0 0 l.length (fun i => statLeaf t (l.getD i 0)) (.fin false 0 0))

/-- Post a statistics record of an operation: kind 0 LOCAL, 1 REDUCED. -/
def State.postStat (s : State) (o : PlaitOp) (kind norm : Nat) : Res Unit × State :=
  Res.bind (s.vread o.ctx o.desc.statsVa 8 .read) fun l s =>
    let v := leNat l
    let size := bits v 4 0
    if size = 0 then (.ok (), s)
    else
      let rec_ := leBytes o.desc.step 8 ++ leBytes o.desc.tensor 4 ++ leBytes o.desc.statTag 2 ++ [BitVec.ofNat 8 kind, 0] ++
        leBytes norm 8 ++ leBytes s.now 8
      Res.bind (s.vwrite o.ctx (o.desc.statsVa + 32 + 32 * (bits v 63 32 % 2 ^ size)) rec_) fun _ s =>
        s.vwrite o.ctx o.desc.statsVa (leBytes (withBits v 63 32 (bits v 63 32 + 1)) 8)

/-- The bit patterns of the elements in a list of bytes. -/
def PlaitOp.elems (o : PlaitOp) (d : List (Byte × Bool)) : List (Nat × Bool) :=
  (cutEvery o.eb d.length d).map fun e => (leNat (e.map (·.1)), e.any (·.2))

/-! ### Packets -/

/-- The packets that carry data to rank `r` (R350): pieces of 256 bytes, the last padded to a multiple of 8 (DESIGN CHOICE, log entry 18). -/
def State.formPkts (s : State) (o : PlaitOp) (ptype r aux : Nat) (d : List (Byte × Bool)) : List Pkt :=
  let g := o.group.getD r (0, 0)
  (cutEvery 256 (d.length + 1) d).zipIdx.map fun (x, i) =>
    let raw := x.map (·.1)
    ⟨ptype, s.hopLimit, g.1, s.fld RPT_GLOBAL_SELF, g.2, x.any (·.2), o.desc.opid, s.now, i, aux,
      raw ++ List.replicate (up8 raw.length - raw.length) (Config.plaitPad o.desc.opid i)⟩

/-- A short packet to rank `r` (R351). -/
def State.shortPkt (s : State) (o : PlaitOp) (ptype r data : Nat) : Pkt :=
  let g := o.group.getD r (0, 0)
  ⟨ptype, s.hopLimit, g.1, s.fld RPT_GLOBAL_SELF, g.2, false, o.desc.opid, s.now, 0, o.myRank, leBytes data 8⟩

/-- Send packets of an operation in order, up to the first that its partition denies (DEDUCED, log entry 54). -/
def State.sendAll (s : State) (tag : Nat) (l : List Pkt) : Res Unit × State :=
  l.foldl (fun r pk => Res.bind r fun _ s =>
    match s.sendPkt (some tag) pk with
    | some s => (.ok (), s)
    | none => (.fault PLT_PORT_DENIED, s)) (.ok (), s)

/-! ### Tracker and carry table (R373, R381) -/

/-- Carried contributions in the table. -/
def State.carryUsed (s : State) : Nat := sumNat (s.carries.map fun c => c.ranks.length)

/-- Is an operation with this tag and OPID in its slot? -/
def State.inFlight (s : State) (tag opid : Nat) : Bool :=
  match s.plaitSlot (opid % 4096) with
  | some o => o.tag == tag && o.desc.opid == opid
  | none => false

/-- Tracker entries in use. -/
def State.trackerUsed (s : State) : Nat :=
  sumNat (s.plait.map fun (_, o) => match o with | some o => o.tracker | none => 0) +
    sumNat ((s.carries.filter fun c => !s.inFlight c.op.tag c.op.desc.opid).map fun c => c.ranks.length)

/-! ### The end of an operation (R359, R360, R374, R377) -/

/-- What the operation reports: the union of the decisions it holds, and the owners whose SUMMARY it lacks (DEDUCED, log entry 55). -/
def PlaitOp.report (o : PlaitOp) : Summary :=
  let ds := o.summaries.filterMap (·.2)
  let lack := if o.owner then o.owners.filter fun r => (SMap.get (fun _ => none) o.summaries r).isNone else []
  { missed := Nat.max (ds.foldl (fun m d => Nat.max m d.missed) 0) (b2n (!lack.isEmpty))
    lowMissing := Nat.min (ds.foldl (fun m d => Nat.min m d.lowMissing) 0xFFFF) (lack.headD 0xFFFF)
    carried := ds.any (·.carried)
    corrected := ds.any (·.corrected)
    poison := o.poisoned || ds.any (·.poison) }

/-- The upper half of the completion word (R360) (DEDUCED, log entry 53). -/
def plaitDetail (d : Summary) : Nat :=
  d.lowMissing % 65536 + b2n d.corrected * 2 ^ 16 + b2n d.carried * 2 ^ 17 + Nat.min d.missed 16383 * 2 ^ 18

/-- Complete a ticket of the plait class. -/
def State.plaitTicket (s : State) (blk tag idx : Nat) (f : Bool) (ticket detail code : Nat) : State :=
  let s := if code = 0 then s else s.lastCode PLT_STATUS_LAST_CODE code
  s.completeOp blk tag idx f ticket unitPlait detail code

/-- Complete the fences that no longer wait for anything (DEDUCED, log entry 53). -/
def State.endFences (s : State) : State :=
  let done := s.fences.filter fun x => x.waits.isEmpty
  ({ s with fences := s.fences.filter fun x => !x.waits.isEmpty } : State).forEach done fun s x =>
    s.plaitTicket x.blk x.tag x.idx x.f x.ticket 0 0

/-- Release a gather hold that belongs to context `c`. -/
def State.releaseHold (s : State) (c h : Nat) : State :=
  let key := holdKey (s.ctxOf c).part h
  if SMap.get (fun _ => none) s.holds key = some c then { s with holds := SMap.set (fun _ => none) s.holds key none } else s

/-- The key of an operation that the context of a tag has accepted. -/
def opKey (tag opid : Nat) : Nat := tag * 2 ^ 32 + opid

/-- The operation in a slot completes with a fault's code, or with 0 and what it reports. -/
def State.endOp (s : State) (slot code : Nat) : State :=
  match s.plaitSlot slot with
  | none => s
  | some o =>
    let d := o.report
    let d := if o.desc.op = 5 then { d with lowMissing := o.ringOrigin } else d
    let late := decide (0 < d.missed) || d.carried
    let code := if code ≠ 0 then code else if late then PLT_STRAGGLER else if d.poison then PLT_POISON_CARRIED else 0
    let s := s.setPlaitSlot slot none
    let s : State := { s with plaitDone := SMap.set (fun _ => false) s.plaitDone (opKey o.tag o.desc.opid) true,
                              fences := s.fences.map fun x => { x with waits := x.waits.filter (· != slot) } }
    let s := if o.desc.holdRelease then s.releaseHold o.ctx o.desc.hold else s
    let s := s.count PLT_COUNT0_OPS_DONE 1
    let s := if code = PLT_STRAGGLER then ({ s with overruns := s.overruns + 1 } : State).count PLT_COUNT0_STRAGGLER 1 else s
    let s := s.plaitTicket o.blk o.tag (s.homeIndex o.ctx o.blk) o.f o.ticket (plaitDetail d) code
    let s := if late then
        (s.lastCode PLT_STATUS_LAST_CODE PLT_OUTSIDE_REF).post
          ⟨some o.tag, PLT_OUTSIDE_REF, 0x0600, o.desc.opid + Nat.min d.missed 65535 * 2 ^ 32 + d.lowMissing % 65536 * 2 ^ 48, o.desc.step⟩
      else s
    let s := if o.desc.timing then
        s.sendFm 0x20 (leBytes o.desc.opid 4 ++ leBytes 0 4 ++ leBytes o.desc.step 8 ++ leBytes o.acceptedAt 8 ++
          leBytes o.lastArrival 8 ++ leBytes (Nat.min d.missed 65535) 2 ++ leBytes o.myRank 2 ++ leBytes o.tag 4)
      else s
    let s := s.endFences
    if s.rplServes o.ctx rplReplay then s.rplFinish else s

/-- Do something with the operation in a slot: a fault completes it with the code. -/
def State.onOp (s : State) (slot : Nat) (r : Res Unit × State) : Res Unit × State :=
  match r with
  | (.fault e, s') => (.ok (), s'.endOp slot e)
  | (.wait, s') => (.wait, s.onlyAsked s')
  | r => r

/-- Change the operation in a slot. -/
def State.modOp (s : State) (slot : Nat) (g : PlaitOp → PlaitOp) : State :=
  match s.plaitSlot slot with
  | some o => s.setPlaitSlot slot (some (g o))
  | none => s

/-- Does a replay of the recorder run an operation? -/
def State.opReplays (s : State) (o : PlaitOp) : Bool := s.rplServes o.ctx rplReplay

/-! ### Blocks that arrive in parts (R364, R372, R375) -/

/-- The bytes of a packet's data that its block of `n` bytes holds, with their poison. -/
def blockData (pk : Pkt) (n : Nat) : List (Byte × Bool) := (pk.data.take (n - 256 * pk.offset)).map fun x => (x, pk.poison)

/-- Where the block of a WRITE or RESULT packet goes, and its bytes. -/
def PlaitOp.block (o : PlaitOp) (pk : Pkt) : Nat × Nat :=
  let r := pk.aux % 65536
  if pk.ptype = ptResult then (o.desc.recvVa + o.offset r * o.eb, o.count r * o.eb) else (o.place r, o.expBytes r)

/-- Is a packet longer than what is left of its block (R364)? -/
def PlaitOp.tooLong (o : PlaitOp) (pk : Pkt) : Bool := decide (up8 (o.block pk).2 < 256 * pk.offset + pk.data.length)

/-- Write some of the packets that wait for their block. -/
def State.writeParts (s : State) (o : PlaitOp) (l : List Pkt) : Res Unit × State :=
  l.foldl (fun x q => Res.bind x fun _ s =>
    s.engWrite o.ctx ((o.block q).1 + 256 * q.offset) (blockData q (o.block q).2)) (.ok (), s)

/-- Has all of rank `r`'s RESULT come? -/
def PlaitOp.resultWhole (o : PlaitOp) (r : Nat) : Bool := decide (up8 (o.count r * o.eb) ≤ SMap.get (fun _ => 0) o.results r)

/-- Does a packet belong to a block of which all has come? -/
def PlaitOp.inWhole (o : PlaitOp) (q : Pkt) : Bool :=
  let r := q.aux % 65536
  if q.ptype = ptResult then o.resultWhole r else decide (up8 (o.expBytes r) ≤ SMap.get (fun _ => 0) o.got r)

/-- Write the blocks of a packet type of which all has come. They are written when their wait ends, so that a block that proves too long is
not written (R364) (DEDUCED, log entry 57). -/
def State.writeWhole (s : State) (o : PlaitOp) (ptype : Nat) : Res Unit × State :=
  s.writeParts o (o.parts.filter fun q => q.ptype == ptype && o.inWhole q)

/-! ### The end of the wait (R365, R371 to R373) -/

/-- Add to the carry table, as far as it has room, the contributions that an operation lacks; late packets of those that find no
room are dropped (DEDUCED, log entry 57). -/
def State.startCarry (s : State) (o : PlaitOp) : State :=
  if !o.desc.carry || o.missing.isEmpty then s
  else
    let room := 4096 - s.carryUsed
    let late (r : Nat) : Nat := SMap.get (fun _ => 0) o.late r
    let kept := (o.missing.take room).map fun r => (r, SMap.get (fun _ => 0) o.got r + late r, ceilDiv (late r) 256)
    let s := s.count PLT_COUNT1_LATE_DROP (sumNat ((o.missing.drop room).map fun r => ceilDiv (late r) 256))
    if kept.isEmpty then s else { s with carries := s.carries ++ [⟨o, kept⟩] }

/-- The carries that an operation resolves: those of its context and BUFID (DEDUCED, log entry 57). -/
def State.carriesFor (s : State) (o : PlaitOp) : List Carry :=
  s.carries.filter fun c => c.op.tag == o.tag && c.op.desc.bufid == o.desc.bufid && c.op.desc.opid != o.desc.opid

/-- The ranks of a carry whose contribution has all arrived. -/
def Carry.complete (c : Carry) : List Nat := (c.ranks.filter fun x => decide (up8 (c.op.expBytes x.1) ≤ x.2.1)).map (·.1)

/-- Read the leaves of some ranks from the staging area: one row of elements for each rank, none for an absent one. -/
def State.readLeaves (s : State) (o : PlaitOp) (present : List Nat) : Res (List (Option (List (Nat × Bool)))) × State :=
  (List.range o.n).foldl (fun r i => Res.bind r fun rows s =>
    if present.contains i then
      Res.bind (s.engRead o.ctx (o.place i) (o.segElems * o.eb)) fun d s => (.ok (rows ++ [some (o.elems d)]), s)
    else (.ok (rows ++ [none]), s)) (.ok [], s)

/-- The root of element `e`'s tree over rows of leaves, with the poison of the leaves that reach it. -/
def PlaitOp.root (o : PlaitOp) (rows : List (Option (List (Nat × Bool)))) (e : Nat) : Option Nat × Bool :=
  let col := rows.map fun r => match r with
    | some l => l[e]?
    | none => none
  (o.desc.tree (o.n + 1) (col.map fun x => x.map fun v => o.desc.leaf v.1), col.any fun x => match x with | some v => v.2 | none => false)

/-- The result of element `e` with its poison: none where no contribution is present. -/
def PlaitOp.result (o : PlaitOp) (m : Nat) (rows : List (Option (List (Nat × Bool))))
    (carried : List (PlaitOp × List (Option (List (Nat × Bool))))) (e : Nat) : Option (Nat × Bool) :=
  let r := o.root rows e
  let cs := carried.map fun (c, rows) => (c.desc, c.root rows e)
  let fac := if o.desc.correct && m ≠ 0 then some (correction o.n m) else none
  (o.desc.close fac r.1 (cs.filterMap fun (d, x) => x.1.map fun v => (d, v))).map fun v => (v, r.2 || cs.any fun (_, x) => x.2)

/-- Write results from an address on; an element without a result is left as it was. -/
def State.writeResults (s : State) (o : PlaitOp) (va : Nat) (l : List (Option (Nat × Bool))) : Res Unit × State :=
  let bytes (v : Nat × Bool) : List (Byte × Bool) := (leBytes v.1 o.eb).map fun x => (x, v.2)
  if l.all (·.isSome) then s.engWrite o.ctx va ((l.filterMap id).flatMap bytes)
  else l.zipIdx.foldl (fun r (x, i) => Res.bind r fun _ s =>
    match x with
    | some v => s.engWrite o.ctx (va + i * o.eb) (bytes v)
    | none => (.ok (), s)) (.ok (), s)

/-- Reduce this rank's elements into RECV, with the carries that the operation resolves: its decision. -/
def State.reduceOp (s : State) (o : PlaitOp) : Res Summary × State :=
  let miss := o.missing
  let cs := s.carriesFor o
  Res.bind (s.readLeaves o ((List.range o.n).filter fun r => !miss.contains r)) fun rows s =>
    let r := cs.foldl (fun r c => Res.bind r fun l s =>
      Res.bind (s.readLeaves c.op c.complete) fun rows s => (.ok (l ++ [(c.op, rows)]), s)) ((.ok [], s) : Res _ × State)
    Res.bind r fun carried s =>
      let out := (List.range o.segElems).map (o.result miss.length rows carried)
      let va := o.desc.recvVa + (if o.owner && o.desc.op = 0 then o.offset o.myRank * o.eb else 0)
      Res.bind (s.writeResults o va out) fun _ s =>
        let used := sumNat (cs.map fun c => c.complete.length)
        let lost := sumNat (cs.map fun c => sumNat ((c.ranks.filter fun x => !c.complete.contains x.1).map fun x => x.2.2))
        let s := (s.count PLT_COUNT0_CARRIED used).count PLT_COUNT1_LATE_DROP lost
        (.ok { missed := miss.length, lowMissing := miss.headD 0xFFFF, carried := decide (0 < used),
               corrected := o.desc.correct && decide (0 < miss.length) && decide (miss.length < o.n),
               poison := out.any fun x => match x with | some v => v.2 | none => false },
          { s with carries := s.carries.filter fun c => !cs.contains c })

/-- The bytes of a SUMMARY (R351). -/
def Summary.code (d : Summary) : Nat :=
  Nat.min d.missed 65535 + d.lowMissing % 65536 * 2 ^ 16 + b2n d.carried * 2 ^ 32 + b2n d.corrected * 2 ^ 33 + b2n d.poison * 2 ^ 34

/-- The decision that a SUMMARY's data holds. -/
def summaryOf (v : Nat) : Summary := ⟨bits v 15 0, bits v 31 16, bitOf v 32, bitOf v 33, bitOf v 34⟩

/-- Has an owner-mode operation all it waits for? -/
def PlaitOp.allSummaries (o : PlaitOp) : Bool :=
  o.owners.all fun r => (SMap.get (fun _ => none) o.summaries r).isSome && (o.desc.op != 0 || r == o.myRank || o.resultWhole r)

/-- Complete an owner-mode operation whose wait has ended and that holds every SUMMARY and RESULT. -/
def State.tryFinish (s : State) (slot : Nat) : Res Unit × State :=
  match s.plaitSlot slot with
  | some o =>
    if o.waitEnded && o.owner && o.allSummaries then
      s.onOp slot (Res.bind (s.writeWhole o ptResult) fun _ s => (.ok (), s.endOp slot 0))
    else (.ok (), s)
  | none => (.ok (), s)

/-- The owner's result and decision go to every other rank; the REDUCED record is posted. -/
def State.publish (s : State) (o : PlaitOp) (d : Summary) : Res Unit × State :=
  let va := o.desc.recvVa + (if o.desc.op = 0 then o.offset o.myRank * o.eb else 0)
  Res.bind (s.engRead o.ctx va (o.count o.myRank * o.eb)) fun l s =>
    Res.bind (if o.desc.stats && o.count o.myRank ≠ 0 then s.postStat o 1 (squaredNorm o.desc.dtype ((o.elems l).map (·.1)))
        else (.ok (), s)) fun _ s =>
      if o.owner then
        let others := (List.range o.n).filter (· != o.myRank)
        let results := if o.desc.op = 0 then others.flatMap fun r => s.formPkts o ptResult r o.myRank l else []
        s.sendAll o.tag (results ++ others.map fun r => s.shortPkt o ptSummary r d.code)
      else (.ok (), s)

/-- The wait for contributions ends (R371). -/
def State.endWait (s : State) (slot : Nat) : Res Unit × State :=
  match s.plaitSlot slot with
  | none => (.ok (), s)
  | some o =>
    let mode (s : State) : Res Unit × State := if o.owner then s.tryFinish slot else (.ok (), s.endOp slot 0)
    if !o.reduces then
      let d : Summary := ⟨b2n (!o.missing.isEmpty), o.missing.headD 0xFFFF, false, false, false⟩
      s.onOp slot (Res.bind (s.writeWhole o ptWrite) fun _ s =>
        (.ok (), (s.modOp slot fun o => { o with waitEnded := true, summaries := SMap.set (fun _ => none) o.summaries o.myRank (some d) }).endOp slot 0))
    else if o.segElems = 0 then mode (s.modOp slot fun o => { o with waitEnded := true })
    else
      -- under carry what has come of a contribution stays at its leaf
      let kept := if o.desc.carry then o.parts.filter fun q => q.ptype == ptWrite && !o.inWhole q else []
      s.onOp slot (Res.bind (s.writeWhole o ptWrite) fun _ s => Res.bind (s.reduceOp o) fun d s =>
        Res.bind (s.publish o d) fun _ s => Res.bind (s.writeParts o kept) fun _ s =>
          mode ((s.startCarry o).modOp slot fun o =>
            { o with waitEnded := true, parts := o.parts.filter fun q => q.ptype == ptResult,
                     summaries := SMap.set (fun _ => none) o.summaries o.myRank (some d) }))

/-- End the wait as soon as nothing is missing. -/
def State.settleOp (s : State) (slot : Nat) : Res Unit × State :=
  match s.plaitSlot slot with
  | some o => if o.desc.op ≠ 6 && !o.holdPending && !o.waitEnded && o.missing.isEmpty then s.endWait slot else (.ok (), s)
  | none => (.ok (), s)

/-- The DOORBELL packet of an operation has been sent: the operation completes (R380) (DEDUCED, log entry 59). -/
def State.doorbellSent (s : State) (pk : Pkt) : State :=
  if pk.ptype ≠ ptDoorbell then s
  else match s.plaitSlot (pk.opid % 4096) with
    | some o => if o.desc.op = 6 && o.desc.opid = pk.opid then s.endOp (pk.opid % 4096) 0 else s
    | none => s

/-! ### Versions (R376, R377) -/

/-- Rank `r`'s shard version has come: it is compared with the recorded one, and recorded (DEDUCED, log entry 55). -/
def State.takeVersion (s : State) (slot : Nat) (o : PlaitOp) (r v : Nat) : Res Unit × State :=
  let a := o.desc.versionsVa + 4 * r
  Res.bind (if o.desc.holdCheck then
      Res.bind (s.vread o.ctx a 4 .read) fun l s => if leNat l = v then (.ok (), s) else (.fault SHARD_VERSION, s)
    else (.ok (), s)) fun _ s =>
    Res.bind (if o.desc.holdTake then s.vwrite o.ctx a (leBytes v 4) else (.ok (), s)) fun _ s =>
      (.ok (), s.modOp slot fun o => { o with versions := SMap.set (fun _ => false) o.versions r true })

/-! ### What an operation contributes (R363, R376, R378) -/

/-- This rank's own contribution enters at its own place. -/
def State.ownPart (s : State) (slot : Nat) (o : PlaitOp) (send : List (Byte × Bool)) : Res Unit × State :=
  let my := o.myRank
  let part := o.sendPart my
  let d := (send.drop part.1).take part.2
  if o.desc.op = 5 || d.isEmpty then (.ok (), s)
  else if o.expBytes my < d.length then (.fault PLT_COUNT_MISMATCH, s)
  else if decide (o.acceptedAt < o.deadline) || s.opReplays o then
    Res.bind (s.engWrite o.ctx (o.place my) d) fun _ s =>
      (.ok (), s.modOp slot fun o =>
        { o with got := SMap.set (fun _ => 0) o.got my (up8 d.length), poisoned := o.poisoned || (!o.reduces && d.any (·.2)) })
  else if o.desc.carry then
    Res.bind (s.engWrite o.ctx (o.place my) d) fun _ s =>
      (.ok (), s.modOp slot fun o => { o with late := SMap.set (fun _ => 0) o.late my (up8 d.length) })
  else (.ok (), s)

/-- The data packets of an operation, by receiving rank (DEDUCED, log entry 54). -/
def State.dataPkts (s : State) (o : PlaitOp) (send : List (Byte × Bool)) : List Pkt :=
  ((List.range o.n).filter fun r => r != o.myRank || o.desc.op = 5).flatMap fun r =>
    let part := o.sendPart r
    s.formPkts o ptWrite r (o.myRank + (if o.desc.op = 5 then o.desc.root * 65536 else 0)) ((send.drop part.1).take part.2)

/-- The operation takes its hold where it is to, reads SEND, posts its LOCAL record, places its own contribution and sends (DEDUCED, log entry 54). -/
def State.contribute (s : State) (slot : Nat) : Res Unit × State :=
  match s.plaitSlot slot with
  | none => (.ok (), s)
  | some o =>
    let key := holdKey (s.ctxOf o.ctx).part o.desc.hold
    s.onOp slot (
      if o.desc.holdTake && !(SMap.get (fun _ => none) s.holds key == none || SMap.get (fun _ => none) s.holds key == some o.ctx) then
        (.fault PLT_HOLD_INVALID, s)
      else
        let s := if o.desc.holdTake then ({ s with holds := SMap.set (fun _ => none) s.holds key (some o.ctx) } : State) else s
        let s := s.modOp slot fun o => { o with holdPending := false }
        Res.bind (s.engRead o.ctx o.desc.sendVa o.sendBytes) fun send s =>
          Res.bind (if o.desc.stats then s.postStat o 0 (squaredNorm o.desc.dtype ((o.elems send).map (·.1))) else (.ok (), s)) fun _ s =>
            Res.bind (s.ownPart slot o send) fun _ s =>
              Res.bind (if o.versioned then s.vread o.ctx o.desc.versionVa 4 .read else (.ok [], s)) fun v s =>
                Res.bind (if o.versioned && (decide (o.acceptedAt < o.deadline) || s.opReplays o) then s.takeVersion slot o o.myRank (leNat v)
                    else (.ok (), s)) fun _ s =>
                  let vs := if o.versioned then
                      ((List.range o.n).filter (· != o.myRank)).map fun r => s.shortPkt o ptVersion r (leNat v)
                    else []
                  s.sendAll o.tag (vs ++ s.dataPkts o send))

end Sys2Proof.Machine
end

