-- ==== Sys2Proof/Machine/PlaitEngine.lean ====
section
/-!
DEFINITION. The plait engine's commands: issue (R356), acceptance (R357 to R361, R381), arriving packets and the early buffer
(R353, R354, R364, R371 to R377, R380), the two time limits of an operation (R371), the release of a gather hold, and the
replay of recorded packets (R407, R408).
-/

namespace Sys2Proof.Machine

/-! ### Issue (R356) -/

/-- The fields of a plait word that are RSV: all but SA and TICKET. -/
def plaitRsv (w : Word) (usesSa : Bool) : Bool := wDst w != 0 || wSb w != 0 || wBits w 31 0 != 0 || (!usesSa && wSa w != 0)

/-- The entries of a block's plait queue that are not of an old tag. -/
def State.plaitQueue (s : State) (b : Nat) : List PlaitIssue := (s.blk b).pq.filter fun e => s.tagCurrent e.tag

/-- Issue an instruction of the plait class: `act` is what it does once it has its ticket. -/
def State.issuePlait (s : State) (b : Nat) (f : Bool) (w : Word) (usesSa : Bool) (act : State → State) : State :=
  s.issueAsync b f w (wTicket w) unitPlait (fun s => decide (8 ≤ (s.plaitQueue b).length)) fun _ =>
    if plaitRsv w usesSa then .error PLT_DESC_INVALID else .ok act

/-- Put an entry into the plait queue. -/
def State.enqueuePlait (s : State) (b : Nat) (f : Bool) (w : Word) (fence : Bool) : State :=
  match (s.blk b).ctx with
  | none => s
  | some c =>
    s.modBlk b fun x => { x with pq := (x.pq.filter fun e => s.tagCurrent e.tag) ++
      [⟨fence, f, wTicket w, s.sreg b f (wSa w), s.tagOf c, s.homeIndex c b⟩] }

def execPlait (b : Nat) (f : Bool) (w : Word) (s : State) : Out :=
  .next (s.issuePlait b f w true fun s => s.enqueuePlait b f w false)

def execPlaitFence (b : Nat) (f : Bool) (w : Word) (s : State) : Out :=
  .next (s.issuePlait b f w false fun s => s.enqueuePlait b f w true)

/-- PLAIT.HREL releases a hold at once (R377) (DEDUCED, log entry 53). -/
def execPlaitHrel (b : Nat) (f : Bool) (w : Word) (s : State) : Out :=
  .next (s.issuePlait b f w true fun s =>
    match (s.blk b).ctx with
    | none => s
    | some c =>
      let h := (s.sreg b f (wSa w)).toNat
      let own := SMap.get (fun _ => none) s.holds (holdKey (s.ctxOf c).part h)
      if 1023 < h || (own.isSome && own != some c) then s.plaitTicket b (s.tagOf c) (s.homeIndex c b) f (wTicket w) 0 PLT_HOLD_INVALID
      else (s.releaseHold c h).plaitTicket b (s.tagOf c) (s.homeIndex c b) f (wTicket w) 0 0)

/-! ### Arrivals at an operation (R364, R371 to R376) -/

/-- Has a packet that arrived at `t` come on time? One that arrives in the clk in which the wait ends is late (R371, R382) (DEDUCED, log entry 57). -/
def State.onTime (s : State) (o : PlaitOp) (pk : Pkt) (t : Nat) : Bool :=
  decide (pk.stamp < o.deadline) && decide (t < o.deadline + s.fld PLT_CTRL_GRACE_NS) && !o.waitEnded

/-- A WRITE packet for an operation in its slot. -/
def State.opWrite (s : State) (slot : Nat) (o : PlaitOp) (pk : Pkt) (t : Nat) : Res Unit × State :=
  let r := pk.aux % 65536
  let n := o.expBytes r
  let keeps := o.desc.carry && o.reduces && !o.waitEnded
  if !s.onTime o pk t && !keeps then (.ok (), s.count PLT_COUNT1_LATE_DROP 1)
  else if (r = o.myRank && !(o.desc.op = 5 && o.n = 1)) || o.tooLong pk then (.fault PLT_COUNT_MISMATCH, s)
  else
    let len := pk.data.length
    if !s.onTime o pk t then
      Res.bind (s.engWrite o.ctx (o.place r + 256 * pk.offset) (blockData pk n)) fun _ s =>
        (.ok (), s.modOp slot fun o => { o with late := SMap.modify (fun _ => 0) o.late r (· + len) })
    else
      (.ok (), s.modOp slot fun o => { o with parts := o.parts ++ [pk], got := SMap.modify (fun _ => 0) o.got r (· + len),
                                              lastArrival := Nat.max o.lastArrival t,
                                              poisoned := o.poisoned || (pk.poison && !o.reduces) })

/-- A RESULT packet: its owner's segment is written when the operation completes (R364, R365, R372). -/
def State.opResult (s : State) (slot : Nat) (o : PlaitOp) (pk : Pkt) : Res Unit × State :=
  let r := pk.aux % 65536
  if !o.owner || o.desc.op ≠ 0 || r = o.myRank then (.ok (), s)
  else if o.tooLong pk then (.fault PLT_COUNT_MISMATCH, s)
  else
    (.ok (), s.modOp slot fun o => { o with parts := o.parts ++ [pk], poisoned := o.poisoned || pk.poison,
                                            results := SMap.modify (fun _ => 0) o.results r (· + pk.data.length) })

/-- A SUMMARY packet: an owner's decision. -/
def State.opSummary (s : State) (slot : Nat) (o : PlaitOp) (pk : Pkt) : Res Unit × State :=
  let r := pk.aux % 65536
  if !o.owner || r = o.myRank || o.n ≤ r then (.ok (), s)
  else (.ok (), s.modOp slot fun o => { o with summaries := SMap.set (fun _ => none) o.summaries r (some (summaryOf (leNat pk.data))) })

/-- A VERSION packet (R376, R377). -/
def State.opVersion (s : State) (slot : Nat) (o : PlaitOp) (pk : Pkt) (t : Nat) : Res Unit × State :=
  let r := pk.aux % 65536
  if !o.versioned || o.n ≤ r || r = o.myRank then (.ok (), s)
  else if !s.onTime o pk t then (.ok (), s.count PLT_COUNT1_LATE_DROP 1)
  else
    Res.bind (s.takeVersion slot o r (leNat pk.data % 2 ^ 32)) fun _ s =>
      (.ok (), s.modOp slot fun o => { o with lastArrival := Nat.max o.lastArrival t })

/-- A packet that arrived at `t` acts on the operation in a slot, which may end its wait or complete. -/
def State.opPacket (s : State) (slot : Nat) (pk : Pkt) (t : Nat) : Res Unit × State :=
  match s.plaitSlot slot with
  | none => (.ok (), s)
  | some o =>
    Res.bind (s.onOp slot (
      if pk.ptype = ptWrite then s.opWrite slot o pk t
      else if pk.ptype = ptResult then s.opResult slot o pk
      else if pk.ptype = ptSummary then s.opSummary slot o pk
      else if pk.ptype = ptVersion then s.opVersion slot o pk t
      else (.ok (), s))) fun _ s =>
      Res.bind (s.settleOp slot) fun _ s => s.tryFinish slot

/-! ### Carried contributions (R373) -/

/-- The carry that a late WRITE packet belongs to. -/
def State.carryOf (s : State) (pk : Pkt) : Option Carry :=
  s.carries.find? fun c => c.op.tag == pk.tag % 2 ^ 20 && c.op.desc.opid == pk.opid && c.ranks.any fun x => x.1 == pk.aux % 65536

/-- Has the next operation of a carry's context and BUFID reached its deadline? -/
def State.carryOver (s : State) (c : Carry) (t : Nat) : Bool :=
  s.plait.any fun (_, o) => match o with
    | some o => o.tag == c.op.tag && o.desc.bufid == c.op.desc.bufid && o.desc.opid != c.op.desc.opid && o.reduces && decide (o.deadline ≤ t)
    | none => false

/-- A late packet that carry keeps: it goes to its leaf of the staging area (DEDUCED, log entry 57). -/
def State.carryPacket (s : State) (c : Carry) (pk : Pkt) (t : Nat) : Res Unit × State :=
  let r := pk.aux % 65536
  let n := c.op.expBytes r
  let drop (s : State) : Res Unit × State := (.ok (), s.count PLT_COUNT1_LATE_DROP 1)
  if s.carryOver c t || up8 n < 256 * pk.offset + pk.data.length then drop s
  else match s.engWrite c.op.ctx (c.op.place r + 256 * pk.offset) (blockData pk n) with
    | (.fault _, s) => drop s
    | (.wait, s) => (.wait, s)
    | (.ok _, s) =>
      (.ok (), { s with carries := s.carries.map fun x =>
        if x = c then { x with ranks := x.ranks.map fun y => if y.1 = r then (r, y.2.1 + pk.data.length, y.2.2 + 1) else y } else x })

/-! ### Packets for the plait engine (R353, R354) -/

/-- Bytes of the early buffer in use, of 4 MiB. -/
def State.earlyUsed (s : State) : Nat := s.early.foldl (fun n e => n + pktBytes e.pk) 0

/-- A packet that no operation takes now waits in the early buffer, if it has room (R354). -/
def State.keepEarly (s : State) (pk : Pkt) (t : Nat) : Res Unit × State :=
  if s.earlyUsed + pktBytes pk ≤ 2 ^ 22 then (.ok (), { s with early := s.early ++ [⟨pk, t⟩] })
  else (.ok (), s.count PLT_COUNT1_EARLY_DROP 1)

/-- A packet of an operation: to its carry, its operation in flight, the operation that has completed (it is late), or the early
buffer. One whose OPID has bit 31 set matches no operation (R393). -/
def State.plaitPacket (s : State) (pk : Pkt) (t : Nat) : Res Unit × State :=
  let tag := pk.tag % 2 ^ 20
  let slot := pk.opid % 4096
  match (if pk.ptype = ptWrite then s.carryOf pk else none) with
  | some c => s.carryPacket c pk t
  | none =>
    if 2 ^ 31 ≤ pk.opid then s.keepEarly pk t
    else if s.inFlight tag pk.opid then s.opPacket slot pk t
    else if SMap.get (fun _ => false) s.plaitDone (opKey tag pk.opid) then (.ok (), s.count PLT_COUNT1_LATE_DROP 1)
    else s.keepEarly pk t

/-- Could a memory access be made, and the state after it? -/
def doneOf (r : Res Unit × State) : Bool × State :=
  match r with
  | (.wait, s) => (false, s)
  | (_, s) => (true, s)

/-- A packet of a type for the plait engine arrives: it acts at the end of the clk, after a teardown and a time limit of the same clk
(R382). -/
def State.plaitArrive (s : State) (k : Nat) (pk : Pkt) (ptype : Nat) : State :=
  if pk.ptype ≠ ptype || pktCoil pk || !((s.link k).ingress.any fun e => e.1 == pk) then s
  else s.modLink k fun l => { l with due := l.due ++ [pk] }

def execWritePacket (k : Nat) (pk : Pkt) (s : State) : Out := .next (s.whenOn fun s => s.plaitArrive k pk ptWrite)
def execResultPacket (k : Nat) (pk : Pkt) (s : State) : Out := .next (s.whenOn fun s => s.plaitArrive k pk ptResult)
def execSummaryPacket (k : Nat) (pk : Pkt) (s : State) : Out := .next (s.whenOn fun s => s.plaitArrive k pk ptSummary)
def execVersionPacket (k : Nat) (pk : Pkt) (s : State) : Out := .next (s.whenOn fun s => s.plaitArrive k pk ptVersion)

/-- A DOORBELL packet acts as a doorbell where its queue is bound to the context of its TAG (R380). -/
def execDoorbellPacket (k : Nat) (pk : Pkt) (s : State) : Out :=
  .next (if pk.ptype ≠ ptDoorbell then s else (s.arrive k pk fun s pk _ =>
    let v := leNat pk.data
    let q := bits v 14 0
    let tail := bits v 63 32
    let x := s.queueOf q
    (true,
      if x.st != .unbound && x.ctx == pk.tag / 256 % 4096 then s.doorbell q tail
      else (s.lastCode PLT_STATUS_LAST_CODE PLT_DOORBELL_DROP).post ⟨none, PLT_DOORBELL_DROP, 0x0600, q + tail * 2 ^ 32, pk.src⟩)).2)

/-- A packet that is due acts; one whose access must wait acts in a later clk. -/
def State.packetDue (s : State) (k : Nat) (pk : Pkt) : State :=
  match s.arrive k pk fun s pk t => doneOf (s.plaitPacket pk t) with
  | (true, s) => s.modLink k fun l => { l with due := l.due.erase pk }
  | (false, s) => s

/-- A packet has waited longer than EARLY_US in the early buffer. -/
def execEarlyTimeout (i : Nat) (s : State) : Out :=
  .next (s.whenOn fun s => match s.early[i]? with
    | none => s
    | some e =>
      if s.powered && decide (e.at_ + Nat.max 1 (s.fld PLT_CTRL_EARLY_US) * 1000 < s.now) then
        ({ s with early := s.early.eraseIdx i } : State).count PLT_COUNT1_EARLY_DROP 1
      else s)

/-! ### Acceptance (R357 to R361, R376, R381) -/

/-- The operation that a descriptor asks for, with its group and its counts read and checked (DEDUCED, log entry 52). -/
def State.readOp (s : State) (b c : Nat) (e : PlaitIssue) : Res PlaitOp × State :=
  if e.value.toNat % 64 ≠ 0 then (.fault PLT_DESC_INVALID, s)
  else Res.bind (s.vread c e.value.toNat 128 .read) fun l s =>
    let d := descOf l
    if d.bad then (.fault PLT_DESC_INVALID, s)
    else if d.anyHold && 1023 < d.hold then (.fault PLT_HOLD_INVALID, s)
    else Res.bind (s.vread c d.groupVa 16 .read) fun h s =>
      let n := leNat (h.take 2)
      let my := leNat ((h.drop 2).take 2)
      if n = 0 || n ≤ my || leNat (h.drop 4) ≠ 0 || ((d.op = 4 || d.op = 5 || d.op = 6) && n ≤ d.root) then (.fault PLT_DESC_INVALID, s)
      else Res.bind (s.vread c (d.groupVa + 16) (8 * n) .read) fun g s =>
        let es := groupEntries g
        let own := es.getD my (0, 0, false)
        if !(es.all fun x => x.2.2) || own.1 ≠ s.fld RPT_GLOBAL_SELF || own.2.1 ≠ e.tag then (.fault PLT_DESC_INVALID, s)
        else
          let words := if d.op = 6 then 0 else if d.countsVa = 0 then 0 else if d.op = 3 then 2 * n else n
          Res.bind (s.vread c d.countsVa (4 * words) .read) fun cs s =>
            let counts := if d.op = 6 then [] else if d.countsVa = 0 then d.placedCounts n my else (cutEvery 4 words cs).map leNat
            let o : PlaitOp :=
              { desc := d, ctx := c, tag := e.tag, blk := b, f := e.f, ticket := e.ticket, acceptedAt := s.now, deadline := d.deadline,
                myRank := my, group := es.map fun x => (x.1, x.2.1), counts := counts, owner := false,
                holdPending := d.holdTake, got := [], late := [], parts := [], lastArrival := s.now, poisoned := false,
                waitEnded := false, endDue := false, summaries := [], results := [], versions := [], tracker := 0 }
            let o := { o with owner := d.op = 1 || (d.op = 0 && (d.mode = 1 || 4096 < o.total * o.eb)) }
            let o := { o with tracker := 1 + o.peers.length }
            if s.fld DIM_FABRIC_TRACKER < o.tracker then (.fault PLT_DESC_INVALID, s) else (.ok o, s)

/-- Does a started fill task that has not exited name a hold (R376, R292)? (DEDUCED, log entry 59). -/
def State.holdRunning (s : State) (part h : Nat) : Bool :=
  let names (x : BlkState) : Bool := x.fill.placed && x.fill.hold == h + 1
  s.blks.any (fun (_, k) => match k.ctx with
    | some c => (s.ctxOf c).part == part && names k.st
    | none => false) ||
    s.ctxs.any fun (_, x) => x.part == part && x.saved.any fun (_, y) => names y

/-- Take the holds that are due: every operation that waits for its hold, whose last fill task has exited, takes it now. -/
def State.takeHolds (s : State) : State :=
  s.forEach (s.plait.map (·.1)) fun s slot =>
    match s.plaitSlot slot with
    | some o =>
      if o.holdPending && s.tagCurrent o.tag && !s.holdRunning (s.ctxOf o.ctx).part o.desc.hold then
        match Res.bind (s.contribute slot) fun _ s => s.settleOp slot with
        | (.wait, s') => s.onlyAsked s'
        | (_, s') => s'
      else s
    | none => s

/-- Give an accepted operation packets with their arrival times, in order. -/
def State.feed (s : State) (slot : Nat) (l : List (Pkt × Nat)) : Res Unit × State :=
  l.foldl (fun r e => Res.bind r fun _ s => s.opPacket slot e.1 e.2) (.ok (), s)

/-- The packets that wait for an operation: from the early buffer, or from the records of a replay (R354, R407). -/
def State.waitingPkts (s : State) (o : PlaitOp) : List (Pkt × Nat) × State :=
  if s.opReplays o then
    let mine (r : RplRec) : Bool := r.kind == rplPeer && decide (o.desc.opid < 2 ^ 31) && (pktOf r.body).opid == o.desc.opid && (pktOf r.body).ptype != ptDoorbell
    ((s.replay.filter mine).map fun r => (pktOf r.body, r.time), { s with replay := s.replay.filter fun r => !mine r })
  else
    let mine (e : Early) : Bool := decide (o.desc.opid < 2 ^ 31) && e.pk.tag % 2 ^ 20 == o.tag && e.pk.opid == o.desc.opid
    ((s.early.filter mine).map fun e => (e.pk, e.at_), { s with early := s.early.filter fun e => !mine e })

/-- Accept an operation into its slot: it contributes before the packets that have waited for it act, since they may complete it. -/
def State.acceptOp (s : State) (o : PlaitOp) : Res Unit × State :=
  let slot := o.desc.opid % 4096
  let s := s.setPlaitSlot slot (some o)
  let s := s.setFld PLT_TRACKER_HIGH_WATER (Nat.max (s.fld PLT_TRACKER_HIGH_WATER) s.trackerUsed)
  if o.desc.op = 6 then
    let g := o.group.getD o.desc.root (0, 0)
    let pk := s.shortPkt o ptDoorbell o.desc.root (o.desc.unitElems % 2 ^ 15 + o.desc.units * 2 ^ 32)
    s.onOp slot (Res.bind (s.sendAll o.tag [pk]) fun _ s =>
      (.ok (), if g.1 = s.fld RPT_GLOBAL_SELF || s.opReplays o then s.endOp slot 0 else s))
  else
    let w := s.waitingPkts o
    let s := w.2
    if s.opReplays o && w.1.isEmpty && (o.missing.any fun r => r != o.myRank) then (.ok (), s.rplDiverged o.ctx)
    else
      Res.bind (if o.holdPending && s.holdRunning (s.ctxOf o.ctx).part o.desc.hold then (.ok (), s) else s.contribute slot) fun _ s =>
        Res.bind (s.feed slot w.1) fun _ s => s.settleOp slot

/-- The engine takes the head of a block's plait queue. -/
def State.plaitAccept (s : State) (b : Nat) : State :=
  match s.plaitQueue b with
  | [] => s
  | e :: rest =>
    let c := e.tag / 256
    let pop (s : State) : State := s.modBlk b fun x => { x with pq := rest }
    if e.fence then
      let waits := (s.plait.filter fun (_, o) => match o with | some o => o.tag == e.tag | none => false).map (·.1)
      ({ pop s with fences := s.fences ++ [⟨b, e.tag, e.idx, e.f, e.ticket, waits⟩] } : State).endFences
    else if s.fences.any fun x => x.tag == e.tag then s
    else match s.readOp b c e with
      | (.wait, s') => s.onlyAsked s'
      | (.fault code, s') => (pop s').plaitTicket b e.tag e.idx e.f e.ticket 0xFFFF code
      | (.ok o, s') =>
        let key := SMap.get (fun _ => none) s.holds (holdKey (s.ctxOf c).part o.desc.hold)
        if (s.plaitSlot (o.desc.opid % 4096)).isSome || s.fld DIM_FABRIC_TRACKER < s.trackerUsed + o.tracker then s
        else if o.desc.anyHold && key.isSome && key != some c then (pop s').plaitTicket b e.tag e.idx e.f e.ticket 0xFFFF PLT_HOLD_INVALID
        else match (pop s').acceptOp o with
          | (.wait, s') => s.onlyAsked s'
          | (_, s') => s'

def execPlaitAccept (b : Nat) (s : State) : Out := .next (if s.powered && s.blockPresent b then s.plaitAccept b else s)

/-! ### The time limits of an operation (R369, R371, R372) -/

/-- The state after a step of the engine that may have to be made again. -/
def State.orWait (s : State) (r : Res Unit × State) : State :=
  match r with
  | (.wait, s') => s.onlyAsked s'
  | (_, s') => s'

/-- Has an operation's next time limit come: the deadline plus GRACE_NS while it waits for contributions, after that the deadline plus
2 × GRACE_NS? -/
def State.limitCome (s : State) (o : PlaitOp) : Bool :=
  s.tagCurrent o.tag && o.desc.op != 6 && decide (o.deadline + (if o.waitEnded then 2 else 1) * s.fld PLT_CTRL_GRACE_NS ≤ s.now)

/-- The deadline plus GRACE_NS has come: the wait ends in this clk, after a teardown and before the packets (R382). -/
def execPlaitWaitEnd (slot : Nat) (s : State) : Out :=
  .next (s.whenOn fun s => match s.plaitSlot slot with
    | some o => if !o.waitEnded && s.limitCome o then s.modOp slot fun o => { o with endDue := true } else s
    | none => s)

/-- The deadline plus 2 × GRACE_NS has come: an owner-mode operation completes in this clk with what it has. -/
def execPlaitSummaryTimeout (slot : Nat) (s : State) : Out :=
  .next (s.whenOn fun s => match s.plaitSlot slot with
    | some o => if o.waitEnded && s.limitCome o then s.modOp slot fun o => { o with endDue := true } else s
    | none => s)

/-- An owner-mode operation completes at its second limit: what has come of the RESULT packets whole is written, and a segment that lacks
is PLT_SEGMENT_LOST. -/
def State.endLacking (s : State) (slot : Nat) : Res Unit × State :=
  match s.plaitSlot slot with
  | none => (.ok (), s)
  | some o =>
    let lost := o.desc.op = 0 && o.owners.any fun r => r != o.myRank && !o.resultWhole r
    s.onOp slot (Res.bind (s.writeWhole o ptResult) fun _ s => (.ok (), s.endOp slot (if lost then PLT_SEGMENT_LOST else 0)))

/-- The limit that has come in this clk acts on the operation in a slot. -/
def State.limitDue (s : State) (slot : Nat) : State :=
  match s.plaitSlot slot with
  | none => s
  | some o =>
    if !o.endDue then s
    else if !s.limitCome o then s.modOp slot fun o => { o with endDue := false }
    else s.orWait (Res.bind (if o.waitEnded then s.endLacking slot else s.endWait slot) fun _ s =>
      (.ok (), s.modOp slot fun o => { o with endDue := false }))

/-- What meets on operations in one clk: teardowns have acted, then the limits act, then the packets (R382). -/
def State.plaitEvents (s : State) : State :=
  let s := s.forEach (s.plait.map (·.1)) State.limitDue
  s.forEach (s.links.flatMap fun e => e.2.due.map fun pk => (e.1, pk)) fun s x => s.packetDue x.1 x.2

/-- A PLAIT_DEADLINE slot fires at an engine slot: it acts as the deadline if that is later (R369). -/
def State.plaitDeadline (s : State) (slot : Nat) : State := s.modOp slot fun o => { o with deadline := Nat.min o.deadline s.now }

end Sys2Proof.Machine
end

