-- ==== Sys2Proof/Machine/Readers.lean ====
section
/-!
DEFINITION. What a walk and a lost read mean to the unit that asked (R233, R236, R246, R412).
-/

namespace Sys2Proof.Machine

/-- Does a request of the companion read a unit of HBM? -/
def JMsg.readsUnit (dpa : Nat) (m : JMsg) : Bool :=
  m.hdr.opc == 1 && m.hdr.addr / 2 ^ 52 == 1 &&
    decide (m.hdr.addr % 2 ^ 39 / 256 ≤ dpa / 256) && decide (dpa / 256 ≤ (m.hdr.addr % 2 ^ 39 + m.hdr.len - 1) / 256)

/-- Does the core of a block act for a tag in a set? -/
def State.coreOf (s : State) (b : Nat) (f : Bool) (tag : Nat) : Bool :=
  decide ((s.blk b).ctx = some (tag / 256)) && s.canIssue b f

/-- A read for a tag has failed with a code: it is precise for fetch, LDV, STV and the AMO instructions, and completes the operation of
any other unit with the code (R236). The companion is answered LOST (R455). -/
def State.readFails (s : State) (tag code src detail : Nat) : Reader → State
  | .fetch b f => if s.coreOf b f tag then s.coreFault b f kindIssue code (s.cset b f).pc.toNat 0 else s
  | .core b f w => if s.coreOf b f tag then s.coreFault b f kindIssue code (s.cset b f).pc.toNat w.toNat else s
  | .move id =>
    match s.moves.find? fun m => m.id == id && m.tag == tag with
    | some m => s.endMove m (if code = HBM_READ_LOST then MOVE_SOURCE_LOST else code) m.row
    | none => s
  | .stake b =>
    match (s.bst b).sq, (s.blk b).ctx with
    | o :: rest, some c =>
      if o.load && o.started && decide (c = tag / 256) then
        (s.modBst b fun x => { x with sq := rest }).completeHere b o.f o.ticket unitStake 0 code
      else s
    | _, _ => s
  | .vector b =>
    if (s.blk b).ctx = some (tag / 256) then
      s.modBst b fun x => { x with vq := match x.vq with
        | e :: rest => { e with code := if e.code = 0 then code else e.code } :: rest
        | [] => [] }
    else s
  | .issue b =>
    match s.plaitQueue b with
    | e :: rest =>
      if e.tag = tag && !e.fence then
        (s.modBlk b fun x => { x with pq := rest }).plaitTicket b e.tag e.idx e.f e.ticket 0xFFFF code
      else s
    | [] => s
  | .plait slot =>
    match s.plaitSlot slot with
    | some o => if o.tag = tag then s.endOp slot code else s
    | none => s
  | .context => s.ctxFault (tag / 256) code src detail 0
  | .companion =>
    match s.takeMsg (JMsg.readsUnit detail) with
    | (none, _) => s
    | (some m, s) =>
      (s.modJosil fun j => { j with owedReq := j.owedReq + 1 }).sendJosil ⟨1, response opcCmp m.hdr false 3 0, 0, []⟩

/-- The border's test of the tag that a walk's result or a read's data comes back under (R412). -/
def State.backAtBorder (s : State) (tag : Nat) (who : Reader) (g : State → State) : State :=
  if decide (who = .companion) || s.tagCurrent tag then g s else s.count RST_BORDER_LOCAL_DROP 1

/-- A walk for a tag: the translation enters the caches, or its fault is the requester's (R233, R236). One of an old tag is dropped and
caches nothing (DEDUCED, log entry 31). -/
def execPageWalk (tag : Nat) (va : Word) (req : WalkFor) (s : State) : Out :=
  .next (s.whenOn fun s =>
    if decide (req.who = .companion) then s
    else s.backAtBorder tag req.who fun s =>
      let c := tag / 256
      if s.walkWaits c va.toNat then s
      else match s.translate c va.toNat req.acc with
        | .ok _ => s.cacheXl c va.toNat
        | .error e => (s.walkReads c va.toNat).readFails tag e (0x0400 + s.firstBlock c) va.toNat req.who)

/-- The code that the reader of a lost unit raises: POISONED in a walk (R246). -/
def lostCode (walk : Bool) : Reader → Nat
  | .move _ => if walk then POISONED else MOVE_SOURCE_LOST
  | _ => if walk then POISONED else HBM_READ_LOST

/-- A read of a unit has mismatched, of the walker or of the reader itself; `fails` of its re-reads fail, three at most (R246). A unit that is
lost is poisoned and its reader faults; the frame is tested, but not in a channel already found failed (R247). -/
def execHbmReread (dpa fails : Nat) (req : ReadFor) (s : State) : Out :=
  .next (
    if !s.powered || decide (2 ^ 39 ≤ dpa) || s.hbmPoisoned dpa then s
    else
      let k := (s.frameOf dpa).1
      let fr := (s.frameOf dpa).2
      let s := s.count (HBM_COUNT_REREADS k) (Nat.min (fails + 1) 3)
      if fails < 3 then s.startFrameTest k fr false
      else
        let code := lostCode req.walk req.who
        let s := (s.loseUnit dpa).lastCode (HBM_STATUS_LAST_CODE k) code
        let s := if s.badChannels.contains (k, Config.hbmChannel k fr) then s else s.startFrameTest k fr false
        s.backAtBorder req.tag req.who fun s => s.readFails req.tag code (0x0480 + k) dpa req.who)

end Sys2Proof.Machine
end

