-- ==== Sys2Proof/Machine/Reblock.lean ====
section
/-!
DEFINITION. Conversion into and out of splint formats (R135 to R139), the optimiser update with remainder (R151 to R153) and the
counter-based generator (R154, R155).
-/

namespace Sys2Proof.Machine

/-! ### Conversion (major 0x21) -/

/-- Base checks: the first misaligned pair gives VEC_ADDR_ALIGN, then ranges that leave the operand store VEC_ADDR_RANGE. R132 gives this order
for VLD and VST alone (DESIGN CHOICE, log entry 104). -/
def baseFault (aligned ranges : List (Nat × Nat)) : Option Nat :=
  if aligned.any fun (a, n) => a % n != 0 then some VEC_ADDR_ALIGN
  else if ranges.any fun (a, n) => decide (0 < n) && decide (opsEnd < a + n) then some VEC_ADDR_RANGE
  else none

/-- Cut a list into groups of 32. -/
def chunks32 {α : Type} : Nat → List α → List (List α)
  | 0, _ => []
  | n + 1, l => l.take 32 :: chunks32 n (l.drop 32)

/-- Re-block values and write the groups (R38, R139): counts go to bank `cb` with `cnt`, the sources' amax with `amx`. -/
def BlkState.emit (x : BlkState) (w sigB expB cb : Nat) (cnt amx : Bool) (vals srcs : List FVal) : BlkState :=
  let gs := (chunks32 (vals.length / 32) vals).map (reblock w)
  let k := x.bank cb
  let k := if cnt then gs.foldl (fun k g => k.takeOutcome g.2) k else k
  let k := if amx then srcs.foldl Bank.takeAmax k else k
  ((x.setBank cb k).write sigB (gs.flatMap fun g => sigBytes w g.1.sigs)).write expB
    (gs.map fun g => BitVec.ofNat 8 g.1.e)

/-- Is a scale S or factor F zero, negative, infinite or NaN (R46, R135)? -/
def badScale (v : FVal) : Bool := !v.isFin || v.isZero || v.sign

/-- VST.SP (R135, R136). No rule names the code of a range that leaves the operand store: the model raises VEC_ADDR_RANGE, after
VEC_ADDR_ALIGN (DESIGN CHOICE, log entry 104). -/
def execVstSp (b : Nat) (f : Bool) (w : Word) (s : State) : Out :=
  .next (s.vec b f w (bitMask 22 8) floatTypes
    (fun _ => if 7 < wBits w 17 13 then some VEC_FORMAT_INVALID else none) true false fun s =>
    let x := s.bst b
    let sw := splintWidth (wBits w 17 13)
    let groups := ceilDiv x.vl 32
    let expB := (s.sreg b f (wDst w)).toNat
    let sigB := (s.sreg b f (wSb w)).toNat
    match baseFault [(sigB, 256), (expB, 16)] [(sigB, 4 * sw * groups), (expB, groups)] with
    | some e => (.fault e, s)
    | none =>
      let fac := f32.decode ((s.sreg b f (wBits w 22 18)).toNat % 2 ^ 32)
      let srcs := (List.range (32 * groups)).map fun i =>
        if x.active w i then typeVal (wType w) (x.velem (wSa w) (typeBytes (wType w)) i) else .fin false 0 0
      let vals := srcs.map fun v => if badScale fac then .nan else v.mul fac
      (.ok (), s.modBst b fun x => x.emit sw sigB expB (wBits w 12 10) (bitOf w.toNat 9) (bitOf w.toNat 8) vals srcs))

/-- The exact source value of element `i` of VRB (R137): `raw` is the bit string, `aux` the exponents or scales. -/
def vrbVal (code : Nat) (raw : Nat) (aux : List Byte) (scale : FVal) (i : Nat) : FVal :=
  if code < 8 then
    let n := splintWidth code
    splintVal n (aux.getD (i / 32) 0).toNat (signed n (raw / 2 ^ (n * i)))
  else
    let n := importBits code
    let v := importVal code (raw / 2 ^ (n * i) % 2 ^ n)
    if isMx code then
      let e := (aux.getD (i / 32) 0).toNat
      if e = 255 then .nan else v.scale ((e : Int) - 127)
    else if code = 0x0E || code = 0x0F then (if badScale scale then .nan else v.mul scale)
    else v

/-- VRB (R137): TYPE, MEN and MSK are 0, and for the natural formats SX names s0. -/
def execVrb (b : Nat) (f : Bool) (w : Word) (s : State) : Out :=
  let code := wBits w 12 8
  let sx := wBits w 22 18
  .next (s.vec b f w (bitMask 22 3) []
    (fun _ => if wMen w || wMsk w ≠ 0 || (decide (0x10 ≤ code) && decide (code ≤ 0x13) && sx ≠ 0) then some VEC_FIELD_INVALID
      else if 0x13 < code || 7 < wBits w 17 13 then some VEC_FORMAT_INVALID else none) false false fun s =>
    let vl := (s.bst b).vl
    let dw := splintWidth (wBits w 17 13)
    let n := if code < 8 then splintWidth code else importBits code
    let groups := ceilDiv vl 32
    let src := (s.sreg b f (wSa w)).toNat
    let aux := (s.sreg b f sx).toNat
    let expB := (s.sreg b f (wDst w)).toNat
    let sigB := (s.sreg b f (wSb w)).toNat
    let hasAux := decide (code ≤ 0x0D)
    let bytes := ceilDiv (vl * n) 8
    match baseFault ([(src, 256), (sigB, 256), (expB, 16)] ++ (if hasAux then [(aux, 16)] else []))
        ([(src, bytes), (sigB, 4 * dw * groups), (expB, groups)] ++ (if hasAux then [(aux, groups)] else [])) with
    | some e => (.fault e, s)
    | none =>
      match s.readLocal b src bytes with
      | (.error e, s) => (.fault e, s)
      | (.ok data, s) =>
        match if hasAux then s.readLocal b aux groups else (.ok [], s) with
        | (.error e, s) => (.fault e, s)
        | (.ok ax, s) =>
          let raw := leNat data
          let scale := f32.decode (aux % 2 ^ 32)
          let srcs := (List.range vl).map (vrbVal code raw ax scale)
          let bad := (code = 0x0E || code = 0x0F) && badScale scale
          let pad : FVal := if bad then .nan else .fin false 0 0
          let vals := srcs ++ List.replicate (32 * groups - vl) pad
          (.ok (), s.modBst b fun x => x.emit dw sigB expB (wBits w 7 5) (bitOf w.toNat 4) (bitOf w.toNat 3) vals srcs))

/-- VLD.SP (R138). No rule names the code of a base that breaks R39 or of a range that leaves the operand store: the model raises
VEC_ADDR_ALIGN, then VEC_ADDR_RANGE, as R137 has them for VRB (DESIGN CHOICE, log entry 91). -/
def execVldSp (b : Nat) (f : Bool) (w : Word) (s : State) : Out :=
  .next (s.vec b f w (bitMask 17 13) [2, 3]
    (fun _ => if 7 < wBits w 17 13 then some VEC_FORMAT_INVALID else none) (wMen w) false fun s =>
    let sw := splintWidth (wBits w 17 13)
    let groups := ceilDiv (s.bst b).vl 32
    let expB := (s.sreg b f (wSa w)).toNat
    let sigB := (s.sreg b f (wSb w)).toNat
    match baseFault [(sigB, 256), (expB, 16)] [(sigB, 4 * sw * groups), (expB, groups)] with
    | some e => (.fault e, s)
    | none =>
      match s.readLocal b sigB (4 * sw * groups) with
      | (.error e, s) => (.fault e, s)
      | (.ok sig, s) =>
        match s.readLocal b expB groups with
        | (.error e, s) => (.fault e, s)
        | (.ok ex, s) =>
          let raw := leNat sig
          let k := typeFmt (wType w)
          (.ok (), s.modBst b fun x => x.writeElems w (typeBytes (wType w)) fun i =>
            let v := splintVal sw (ex.getD (i / 32) 0).toNat (signed sw (raw / 2 ^ (sw * i)))
            let r := k.encode v
            (r, false, (k.decode r).isInf)))

/-! ### Optimiser (major 0x23) -/

/-- Exponent of u(h): max(ex(h), -126) - 23, with ex(0) taken as -126. -/
def remExp : FVal → Int
  | .fin _ m e => if m = 0 then -149 else max (topExp m e) (-126) - 23
  | _ => -149

/-- w = h + q × u(h). -/
def splitVal (h : FVal) (q : Int) : FVal :=
  if h.isFin then h.add (.fin (decide (q < 0)) q.natAbs (remExp h)) else h

/-- What VOPT.APPLY makes of one parameter: head, remainder, and whether OPT_NONFINITE, OPT_CLAMP, NAN_MADE and OVERFLOW set. -/
def optApply (hRaw qRaw gRaw : Nat) (fac : FVal) : Nat × Nat × Bool × Bool × Bool × Bool :=
  let h := bf16.decode hRaw
  let g := f32.decode gRaw
  let wn := (splitVal h (signed 16 qRaw)).add (fac.mul g)
  let hn := bf16.encode wn
  let hv := bf16.decode hn
  if hv.isFin then
    let q := match wn.add hv.neg with
      | .fin n m e => if m = 0 then 0 else roundHalfEven n m (e - remExp hv)
      | _ => 0
    let c := min (max q (-32768)) 32767
    (hn, wrap 16 c, false, c ≠ q, false, false)
  else
    let fl := resultFlags [h, g, fac] hv
    (hn, 0, true, false, fl.1, fl.2)

/-- VOPT.APPLY: heads at bytes 2i, remainders at bytes 2,048 + 2i of v[DST]. -/
def execVoptApply (b : Nat) (f : Bool) (w : Word) (s : State) : Out :=
  .next (s.vecReg b f w 0 [0] noCheck true false fun s x =>
    let fac := f32.decode ((s.sreg b f (wSb w)).toNat % 2 ^ 32)
    let rs := (List.range x.vl).map fun i =>
      let h := x.velem (wDst w) 2 i
      let q := x.velem (wDst w) 2 i 2048
      if x.active w i then optApply h q (x.velem (wSa w) 4 i) fac else (h, q, false, false, false, false)
    let x := x.setVelems (wDst w) 2 (rs.map (·.1))
    let x := x.setVelems (wDst w) 2 (rs.map (·.2.1)) 2048
    let x := x.raise flagOptNonfinite (rs.any (·.2.2.1))
    let x := x.raise flagOptClamp (rs.any (·.2.2.2.1))
    (x.raise flagNanMade (rs.any (·.2.2.2.2.1))).raise flagOverflow (rs.any (·.2.2.2.2.2)))

/-- VOPT.RD. -/
def execVoptRd (b : Nat) (f : Bool) (w : Word) (s : State) : Out :=
  .next (s.vecReg b f w 0 [2] noCheck true false fun _ x =>
    x.writeElems w 4 fun i =>
      (f32.encode (splitVal (bf16.decode (x.velem (wSa w) 2 i)) (signed 16 (x.velem (wSa w) 2 i 2048))), false, false))

/-! ### Generator (major 0x24) -/

/-- One round of Philox4x32: counters and keys. -/
def philoxRound (c : Nat × Nat × Nat × Nat) (k0 k1 : Nat) : Nat × Nat × Nat × Nat :=
  let p := 0xd2511f53 * c.1
  let q := 0xcd9e8d57 * c.2.2.1
  ((q / 2 ^ 32) ^^^ c.2.1 ^^^ k0, q % 2 ^ 32, (p / 2 ^ 32) ^^^ c.2.2.2 ^^^ k1, p % 2 ^ 32)

/-- A round, after which the keys are raised. -/
def philoxNext (x : (Nat × Nat × Nat × Nat) × Nat × Nat) : (Nat × Nat × Nat × Nat) × Nat × Nat :=
  (philoxRound x.1 x.2.1 x.2.2, (x.2.1 + 0x9e3779b9) % 2 ^ 32, (x.2.2 + 0xbb67ae85) % 2 ^ 32)

/-- A number of rounds. -/
def philoxRounds : Nat → (Nat × Nat × Nat × Nat) × Nat × Nat → (Nat × Nat × Nat × Nat) × Nat × Nat
  | 0, x => x
  | n + 1, x => philoxRounds n (philoxNext x)

/-- The word of element index `e` (R154). -/
def philoxWord (key step tensor e : Nat) : Nat :=
  let r := (philoxRounds 10 ((e / 4, tensor % 2 ^ 32, step % 2 ^ 32, step / 2 ^ 32 % 2 ^ 32), key % 2 ^ 32, key / 2 ^ 32 % 2 ^ 32)).1
  match e % 4 with
  | 0 => r.1
  | 1 => r.2.1
  | 2 => r.2.2.1
  | _ => r.2.2.2

/-- The word that element `i` of a VRNG instruction takes. -/
def State.rngWord (s : State) (b : Nat) (f : Bool) (w : Word) (i : Nat) : Nat :=
  let x := s.bst b
  philoxWord (x.cfgItem 0).toNat (x.cfgItem 1).toNat (s.sreg b f (wBits w 22 18)).toNat
    (((s.sreg b f (wSa w)).toNat + i) % 2 ^ 34)

def execVrngU32 (b : Nat) (f : Bool) (w : Word) (s : State) : Out :=
  .next (s.vecReg b f w (bitMask 22 18) [5] noCheck (wMen w) false fun s x =>
    x.writeElems w 4 fun i => (s.rngWord b f w i, false, false))

/-- VRNG.UNIF: (word >> 8) × 2^-24. -/
def execVrngUnif (b : Nat) (f : Bool) (w : Word) (s : State) : Out :=
  .next (s.vecReg b f w (bitMask 22 18) [2] noCheck (wMen w) false fun s x =>
    x.writeElems w 4 fun i => (f32.encode (.fin false (s.rngWord b f w i / 256) (-24)), false, false))

def execVrngKeep (b : Nat) (f : Bool) (w : Word) (s : State) : Out :=
  .next (s.vecReg b f w (bitMask 22 18) [] (fun _ => if maskField (wDst w) then none else some VEC_FIELD_INVALID)
    (wMen w) false fun s x =>
    x.writeMask (wDst w) (x.active w) fun i => decide ((s.sreg b f (wSb w)).toNat % 2 ^ 32 ≤ s.rngWord b f w i))

end Sys2Proof.Machine
end

