-- ==== Sys2Proof/Machine/Reserve.lean ====
section
/-!
DEFINITION. The contents of HBM by device physical address, the reserve among them (R228, R231): the poison map, the spare frames, the
journal's ring and the step replay area stand in State as what they are, and here is where in HBM each of their bytes lies. Only the
device's own engines use the reserve, so that no command reads it by address.
-/

namespace Sys2Proof.Machine

/-- Where the parts of the reserve begin (R231). -/
def poisonMapBase : Nat := 0x7735940000
def sparesBase : Nat := 0x7745940000
def journalBase : Nat := 0x7749940000
def replayBase : Nat := 0x774D940000
def reserveTop : Nat := 0x7F4D940000

/-- A byte of the poison map: one bit per 256-byte unit. -/
def State.poisonMapByte (s : State) (i : Nat) : Byte :=
  BitVec.ofNat 8 ((List.range 8).foldl (fun n j => n + b2n (s.hbmPoisoned ((8 * i + j) * 256)) * 2 ^ j) 0)

/-- A byte of the spare frames: frame `n` of a stack holds what the frame that it stands for held, and 0 while it stands for none. -/
def State.spareByte (s : State) (a : Nat) : Byte :=
  let p := s.locate a
  let off := p.2 - (s.locate sparesBase).2
  match s.remap.find? fun e => e.1 / 2 ^ 23 == p.1 && e.2 == some (off / 8192) with
  | some e => s.hbmByte (s.unitDpa p.1 (e.1 % 2 ^ 23 * 8192 + off % 8192 / 256 * 256) + a % 256)
  | none => 0

/-- A byte of the journal's ring: 2^20 records of 64 bytes, by SEQ (R495). -/
def State.journalByte (s : State) (i : Nat) : Byte :=
  match s.lid.journal.find? fun r => r.seq % 2 ^ 20 == i / 64 with
  | some r => (r.body ++ leBytes r.chain 16).getD (i % 64) 0
  | none => 0

/-- The byte at a device physical address. -/
def State.dpaByte (s : State) (a : Nat) : Byte :=
  if a < usableEnd then s.hbmByte a
  else if a < sparesBase then s.poisonMapByte (a - poisonMapBase)
  else if a < journalBase then s.spareByte a
  else if a < replayBase then s.journalByte (a - journalBase)
  else if a < reserveTop then rplByte s.recorder (a - replayBase)
  else 0

end Sys2Proof.Machine
end

