-- ==== Sys2Proof/Machine/Scalar.lean ====
section
/-!
DEFINITION. The scalar classes of the block core: integer arithmetic (R166, R167), scalar floating point (R168), block-local
and virtual accesses (R169 to R171), branches and jumps (R172).
-/

namespace Sys2Proof.Machine

/-! ### Integer arithmetic (R167) -/

/-- SLT, SLTU and FCMP write 1 or 0. -/
def truth (b : Bool) : Word := if b then 1 else 0

/-- Signed division: divisor 0 gives -1, the quotient rounds toward zero and wraps. -/
def divS (a d : Word) : Word := if d = 0 then BitVec.allOnes 64 else BitVec.ofInt 64 (a.toInt.tdiv d.toInt)

/-- Signed remainder: divisor 0 gives the dividend. -/
def remS (a d : Word) : Word := if d = 0 then a else BitVec.ofInt 64 (a.toInt.tmod d.toInt)

/-- Unsigned division: divisor 0 gives all ones. -/
def divU (a d : Word) : Word := if d = 0 then BitVec.allOnes 64 else BitVec.ofNat 64 (a.toNat / d.toNat)

/-- Unsigned remainder. -/
def remU (a d : Word) : Word := if d = 0 then a else BitVec.ofNat 64 (a.toNat % d.toNat)

/-- The amount of a shift: the low 6 bits. -/
def shamt (d : Word) : Nat := d.toNat % 64

/-- Zero bits above the highest one bit. -/
def countLeading (a : Word) : Word := BitVec.ofNat 64 (64 - bitLen a.toNat)

/-- Zero bits below the lowest one bit. -/
def countTrailing (a : Word) : Word := BitVec.ofNat 64 (((List.range 64).find? fun i => a.getLsbD i).getD 64)

/-- One bits. -/
def countOnes (a : Word) : Word := BitVec.ofNat 64 ((List.range 64).filter fun i => a.getLsbD i).length

/-- An integer operation on two registers; `unary` says that SB is RSV. -/
def State.aluRR (s : State) (b : Nat) (f : Bool) (w : Word) (unary : Bool) (op : Word → Word → Word) : State :=
  s.issueAlu b f w fun s =>
    if wImm w ≠ 0 || (unary && wSb w ≠ 0) then .fault s CORE_FIELD_INVALID
    else .retire (s.setSreg b f (wDst w) (op (s.sreg b f (wSa w)) (s.sreg b f (wSb w))))

/-- An integer operation on a register and the sign-extended immediate. -/
def State.aluRI (s : State) (b : Nat) (f : Bool) (w : Word) (op : Word → Word → Word) : State :=
  s.issueAlu b f w fun s =>
    if wSb w ≠ 0 then .fault s CORE_FIELD_INVALID
    else .retire (s.setSreg b f (wDst w) (op (s.sreg b f (wSa w)) (wSimm w)))

def opAdd (x y : Word) : Word := x + y
def opSub (x y : Word) : Word := x - y
def opAnd (x y : Word) : Word := x &&& y
def opOr (x y : Word) : Word := x ||| y
def opXor (x y : Word) : Word := x ^^^ y
def opSll (x y : Word) : Word := x <<< shamt y
def opSrl (x y : Word) : Word := x >>> shamt y
def opSra (x y : Word) : Word := x.sshiftRight (shamt y)
def opSlt (x y : Word) : Word := truth (x.slt y)
def opSltu (x y : Word) : Word := truth (x.ult y)
def opMul (x y : Word) : Word := x * y
def opMulh (x y : Word) : Word := BitVec.ofInt 64 (x.toInt * y.toInt / 2 ^ 64)
def opMulhu (x y : Word) : Word := BitVec.ofNat 64 (x.toNat * y.toNat / 2 ^ 64)
def opMin (x y : Word) : Word := if x.slt y then x else y
def opMax (x y : Word) : Word := if x.slt y then y else x
def opMinu (x y : Word) : Word := if x.ult y then x else y
def opMaxu (x y : Word) : Word := if x.ult y then y else x

def execAdd (b : Nat) (f : Bool) (w : Word) (s : State) : Out := .next (s.aluRR b f w false opAdd)
def execSub (b : Nat) (f : Bool) (w : Word) (s : State) : Out := .next (s.aluRR b f w false opSub)
def execAnd (b : Nat) (f : Bool) (w : Word) (s : State) : Out := .next (s.aluRR b f w false opAnd)
def execOr (b : Nat) (f : Bool) (w : Word) (s : State) : Out := .next (s.aluRR b f w false opOr)
def execXor (b : Nat) (f : Bool) (w : Word) (s : State) : Out := .next (s.aluRR b f w false opXor)
def execSll (b : Nat) (f : Bool) (w : Word) (s : State) : Out := .next (s.aluRR b f w false opSll)
def execSrl (b : Nat) (f : Bool) (w : Word) (s : State) : Out := .next (s.aluRR b f w false opSrl)
def execSra (b : Nat) (f : Bool) (w : Word) (s : State) : Out := .next (s.aluRR b f w false opSra)
def execSlt (b : Nat) (f : Bool) (w : Word) (s : State) : Out := .next (s.aluRR b f w false opSlt)
def execSltu (b : Nat) (f : Bool) (w : Word) (s : State) : Out := .next (s.aluRR b f w false opSltu)
def execMul (b : Nat) (f : Bool) (w : Word) (s : State) : Out := .next (s.aluRR b f w false opMul)
def execMulh (b : Nat) (f : Bool) (w : Word) (s : State) : Out := .next (s.aluRR b f w false opMulh)
def execMulhu (b : Nat) (f : Bool) (w : Word) (s : State) : Out := .next (s.aluRR b f w false opMulhu)
def execDiv (b : Nat) (f : Bool) (w : Word) (s : State) : Out := .next (s.aluRR b f w false divS)
def execDivu (b : Nat) (f : Bool) (w : Word) (s : State) : Out := .next (s.aluRR b f w false divU)
def execRem (b : Nat) (f : Bool) (w : Word) (s : State) : Out := .next (s.aluRR b f w false remS)
def execRemu (b : Nat) (f : Bool) (w : Word) (s : State) : Out := .next (s.aluRR b f w false remU)
def execMin (b : Nat) (f : Bool) (w : Word) (s : State) : Out := .next (s.aluRR b f w false opMin)
def execMax (b : Nat) (f : Bool) (w : Word) (s : State) : Out := .next (s.aluRR b f w false opMax)
def execMinu (b : Nat) (f : Bool) (w : Word) (s : State) : Out := .next (s.aluRR b f w false opMinu)
def execMaxu (b : Nat) (f : Bool) (w : Word) (s : State) : Out := .next (s.aluRR b f w false opMaxu)
def execClz (b : Nat) (f : Bool) (w : Word) (s : State) : Out := .next (s.aluRR b f w true fun x _ => countLeading x)
def execCtz (b : Nat) (f : Bool) (w : Word) (s : State) : Out := .next (s.aluRR b f w true fun x _ => countTrailing x)
def execPopc (b : Nat) (f : Bool) (w : Word) (s : State) : Out := .next (s.aluRR b f w true fun x _ => countOnes x)
def execAddi (b : Nat) (f : Bool) (w : Word) (s : State) : Out := .next (s.aluRI b f w opAdd)
def execAndi (b : Nat) (f : Bool) (w : Word) (s : State) : Out := .next (s.aluRI b f w opAnd)
def execOri (b : Nat) (f : Bool) (w : Word) (s : State) : Out := .next (s.aluRI b f w opOr)
def execXori (b : Nat) (f : Bool) (w : Word) (s : State) : Out := .next (s.aluRI b f w opXor)
def execSlli (b : Nat) (f : Bool) (w : Word) (s : State) : Out := .next (s.aluRI b f w opSll)
def execSrli (b : Nat) (f : Bool) (w : Word) (s : State) : Out := .next (s.aluRI b f w opSrl)
def execSrai (b : Nat) (f : Bool) (w : Word) (s : State) : Out := .next (s.aluRI b f w opSra)
def execSlti (b : Nat) (f : Bool) (w : Word) (s : State) : Out := .next (s.aluRI b f w opSlt)
def execSltiu (b : Nat) (f : Bool) (w : Word) (s : State) : Out := .next (s.aluRI b f w opSltu)

/-- MOVI: SA and SB are RSV. -/
def execMovi (b : Nat) (f : Bool) (w : Word) (s : State) : Out :=
  .next (s.issueAlu b f w fun s =>
    if wSa w ≠ 0 || wSb w ≠ 0 then .fault s CORE_FIELD_INVALID else .retire (s.setSreg b f (wDst w) (wSimm w)))

/-- MOVHI: bits [36:27] and SB are RSV. -/
def execMovhi (b : Nat) (f : Bool) (w : Word) (s : State) : Out :=
  .next (s.issueAlu b f w fun s =>
    if wSb w ≠ 0 || wBits w 36 27 ≠ 0 then .fault s CORE_FIELD_INVALID
    else .retire (s.setSreg b f (wDst w)
      (BitVec.ofNat 64 (wBits w 26 0 * 2 ^ 37 + (s.sreg b f (wSa w)).toNat % 2 ^ 37))))

/-! ### Scalar floating point (R168) -/

/-- The format that P selects. -/
def fpFmt (w : Word) : Fmt := if bitOf w.toNat 0 then f64 else f32

/-- The pattern of a register in a format. -/
def fpPat (k : Fmt) (x : Word) : Nat := x.toNat % 2 ^ k.width

/-- A floating-point operation on the patterns of s[SA], s[SB] and s[DST]; bits [36:1] are RSV. -/
def State.fpOp (s : State) (b : Nat) (f : Bool) (w : Word) (op : Fmt → Nat → Nat → Nat → Nat) : State :=
  s.issueFpu b f w fun s =>
    if wBits w 36 1 ≠ 0 then .fault s CORE_FIELD_INVALID
    else
      let k := fpFmt w
      .retire (s.setSreg b f (wDst w) (BitVec.ofNat 64
        (op k (fpPat k (s.sreg b f (wSa w))) (fpPat k (s.sreg b f (wSb w))) (fpPat k (s.sreg b f (wDst w))))))

def fpAdd (k : Fmt) (x y _z : Nat) : Nat := k.encode ((k.decode x).add (k.decode y))
def fpSub (k : Fmt) (x y _z : Nat) : Nat := k.encode ((k.decode x).add (k.decode y).neg)
def fpMul (k : Fmt) (x y _z : Nat) : Nat := k.encode ((k.decode x).mul (k.decode y))
def fpDiv (k : Fmt) (x y _z : Nat) : Nat := k.div (k.decode x) (k.decode y)
def fpSqrt (k : Fmt) (x _y _z : Nat) : Nat := k.sqrt (k.decode x)
def fpMin (k : Fmt) (x y _z : Nat) : Nat := k.encode ((k.decode x).minimum (k.decode y))
def fpMax (k : Fmt) (x y _z : Nat) : Nat := k.encode ((k.decode x).maximum (k.decode y))
def fpFma (k : Fmt) (x y z : Nat) : Nat := k.encode ((k.decode x).fma (k.decode y) (k.decode z))
def fpEq (k : Fmt) (x y _z : Nat) : Nat := b2n ((k.decode x).eq (k.decode y))
def fpLt (k : Fmt) (x y _z : Nat) : Nat := b2n ((k.decode x).lt (k.decode y))
def fpLe (k : Fmt) (x y _z : Nat) : Nat := b2n ((k.decode x).lt (k.decode y) || (k.decode x).eq (k.decode y))
def fpToInt (k : Fmt) (x _y _z : Nat) : Nat := (k.decode x).toInt 64

def execFadd (b : Nat) (f : Bool) (w : Word) (s : State) : Out := .next (s.fpOp b f w fpAdd)
def execFsub (b : Nat) (f : Bool) (w : Word) (s : State) : Out := .next (s.fpOp b f w fpSub)
def execFmul (b : Nat) (f : Bool) (w : Word) (s : State) : Out := .next (s.fpOp b f w fpMul)
def execFdiv (b : Nat) (f : Bool) (w : Word) (s : State) : Out := .next (s.fpOp b f w fpDiv)
def execFsqrt (b : Nat) (f : Bool) (w : Word) (s : State) : Out := .next (s.fpOp b f w fpSqrt)
def execFmin (b : Nat) (f : Bool) (w : Word) (s : State) : Out := .next (s.fpOp b f w fpMin)
def execFmax (b : Nat) (f : Bool) (w : Word) (s : State) : Out := .next (s.fpOp b f w fpMax)
def execFma (b : Nat) (f : Bool) (w : Word) (s : State) : Out := .next (s.fpOp b f w fpFma)
def execFcmpEq (b : Nat) (f : Bool) (w : Word) (s : State) : Out := .next (s.fpOp b f w fpEq)
def execFcmpLt (b : Nat) (f : Bool) (w : Word) (s : State) : Out := .next (s.fpOp b f w fpLt)
def execFcmpLe (b : Nat) (f : Bool) (w : Word) (s : State) : Out := .next (s.fpOp b f w fpLe)
def execFcvtI (b : Nat) (f : Bool) (w : Word) (s : State) : Out := .next (s.fpOp b f w fpToInt)

/-- A conversion that reads the whole of s[SA]. -/
def State.fpCvt (s : State) (b : Nat) (f : Bool) (w : Word) (op : Nat → Nat) : State :=
  s.issueFpu b f w fun s =>
    if wBits w 36 1 ≠ 0 then .fault s CORE_FIELD_INVALID
    else .retire (s.setSreg b f (wDst w) (BitVec.ofNat 64 (op (s.sreg b f (wSa w)).toNat)))

/-- FCVT.F: from INT64 to the format of P. -/
def execFcvtF (b : Nat) (f : Bool) (w : Word) (s : State) : Out :=
  .next (s.fpCvt b f w fun x => (fpFmt w).encode (FVal.ofInt 64 x))

/-- FCVT.P: P = 1 widens binary32 to binary64, P = 0 narrows binary64 to binary32. -/
def execFcvtP (b : Nat) (f : Bool) (w : Word) (s : State) : Out :=
  .next (s.fpCvt b f w fun x =>
    if bitOf w.toNat 0 then f64.encode (f32.decode (x % 2 ^ 32)) else f32.encode (f64.decode x))

/-! ### Block-local accesses (R169) -/

/-- The address of a load, a store or a virtual access. -/
def State.effAddr (s : State) (b : Nat) (f : Bool) (w : Word) : Nat := (s.sreg b f (wSa w) + wSimm w).toNat

/-- The first check of R169 that an access fails, if any. -/
def localFault (a n : Nat) : Option Nat :=
  if a % n ≠ 0 then some LOCAL_ADDR_ALIGN else if !localRange a n then some LOCAL_ADDR_RANGE else none

/-- The check of a core scratch read (R196, R246). -/
def State.scratchCheck (s : State) (b a : Nat) : Option Hit × State :=
  if scrBase ≤ a then s.checkUnit .scratchRead b false else (none, s)

/-- A load of `n` bytes, sign-extended where `sx`. A mismatch of a core scratch read is CORE_PARITY, not a fault of the load. -/
def State.ldl (s : State) (b : Nat) (f : Bool) (w : Word) (n : Nat) (sx : Bool) : State :=
  s.issue b f w fun s =>
    let a := s.effAddr b f w
    match localFault a n with
    | some e => .fault s e
    | none =>
      match s.scratchCheck b a with
      | (some h, s) => .parity s h.injected
      | (none, s) =>
        match s.readLocal b a n with
        | (.error e, s) => .fault s e
        | (.ok l, s) =>
          let v := leNat l
          .retire (s.setSreg b f (wDst w) (if sx then BitVec.ofInt 64 (signed (8 * n) v) else BitVec.ofNat 64 v))

/-- A store of `n` bytes; DST is RSV. -/
def State.stl (s : State) (b : Nat) (f : Bool) (w : Word) (n : Nat) : State :=
  s.issue b f w fun s =>
    if wDst w ≠ 0 then .fault s CORE_FIELD_INVALID
    else
      let a := s.effAddr b f w
      match localFault a n with
      | some e => .fault s e
      | none => .retire (s.writeLocal b a (leBytes (s.sreg b f (wSb w)).toNat n))

def execLdlB (b : Nat) (f : Bool) (w : Word) (s : State) : Out := .next (s.ldl b f w 1 true)
def execLdlBu (b : Nat) (f : Bool) (w : Word) (s : State) : Out := .next (s.ldl b f w 1 false)
def execLdlH (b : Nat) (f : Bool) (w : Word) (s : State) : Out := .next (s.ldl b f w 2 true)
def execLdlHu (b : Nat) (f : Bool) (w : Word) (s : State) : Out := .next (s.ldl b f w 2 false)
def execLdlW (b : Nat) (f : Bool) (w : Word) (s : State) : Out := .next (s.ldl b f w 4 true)
def execLdlWu (b : Nat) (f : Bool) (w : Word) (s : State) : Out := .next (s.ldl b f w 4 false)
def execLdlD (b : Nat) (f : Bool) (w : Word) (s : State) : Out := .next (s.ldl b f w 8 false)
def execStlB (b : Nat) (f : Bool) (w : Word) (s : State) : Out := .next (s.stl b f w 1)
def execStlH (b : Nat) (f : Bool) (w : Word) (s : State) : Out := .next (s.stl b f w 2)
def execStlW (b : Nat) (f : Bool) (w : Word) (s : State) : Out := .next (s.stl b f w 4)
def execStlD (b : Nat) (f : Bool) (w : Word) (s : State) : Out := .next (s.stl b f w 8)

/-! ### Virtual accesses (R170) -/

/-- A virtual access at an aligned address: `go` has the context and the address. A piece that must wait leaves the
instruction past issue (R191). -/
def State.virt (s : State) (b : Nat) (f : Bool) (w : Word) (go : State → Nat → Nat → Res Unit × State) : State :=
  s.issue b f w fun s =>
    let a := s.effAddr b f w
    if a % 8 ≠ 0 then .fault s LOCAL_ADDR_ALIGN
    else match (s.blk b).ctx with
      | none => .hold s (.sync false)
      | some c =>
        if s.walkWaits c a then .hold s (.sync false)
        else match go s c a with
        | (.ok (), s) => .retire s
        | (.fault e, s) => .fault s e
        | (.wait, s) => .hold s (.sync false)

/-- LDV. -/
def execLdv (b : Nat) (f : Bool) (w : Word) (s : State) : Out :=
  .next (s.virt b f w fun s c a =>
    match s.vread c a 8 .read with
    | (.ok l, s) => (.ok (), s.setSreg b f (wDst w) (BitVec.ofNat 64 (leNat l)))
    | (.fault e, s) => (.fault e, s)
    | (.wait, s) => (.wait, s))

/-- STV. -/
def execStv (b : Nat) (f : Bool) (w : Word) (s : State) : Out :=
  .next (s.virt b f w fun s c a => s.vwrite c a (leBytes (s.sreg b f (wSb w)).toNat 8))

/-- The atomic access of an AMO to HBM: it waits where its read or its store has to, else the 8 bytes are read once (R246, R536) and, where
`upd` gives a value, stored. -/
def State.amoHbm (s : State) (pa : Nat) (upd : Word → Option Word) : Res Word × State :=
  if s.frameBusy pa then (.wait, s)
  else if s.hbmPoisonedRange pa 8 then (.fault POISONED, s)
  else
    let old := BitVec.ofNat 64 (leNat (s.hbmBytes pa 8))
    match upd old with
    | none => (.ok old, s.checkHbmRead pa 8)
    | some v =>
      if s.writeHeld pa 8 then (.wait, s.noteHeld pa)
      else match (s.checkHbmRead pa 8).commitChecked pa (leBytes v.toNat 8) [] true with
        | (false, s) => (.fault HBM_WRITE_LOST, s)
        | (true, s) => (.ok old, s)

/-- The atomic access of an AMO to companion memory: in the cache, on a line in E or M (R170, R459). -/
def State.amoLine (s : State) (c pa : Nat) (upd : Word → Option Word) : Res Word × State :=
  match s.lineRead c pa 8 true with
  | (.fault e, s) => (.fault e, s)
  | (.wait, s) => (.wait, s)
  | (.ok l, s) =>
    let old := BitVec.ofNat 64 (leNat l)
    match upd old with
    | none => (.ok old, s)
    | some v => match s.lineWrite c pa (leBytes v.toNat 8) with
      | (.ok (), s) => (.ok old, s)
      | (.fault e, s) => (.fault e, s)
      | (.wait, s) => (.wait, s)

/-- An AMO: it needs a page that it may write, the old value is read and given to s[DST], and `upd` says what to store. -/
def State.amo (s : State) (b : Nat) (f : Bool) (w : Word) (upd : (old src dst : Word) → Option Word) : State :=
  s.virt b f w fun s c a =>
    match s.translate c a .write with
    | .error e => (.fault e, s.walkReads c a)
    | .ok (t, pa) =>
      let s := s.cacheXl c a
      let new (old : Word) : Option Word := upd old (s.sreg b f (wSb w)) (s.sreg b f (wDst w))
      match (if t = 1 then s.amoLine c pa new else s.amoHbm pa new) with
      | (.ok old, s) => (.ok (), s.setSreg b f (wDst w) old)
      | (.fault e, s) => (.fault e, s)
      | (.wait, s) => (.wait, s)

def execAmoadd (b : Nat) (f : Bool) (w : Word) (s : State) : Out := .next (s.amo b f w fun old src _ => some (old + src))
def execAmoswap (b : Nat) (f : Bool) (w : Word) (s : State) : Out := .next (s.amo b f w fun _ src _ => some src)
def execAmocas (b : Nat) (f : Bool) (w : Word) (s : State) : Out :=
  .next (s.amo b f w fun old src dst => if old = dst then some src else none)

/-! ### Branches and jumps (R172) -/

/-- Go to a target, or fault where it is not a multiple of 8 (DEDUCED, log entry 28). -/
def jumpTo (s : State) (t : Word) (taken : State → State) : Act :=
  if t.toNat % 8 ≠ 0 then .fault s PC_ALIGN else .jump (taken s) t

/-- A conditional branch; DST is RSV (DEDUCED, log entry 28). -/
def State.branch (s : State) (b : Nat) (f : Bool) (w : Word) (rel : Word → Word → Bool) : State :=
  s.issue b f w fun s =>
    if wDst w ≠ 0 then .fault s CORE_FIELD_INVALID
    else if rel (s.sreg b f (wSa w)) (s.sreg b f (wSb w)) then jumpTo s ((s.cset b f).pc + 8 * wSimm w) id
    else .retire s

def execBeq (b : Nat) (f : Bool) (w : Word) (s : State) : Out := .next (s.branch b f w fun x y => x == y)
def execBne (b : Nat) (f : Bool) (w : Word) (s : State) : Out := .next (s.branch b f w fun x y => x != y)
def execBlt (b : Nat) (f : Bool) (w : Word) (s : State) : Out := .next (s.branch b f w fun x y => x.slt y)
def execBge (b : Nat) (f : Bool) (w : Word) (s : State) : Out := .next (s.branch b f w fun x y => !x.slt y)
def execBltu (b : Nat) (f : Bool) (w : Word) (s : State) : Out := .next (s.branch b f w fun x y => x.ult y)
def execBgeu (b : Nat) (f : Bool) (w : Word) (s : State) : Out := .next (s.branch b f w fun x y => !x.ult y)

/-- JAL. -/
def execJal (b : Nat) (f : Bool) (w : Word) (s : State) : Out :=
  .next (s.issue b f w fun s =>
    jumpTo s ((s.cset b f).pc + 8 * wSimm w) fun s => s.setSreg b f (wDst w) ((s.cset b f).pc + 8))

/-- JALR. -/
def execJalr (b : Nat) (f : Bool) (w : Word) (s : State) : Out :=
  .next (s.issue b f w fun s =>
    jumpTo s (s.sreg b f (wSa w) + wSimm w) fun s => s.setSreg b f (wDst w) ((s.cset b f).pc + 8))

end Sys2Proof.Machine
end

