-- ==== Sys2Proof/Machine/Perturb.lean ====
section
/-!
DEFINITION. The perturbation registers (R529 to R540): their writes, and what is delivered late under them. What a perturbation
does to a unit stands with the unit.
-/

namespace Sys2Proof.Machine

/-- Credits that were delayed take effect: at a rim link, in a class of the Josil link, or at a stack, which admits the next unit. -/
def State.giveCredits (s : State) (e : Nat × Nat × Nat × Nat) : State :=
  let (_, key, cls, n) := e
  if 128 ≤ key then s
  else if key < 64 then s.modLink key fun l => { l with credits := l.credits + n }
  else s.modJosil fun j => match cls with
    | 0 => { j with crReq := j.crReq + n }
    | 1 => { j with crData := j.crData + n }
    | _ => { j with crMsg := j.crMsg + n }

/-- Every delayed credit is released (R531). -/
def State.releaseCredits (s : State) : State :=
  let l := s.credits
  State.forEach { s with credits := [] } l State.giveCredits

/-- The draws of both sequences start again (R532) (DESIGN CHOICE, log entry 11) (DESIGN CHOICE, log entry 83). -/
def State.restartDraws (s : State) : State := { s with stallDraws := 0, delayDraws := 0 }

/-- The PTB registers besides PTB_CTRL. -/
def ptbRegs : List Nat :=
  [PTB_SEED, PTB_COUNT, PTB_COUNT1] ++ (List.range 8).map PTB_STALL ++ (List.range 8).map PTB_CRED ++
    [PTB_DELAY, PTB_INJ, PTB_GEN, PTB_SKEW]

/-- A write of a PTB register: the events of this clk still use the old value (R531). -/
def State.storePtb (s : State) (a : Auth) (p : Path) (off : Nat) (v : Word) : State :=
  (if a = .debug then s.keepPtb off else s).store a p off v

/-- Credits that are held and that an entry withholds (R533), of every link and of the Josil link's classes. -/
def State.withheld (s : State) : List Nat :=
  let over_ (iface k n : Nat) : Nat := n - s.usableCredits iface k n
  (List.range 36).map (fun k => over_ 0 k (s.link k).credits) ++
    [over_ 1 0 s.josil.crReq, over_ 1 0 s.josil.crData, over_ 1 0 s.josil.crMsg]

/-- Credits that an entry begins to withhold, now that a write of a PTB register is in force, are counted (R533). -/
def State.countWithheld (s t : State) : State :=
  t.count PTB_COUNT1_CRED_DELAYED (sumNat (List.zipWith (fun x y => x - y) t.withheld s.withheld))

/-- The next clk: what was written is in force, the draws start again after a write of PTB_SEED, and withheld credits are released when
the perturbations stop (R531, R532). -/
def State.ptbApplies (s : State) : State :=
  let seeded := s.ptbOld.any (·.1 == PTB_SEED)
  let s : State := if s.ptbOld.isEmpty then s else s.countWithheld { s with ptbOld := [] }
  let s := if seeded then s.restartDraws else s
  if s.flag PTB_CTRL_EN then s else s.releaseCredits

/-- A write of PTB_CTRL: CLEAR returns the other registers to reset under the debug authority, and any other class's attempt at it is
refused, with one record for the write (R529, R541). -/
def State.writePtbCtrl (s : State) (a : Auth) (p : Path) (v : Word) : State :=
  let old := s.reg PTB_CTRL
  let s := s.storePtb a p PTB_CTRL v
  if !bitOf v.toNat 1 then s
  else if a = .debug then s.forEach ptbRegs fun s o => (s.keepPtb o).setReg o (regReset o)
  else if bitOf old.toNat 0 = bitOf v.toNat 0 then s.refuseAuth a p PTB_CTRL old v
  else s

def execPtbEnable (a : Auth) (p : Path) (v : Word) (s : State) : Out :=
  .next (s.arrives a p PTB_CTRL v fun s => s.writePtbCtrl a p v)
def execPtbClear (a : Auth) (p : Path) (v : Word) (s : State) : Out :=
  .next (s.arrives a p PTB_CTRL v fun s => if bitOf v.toNat 1 then s.writePtbCtrl a p v else s)
def execPtbSeedWrite (a : Auth) (p : Path) (v : Word) (s : State) : Out :=
  .next (s.arrives a p PTB_SEED v fun s => s.storePtb a p PTB_SEED v)

/-- A write of PTB_INJ arms the injections. -/
def execPtbInjWrite (a : Auth) (p : Path) (v : Word) (s : State) : Out :=
  .next (s.arrives a p PTB_INJ v fun s => s.storePtb a p PTB_INJ v)

/-- A write of PTB_GEN sets the packets to drop. -/
def execPtbGenWrite (a : Auth) (p : Path) (v : Word) (s : State) : Out :=
  .next (s.arrives a p PTB_GEN v fun s => s.storePtb a p PTB_GEN v)

/-- A write of PTB_SKEW: the servo uses it from the next combination on (R539). -/
def execPtbSkewWrite (a : Auth) (p : Path) (v : Word) (s : State) : Out :=
  .next (s.arrives a p PTB_SKEW v fun s => s.storePtb a p PTB_SKEW v)

/-- Delayed completion `i` is delivered at its time, in issue order among those of an ordered unit of a block (R534). -/
def execPtbDelayedCompletion (i : Nat) (s : State) : Out :=
  .next (s.whenOn fun s => match s.delayed[i]? with
    | none => s
    | some d =>
      let before := (s.delayed.take i).any fun e => e.blk == d.blk && e.unit == d.unit && orderedUnit d.unit
      if !s.powered || decide (s.now < d.dueNs) || before then s
      else State.deliver { s with delayed := s.delayed.eraseIdx i } d.tag d.idx d.f d.ticket d.word)

/-- Delayed credit `i` takes effect at its time (R533). -/
def execPtbCreditRelease (i : Nat) (s : State) : Out :=
  .next (s.whenOn fun s => match s.credits[i]? with
    | none => s
    | some e =>
      if !s.powered || decide (s.now < e.1) then s else State.giveCredits { s with credits := s.credits.eraseIdx i } e)

end Sys2Proof.Machine
end

