-- ==== Sys2Proof/Machine/Frames.lean ====
section
/-!
DEFINITION. The bytes of a rim frame (R319), of its control messages (R327, R328) and of the packets in its payload (R350), and the
parts of a frame that a far window gives back (R325).
-/

namespace Sys2Proof.Machine

/-- The 320 bytes of a frame of a type, with its PLEN and its payload. -/
def frameLayout (f : Frame) (ftype plen : Nat) (payload : List Byte) : List Byte :=
  let h := leBytes ftype 1 ++ leBytes (b2n f.nak + 2 * b2n f.replay + 4 * (f.map % 4)) 1 ++ leBytes f.seq 3 ++ leBytes f.ack 3 ++
    leBytes plen 2 ++ leBytes f.srcLink 1 ++ [0] ++ leBytes f.txTime 8 ++ List.replicate 8 0 ++ (payload ++ List.replicate 288 0).take 288
  h ++ leBytes (crc32c h).toNat 4

/-- The packets of a DATA payload. -/
def payloadOf (l : List Pkt) : List Byte := l.flatMap fun p => pktHeader p ++ p.data

/-- The bytes of a HELLO. -/
def helloPayload (h : Hello) : List Byte :=
  [1, BitVec.ofNat 8 h.state, BitVec.ofNat 8 h.link, BitVec.ofNat 8 (b2n h.far + 2 * b2n h.checked)] ++ leBytes h.fwLevel 2 ++
    [BitVec.ofNat 8 h.plMin, BitVec.ofNat 8 h.plMax] ++ leBytes h.digest 32 ++ leBytes h.session 4 ++ leBytes h.rxSession 4 ++
    leBytes h.rxNext 3 ++ [BitVec.ofNat 8 h.echoLink] ++ leBytes h.echoDigest 32 ++ leBytes h.farRttUs 2

/-- The payload of a control message. -/
def CtrlMsg.payload : CtrlMsg → List Byte
  | .hello h => helloPayload h
  | .beacon hops locked epoch time frac =>
    [2, BitVec.ofNat 8 (hops % 16 + 16 * b2n locked), 0, 0] ++ leBytes epoch 4 ++ leBytes time 8 ++ leBytes frac 4
  | .probe t1 => leBytes 3 8 ++ leBytes t1 8
  | .probeReply t1 turn => leBytes 4 8 ++ leBytes t1 8 ++ leBytes turn 8

/-- The bytes on the wire. -/
def RimOut.bytes : RimOut → List Byte
  | .data f => frameLayout f 1 (payloadOf f.pkts).length (payloadOf f.pkts)
  | .idle f => frameLayout f 0 0 []
  | .ctrl f m => frameLayout f 2 0 m.payload

/-- The packets of a payload of `n` bytes. -/
def pktsOf : (fuel : Nat) → List Byte → List Pkt
  | 0, _ => []
  | fuel + 1, l =>
    if l.length < 32 then []
    else
      let n := 32 + leNat ((l.drop 2).take 2)
      pktOf (l.take n) :: pktsOf fuel (l.drop n)

/-- The DATA frame whose bytes stand in a far window. -/
def frameFrom (l : List Byte) : Frame :=
  let at_ (o n : Nat) : Nat := leNat ((l.drop o).take n)
  ⟨at_ 2 3, at_ 5 3, bitOf (at_ 1 1) 0, bitOf (at_ 1 1) 1, at_ 1 1 / 4 % 4, at_ 10 1, at_ 12 8,
    pktsOf 9 ((l.drop 28).take (Nat.min (at_ 8 2) 288))⟩

end Sys2Proof.Machine
end

