-- ==== Sys2Proof/Machine/Rim.lean ====
section
/-!
DEFINITION. Rim links (R315 to R341): frames, acknowledgement and replay, training and the wiring check, sessions across a
retrain, fencing, transit, and the write of a link's registers. A timer of a link is a command: the model does not measure
it.
-/

namespace Sys2Proof.Machine

/-! ### States and reasons (R330, R340) -/

def rsDown : Nat := 0
def rsLight : Nat := 1
def rsLock : Nat := 2
def rsHello : Nat := 3
def rsCheck : Nat := 4
def rsUp : Nat := 5
def rsMiswired : Nat := 6
def rsLooped : Nat := 7
def rsOpen : Nat := 8
def rsIncompatible : Nat := 9
def rsFenced : Nat := 10

/-- State of a link. -/
def State.linkState (s : State) (k : Nat) : Nat := s.fld (RIM_STATUS_STATE k)

/-- Sequence number a is below b, modulo 2^24. -/
def below24 (a b : Nat) : Bool :=
  let d := (b + 2 ^ 24 - a % 2 ^ 24) % 2 ^ 24
  decide (1 ≤ d) && decide (d ≤ 2 ^ 23)

/-- A 256-bit number as four registers hold it, lowest first. -/
def State.digest (s : State) (off : Nat → Nat) : Nat :=
  (List.range 4).foldl (fun n i => n + (s.reg (off i)).toNat * 2 ^ (64 * i)) 0

/-- The device's identity digest (R485). -/
def State.ownDigest (s : State) : Nat := s.digest LID_IDENT

/-- Store a digest in four registers. -/
def State.setDigest (s : State) (off : Nat → Nat) (d : Nat) : State :=
  s.forEach (List.range 4) fun s i => s.setReg (off i) (BitVec.ofNat 64 (d / 2 ^ (64 * i)))

/-- A rim notification (R339, R340). -/
def State.rimNote (s : State) (k code before after reason n : Nat) : Note :=
  let d := match (s.link k).last with | some h => h.digest | none => 0
  ⟨none, code, 0x0700 + k, k + before * 2 ^ 8 + after * 2 ^ 16 + reason * 2 ^ 24 + n * 2 ^ 32, d / 2 ^ 64 % 2 ^ 64⟩

/-- Post a rim notification. -/
def State.rimPost (s : State) (k code before after reason n : Nat) : State :=
  (s.lastCode (RIM_STATUS_LAST_CODE k) code).post (s.rimNote k code before after reason n)

/-! ### Replay windows (R335, R355) -/

/-- The operation in flight that sent a packet: the one of its OPID whose group has the packet's destination and tag (R355, R361). -/
def State.senderOf (s : State) (pk : Pkt) : Option PlaitOp :=
  match s.plaitSlot (pk.opid % 4096) with
  | some o => if o.desc.opid == pk.opid && o.group.contains (pk.dst, pk.tag) then some o else none
  | none => none

/-- The tag of the context of the coil entry that sent a packet: an enabled one with the packet's source position and sequence. -/
def State.coilSender (s : State) (pk : Pkt) : Option Nat :=
  ((List.range 16).find? fun e => s.flag (COL_CTRL_EN e) && s.fld (COL_CTRL_POSITION e) == pk.aux % 65536 &&
    s.fld (COL_SEQ_CURRENT e) % 2 ^ 23 == pk.opid % 2 ^ 23).map fun e => s.tagOf (s.fld (COL_CTRL_CONTEXT e))

/-- A packet of a discarded window that is still needed is formed again; its port is checked as at first (R345, R355). -/
def State.resendPkt (s : State) (pk : Pkt) : State :=
  if pktCoil pk then (s.sendPkt (s.coilSender pk) pk).getD s
  else match s.senderOf pk with
    | some o => match s.sendPkt (some o.tag) pk with
      | some s => s
      | none => s.endOp (pk.opid % 4096) PLT_PORT_DENIED
    | none => s

/-- The packets of a discarded window: formed again where their operation needs them, lost where they were in transit (DEDUCED, log entry 51). -/
def State.resend (s : State) (l : List Frame) : State :=
  s.forEach (l.flatMap fun f => f.pkts) fun s pk =>
    if pk.ptype = ptCredit then s
    else if pk.src = s.fld RPT_GLOBAL_SELF then s.resendPkt pk
    else s.count RPT_COUNT_LOST_TRANSIT 1

/-- A transit packet that came in on link `k` is dropped: counted, posted with the state of that link, and its place is a credit to return
(R337, R340). -/
def State.dropTransit (s : State) (k : Nat) (pk : Pkt) : State :=
  ((s.count (RIM_COUNT1_TRANSIT_DROP k) 1).rimPost k RIM_TRANSIT_DROP (s.linkState k) (s.linkState k) 0 1).modLink k
    fun l => { l.dropFarIn pk with owed := l.owed + 1 }

/-- A link has left UP: the transit packets at a port that has no UP link any more are dropped (R344). -/
def State.dropStranded (s : State) : State :=
  s.forEach (List.range 12) fun s p =>
    let gone := (s.port p).filter fun q => q.from_.isSome && (s.upLinks q.map p).isEmpty
    (s.setPort p ((s.port p).filter fun q => !(q.from_.isSome && (s.upLinks q.map p).isEmpty))).forEach gone
      fun s q => s.dropTransit (q.from_.getD 0) q.pk

/-- Discard a link's replay window, if it has a session to lose: RIM_WINDOW_LOST, and a new session from SEQ 0. -/
def State.discardWindow (s : State) (k before after reason : Nat) : State :=
  let l := s.link k
  if l.hold.isNone && before ≠ rsUp then s
  else
    let s := s.modLink k fun l => { l with window := [], replay := [], replayAt := none, tries := [], stored := [], txSeq := 0, hold := none }
    let s := s.setFlag (RIM_STATUS_HOLDING k) false
    let s := s.setFld (RIM_SESSION_TX_SESSION k) (s.fld (RIM_SESSION_TX_SESSION k) + 1)
    (s.rimPost k RIM_WINDOW_LOST before after reason l.window.length).resend l.window

/-! ### Transitions (R330) -/

/-- Enter a state: REVERSAL clears, REASON is recorded. -/
def State.enterState (s : State) (k st reason : Nat) : State :=
  let s := s.setFld (RIM_STATUS_STATE k) st
  let s := s.setFld (RIM_STATUS_REASON k) reason
  s.setFlag (RIM_STATUS_REVERSAL k) false

/-- What a link forgets when its training ends: alignment, pending messages, the wiring check, its beacons. -/
def State.untrain (s : State) (k : Nat) : State :=
  let s := s.modLink k fun l =>
    { l with gap := false, nak := false, replay := [], replayAt := none, ctrl := [], consec := 0, probes := 0, replies := 0,
             rttMin := none, rttDone := false }
  let s := s.setFlag (RIM_STATUS_CHECKED k) false
  (s.setFld (RIM_STATUS_PLEVEL k) 0).dropSource k

/-- Go to DOWN. A link that leaves UP keeps its window and its receive state (R335). -/
def State.goDown (s : State) (k reason : Nat) : State :=
  let before := s.linkState k
  if before = rsDown then s
  else
    let s := if before = rsUp then
        let d := match (s.link k).last with | some h => (s.local, h.digest, h.link) | none => (s.local, 0, 0)
        (s.modLink k fun l => { l with hold := some d, rxHold := some d.2 }).setFlag (RIM_STATUS_HOLDING k) true
      else s
    let s := (s.untrain k).enterState k rsDown reason
    let s := s.rimPost k RIM_DOWN before rsDown reason 0
    if before = rsUp then s.dropStranded else s

/-- Go to MISWIRED, LOOPED or INCOMPATIBLE: a held window is discarded, and of the control messages only HELLO is sent. -/
def State.goWrong (s : State) (k st code reason : Nat) : State :=
  let before := s.linkState k
  let s := (s.discardWindow k before st reason).modLink k fun l => { l with ctrl := l.ctrl.filter (· == .hello) }
  let s := s.enterState k st reason
  s.rimPost k code before st reason 0

/-- Fence a link (R336). -/
def State.fenceLink (s : State) (k : Nat) : State :=
  let before := s.linkState k
  if before = rsFenced then s
  else
    let s := s.discardWindow k before rsFenced 14
    let s := (s.untrain k).modLink k fun l =>
      { l with frozenAck := l.rxNext
               rxHold := if before = rsUp then some (match l.last with | some h => (h.digest, h.link) | none => (0, 0)) else l.rxHold }
    ((s.enterState k rsFenced 14).rimPost k RIM_FENCED before rsFenced 14 0).dropStranded

/-- Lift a fence: training starts anew. -/
def State.unfenceLink (s : State) (k : Nat) : State := if s.linkState k = rsFenced then s.goDown k 14 else s

/-- Present links, for the writes to every link (R428, R429). -/
def State.linkList (s : State) : List Nat := positions 36 s.linkPresent

/-! ### Replay (R323) -/

/-- The replay limit: 0 is treated as 1. -/
def State.replayLimit (s : State) (k : Nat) : Nat := Nat.max 1 (s.fld (RIM_CTRL_REPLAY_LIMIT k))

/-- The time for which a second NAK is ignored. -/
def State.nakGuard (s : State) (k : Nat) : Nat := s.fld (FTU_PATH_RTT_NS k) + s.fld (RIM_CTRL_ACK_SLACK_NS k)

/-- Times that a frame of a link's window has been replayed. -/
def Link.triesOf (l : Link) (f : Frame) : Nat := SMap.get (fun _ => 0) l.tries f.seq

/-- Replay the window from its oldest frame, or give the link up where one of its frames has been replayed as often as the limit allows. -/
def State.startReplay (s : State) (k : Nat) : State :=
  let l := s.link k
  match l.window with
  | [] => s
  | f :: _ =>
    if l.window.any fun g => decide (s.replayLimit k ≤ l.triesOf g) then s.goDown k 11
    else (s.count (RIM_COUNT0_REPLAYS k) 1).modLink k fun l => { l with replay := l.window, replayAt := some (f.seq, s.local) }

/-- Frames below an ACK leave the window. -/
def Link.released (l : Link) (ack : Nat) : Link :=
  let inWindow (seq : Nat) : Bool := l.window.any fun f => f.seq == seq && !below24 f.seq ack
  { l with window := l.window.filter fun f => !below24 f.seq ack
           replay := l.replay.filter fun f => !below24 f.seq ack
           tries := l.tries.filter fun e => inWindow e.1
           stored := l.stored.filter fun e => inWindow e.1 }

def State.release (s : State) (k ack : Nat) : State := s.modLink k fun l => l.released ack

/-- A NAK arrives. -/
def State.nakReceived (s : State) (k ack : Nat) : State :=
  match (s.link k).replayAt with
  | some (start, t) => if !below24 start ack && decide (s.local < t + s.nakGuard k) then s else s.startReplay k
  | none => s.startReplay k

/-- Ask for a NAK, once for a gap. -/
def State.wantNak (s : State) (k : Nat) : State :=
  if (s.link k).gap then s else s.modLink k fun l => { l with gap := true, nak := true }

/-! ### Delivery and transit (R324, R337, R346) -/

/-- The map under which a received frame is routed. -/
def State.frameMap (s : State) (k : Nat) (fr : Frame) : Nat := if s.fld (RIM_STATUS_PLEVEL k) ≤ 1 then 0 else fr.map % 4

/-- Forward a transit packet, or drop it. -/
def State.forward (s : State) (k m : Nat) (pk : Pkt) : State :=
  let next : Pkt := { pk with hops := pk.hops - 1 }
  if next.hops = 0 then s.dropTransit k next
  else match s.routeOf m pk.dst with
    | none => s.dropTransit k next
    | some p =>
      if (s.upLinks m p).isEmpty then s.dropTransit k next else (s.storeFarIn k pk next).atPort p ⟨next, m, none, some k, false⟩

/-- Is a PTYPE defined? -/
def knownType (t : Nat) : Bool := decide (1 ≤ t) && decide (t ≤ 6)

/-- Deliver one packet. -/
def State.deliverPkt (s : State) (k m : Nat) (pk : Pkt) : State :=
  if !knownType pk.ptype then (s.count RPT_COUNT_LOST_TRANSIT 1).modLink k fun l => { l with owed := l.owed + 1 }
  else if pk.ptype = ptCredit then s.modLink k fun l => { l with ingress := l.ingress ++ [(pk, s.now)] }
  else if (s.link k).ingressSize ≤ s.ingressUsed k then s.count (RIM_COUNT1_RX_OVERRUN k) 1
  else if pk.dst = s.fld RPT_GLOBAL_SELF then (s.storeFarIn k pk pk).modLink k fun l => { l with ingress := l.ingress ++ [(pk, s.now)] }
  else s.forward k m pk

/-! ### Received frames (R320, R322, R333) -/

/-- A frame is discarded: counted, in CRC_FAIL and in the window of R326, in which more than ERR_LIMIT take an UP link DOWN. The frames that
CRC_FAIL counts are those that R326 does (DEDUCED, log entry 99). -/
def State.discardFrame (s : State) (k : Nat) : State :=
  let s := (s.count (RIM_COUNT0_CRC_FAIL k) 1).modLink k fun l => { l with discarded := l.discarded + 1 }
  if s.linkState k = rsUp && decide (s.fld (RIM_CTRL_ERR_LIMIT k) < (s.link k).discarded) then s.goDown k 12 else s

/-- A frame that fails R320 is discarded. -/
def State.frameBad (s : State) (k : Nat) : State := (s.modLink k fun l => { l with consec := l.consec + 1 }).discardFrame k

/-- A frame has come in: symbols of its codewords may have been corrected (R316); how many is free (DESIGN CHOICE, log entry 101). -/
def State.frameIn (s : State) (k : Nat) : State :=
  (s.count (RIM_COUNT1_FEC_CORRECTED k) (Config.fecCorrected k (s.link k).rxFrames)).modLink k fun l => { l with rxFrames := l.rxFrames + 1 }

/-- Does link `k` receive frames: present, with its unit running and light in a state after LIGHT? -/
def State.receives (s : State) (k : Nat) : Bool :=
  s.powered && s.linkPresent k && decide (rsLock ≤ s.linkState k) && decide (s.linkState k ≠ rsOpen)

/-- A frame arrives: its CRC is checked, with an injection only into the first receipt of a DATA frame (R535, R536); `act` is done with a good
one. -/
def State.rxFrame (s : State) (k : Nat) (first : Bool) (act : State → State) : State :=
  if !s.receives k then s
  else match (s.frameIn k).checkUnit .rimCrc k (!first) with
    | (some _, s) => s.frameBad k
    | (none, s) => act (s.modLink k fun l => { l with consec := 0 })

/-- The ACK and the NAK of a frame act on an UP link, whatever the frame's type (R321, R322): in any other state the window is held for the
next session's hello, or the fence ignores them (R335, R336) (DEDUCED, log entry 99). -/
def State.rxAck (s : State) (k ack : Nat) (nak : Bool) : State :=
  if s.linkState k ≠ rsUp then s
  else
    let s := s.release k ack
    if nak then s.nakReceived k ack else s

/-- A CTRL frame arrives: its ACK and NAK act, and then its message, which a fenced link ignores. -/
def State.rxCtrl (s : State) (k : Nat) (hd : CtrlHdr) (act : State → State) : State :=
  s.rxFrame k false fun s => if s.linkState k = rsFenced then s else act (s.rxAck k hd.ack hd.nak)

/-- A DATA frame on an UP link. -/
def State.rxData (s : State) (k : Nat) (fr : Frame) : State :=
  let s := s.rxAck k fr.ack fr.nak
  if s.linkState k ≠ rsUp then s
  else if fr.seq = (s.link k).rxNext then
    let s := s.forEach fr.pkts fun s pk => s.deliverPkt k (s.frameMap k fr) pk
    s.modLink k fun l => { l with rxNext := (l.rxNext + 1) % 2 ^ 24, gap := false }
  else if below24 (s.link k).rxNext fr.seq then s.wantNak k
  else s

/-- A DATA frame. -/
def execDataFrame (k : Nat) (fr : Frame) (s : State) : Out :=
  .next (s.whenOn fun s => s.rxFrame k (!fr.replay) fun s =>
    if s.linkState k = rsUp then s.rxData k fr
    else if s.linkState k = rsFenced then s.count (RIM_COUNT1_FENCED_DROP k) 1
    else s.discardFrame k)

/-- An IDLE frame. -/
def execIdleFrame (k : Nat) (fr : Frame) (s : State) : Out :=
  .next (s.whenOn fun s => s.rxFrame k false fun s =>
    let s := s.rxAck k fr.ack fr.nak
    if s.linkState k = rsUp && below24 (s.link k).rxNext fr.seq then s.wantNak k else s)

/-- A frame that fails R320, or a CTRL frame whose CTYPE is unknown (R327). -/
def execFrameCrcFail (k : Nat) (why : BadFrame) (s : State) : Out :=
  .next (
    if !s.receives k then s
    else match why with
      | .crc => (s.frameIn k).frameBad k
      | .fec => ((s.frameIn k).count (RIM_COUNT1_FEC_UNCORR k) 1).frameBad k
      | .ctype c hd =>
        if 1 ≤ c && c ≤ 4 then s else s.rxCtrl k hd fun s => s.discardFrame k)

/-- 64 frames in a row have failed. -/
def execAlignmentLost (k : Nat) (s : State) : Out :=
  .next (if s.receives k && decide (64 ≤ (s.link k).consec) && s.linkState k ≠ rsFenced then s.goDown k 13 else s)

/-- The end of a window of 1,000,000 ns: the next one counts from 0 (R326). -/
def execErrorRate (k : Nat) (s : State) : Out :=
  .next (
    if !s.powered || !s.linkPresent k then s
    else
      let past := decide (s.fld (RIM_CTRL_ERR_LIMIT k) < (s.link k).discarded)
      let s := s.modLink k fun l => { l with discarded := 0 }
      if past && s.linkState k = rsUp then s.goDown k 12 else s)

/-- The acknowledgement timer expires (R323). -/
def execAckTimeout (k : Nat) (s : State) : Out :=
  .next (
    if s.powered && s.linkIsUp k && !(s.link k).window.isEmpty then (s.count (RIM_COUNT0_TIMEOUTS k) 1).startReplay k else s)

/-! ### The wiring check (R331, R332) -/

/-- The negotiated level, or none (R332). -/
def State.negotiate (s : State) (h : Hello) : Option Nat :=
  let l := Nat.min h.plMax (s.fld RIM_GLOBAL_PLEVEL_MAX)
  if l < Nat.max h.plMin (s.fld RIM_GLOBAL_PLEVEL_MIN) then none else some l

/-- The wiring map entry of a link, where it is loaded. -/
def State.wireEntry (s : State) (k : Nat) : Option (Nat × Nat) :=
  if s.flag (RIM_WIRE_VALID k) then some (s.fld (RIM_WIRE_PEER_LINK k), s.digest (RIM_WIRE_DIGEST k)) else none

/-- A new session of the peer begins: the receiver starts at SEQ 0 and owes it the whole buffer but what is in use; what was to be returned
to the old session is dropped (R335, R352). -/
def State.newRxSession (s : State) (k session : Nat) : State :=
  let s := (s.setFld (RIM_SESSION_RX_SESSION k) session).setPort (creditPort k) []
  let used := s.ingressUsed k
  s.modLink k fun l => { l with rxNext := 0, gap := false, owed := l.ingressSize - used }

/-- The link reaches UP: windows and receive state are kept where the sessions agree (R335), else both start anew. -/
def State.goUp (s : State) (k : Nat) (h : Hello) : State :=
  let l := s.link k
  let same := match l.hold with | some (_, d, n) => d == h.digest && n == h.link | none => false
  let first := match l.window.head? with | some f => f.seq | none => l.txSeq
  let within := (h.rxNext + 2 ^ 24 - first) % 2 ^ 24 ≤ (l.txSeq + 2 ^ 24 - first) % 2 ^ 24
  let keep := same && h.rxSession == s.fld (RIM_SESSION_TX_SESSION k) && within
  let keepRx := l.rxHold == some (h.digest, h.link) && h.session == s.fld (RIM_SESSION_RX_SESSION k)
  let s := if keep then
      let s := s.modLink k fun l =>
        let l := l.released h.rxNext
        { l with replay := l.window, replayAt := l.window.head?.map fun f => (f.seq, s.local), hold := none }
      let s := s.setFlag (RIM_STATUS_HOLDING k) false
      let s := s.count (RIM_COUNT1_RETRAINS k) 1
      (s.lastCode (RIM_STATUS_LAST_CODE k) RIM_RETRAIN).health .transient (s.rimNote k RIM_RETRAIN rsCheck rsUp 0 0)
    else
      let s := s.discardWindow k rsCheck rsUp 0
      -- a new session holds no credits, the delayed ones of the old session among them (R352)
      ({ s with credits := s.credits.filter fun c => c.2.1 != k } : State).modLink k fun l =>
                           { l with window := [], tries := [], stored := [], txSeq := 0, credits := 0, hold := none
                                    ingress := l.ingress.filter fun e => e.1.ptype != ptCredit }
  let s := if keepRx then s else s.newRxSession k h.session
  let s := s.modLink k fun l => { l with rxHold := none }
  (s.enterState k rsUp 0).rimPost k RIM_UP rsCheck rsUp 0 0

/-- Tests 5 to 10 of a link in CHECK, on the latest hello. -/
def State.checkTests (s : State) (k : Nat) : State :=
  let l := s.link k
  match l.last with
  | none => s
  | some h =>
    match l.wire with
    | none => s.setFld (RIM_STATUS_REASON k) 8
    | some (link, digest) =>
      let limit := if l.far then l.farRttUs * 1000 else 36000
      if h.digest ≠ digest then s.goWrong k rsMiswired RIM_MISWIRED 1
      else if h.link ≠ link then s.goWrong k rsMiswired RIM_MISWIRED 2
      else if !l.rttDone then s
      else if limit < s.fld (FTU_PATH_RTT_NS k) then s.goWrong k rsIncompatible RIM_INCOMPATIBLE 7
      else
        let s := s.setFlag (RIM_STATUS_CHECKED k) true
        if h.echoDigest = s.ownDigest && h.echoLink = k && h.checked then s.goUp k h else s

/-- A link in HELLO classifies its peer: tests 1 to 4 (R331). -/
def State.classify (s : State) (k : Nat) (h : Hello) : State :=
  let l := s.link k
  if h.digest = s.ownDigest then
    if h.link = k then s.goWrong k rsLooped RIM_LOOPED 4 else s.goWrong k rsMiswired RIM_MISWIRED 4
  else match s.negotiate h with
    | none => s.goWrong k rsIncompatible RIM_INCOMPATIBLE 5
    | some lv =>
      if h.far ≠ l.far || (l.far && (decide (h.farRttUs ≠ l.farRttUs) || decide (lv < 2))) then
        s.goWrong k rsIncompatible RIM_INCOMPATIBLE 6
      else
        let s := s.setFld (RIM_STATUS_PLEVEL k) lv
        let s := s.enterState k rsCheck 0
        (s.modLink k fun l => { l with probes := 0, replies := 0, rttMin := none, rttDone := false }).checkTests k

/-- A valid HELLO (R331): it is recorded, and classified in HELLO and CHECK. On an UP link a new SESSION says that the peer has discarded its
window, and starts at SEQ 0 (R335) (DEDUCED, log entry 99). -/
def execHello (k : Nat) (m : HelloIn) (s : State) : Out :=
  .next (s.whenOn fun s => s.rxCtrl k m.hd fun s =>
    let h := m.msg
    if s.linkState k < rsHello then s
    else
      let s := s.modLink k fun l => { l with last := some h }
      let s := s.setFld (RIM_STATUS_PEER_LINK k) h.link
      let s := s.setFld (RIM_STATUS_PEER_FW k) h.fwLevel
      let s := s.setDigest (RIM_PEER_DIGEST k) h.digest
      if s.linkState k = rsHello then s.classify k h
      else if s.linkState k = rsCheck then s.checkTests k
      else if s.linkState k = rsUp && decide (h.session ≠ s.fld (RIM_SESSION_RX_SESSION k)) then s.newRxSession k h.session
      else s)

/-! ### Timing messages (R18 to R20, R328, R329) -/

/-- A time beacon: used under R18, or discarded. -/
def execBeacon (k : Nat) (hd : CtrlHdr) (hops : Nat) (locked : Bool) (epoch : Nat) (time : FracTime) (s : State) : Out :=
  .next (s.whenOn fun s => s.rxCtrl k hd fun s =>
    let id := s.fld FTU_EPOCH_EPOCH_ID
    if s.linkState k = rsUp && decide (id ≠ 0) && decide (epoch = id) && locked && decide (hops < 15) then
      let here : Int := s.servo.est
      let there : Int := (time.ns * 2 ^ 32 + time.frac % 2 ^ 32 : Nat) + (s.fld (FTU_PATH_RTT_NS k) * 2 ^ 31 : Nat) + s.asymNs k * nsUnit
      s.sample k ⟨true, here - there, hops, none⟩
    else s)

/-- Queue a control message. -/
def State.pushCtrl (s : State) (k : Nat) (c : Ctrl) : State :=
  s.modLink k fun l => { l with ctrl := if l.ctrl.contains c then l.ctrl else l.ctrl ++ [c] }

/-- A PROBE: answered in CHECK and UP. The reply's TURN counts from this clk (R328). -/
def execProbe (k : Nat) (hd : CtrlHdr) (t1 : Nat) (s : State) : Out :=
  .next (s.whenOn fun s => s.rxCtrl k hd fun s =>
    if s.linkState k = rsCheck || s.linkState k = rsUp then s.pushCtrl k (.probeReply t1 s.clk) else s)

/-- The round trip is measured: the smallest value, in ns to the nearest. -/
def State.measured (s : State) (k : Nat) : State :=
  match (s.link k).rttMin with
  | none => s
  | some m =>
    let s := s.setFld (FTU_PATH_RTT_NS k) ((m * 20 + 27) / 54)
    (s.modLink k fun l => { l with rttDone := true }).checkTests k

/-- A PROBE_REPLY: a sample of the round trip. -/
def execProbeReply (k : Nat) (hd : CtrlHdr) (times : ReplyTimes) (s : State) : Out :=
  .next (s.whenOn fun s => s.rxCtrl k hd fun s =>
    if s.linkState k ≠ rsCheck || (s.link k).rttDone then s
    else
      let v := s.clk - times.t1 - times.turn
      let s := s.modLink k fun l =>
        { l with replies := l.replies + 1, rttMin := some (match l.rttMin with | some m => Nat.min m v | none => v) }
      if (s.link k).replies = 64 then s.measured k else s)

/-- Every 10,000 ns a link sends a HELLO, an UP link too: its peer may still be in CHECK (R330, R331). -/
def execHelloSend (k : Nat) (s : State) : Out :=
  .next (
    if s.powered && s.linkPresent k && [rsHello, rsCheck, rsUp, rsMiswired, rsLooped, rsIncompatible].contains (s.linkState k)
    then s.pushCtrl k .hello else s)

/-- In CHECK a PROBE every 10,000 ns, 64 in all. -/
def execProbeSend (k : Nat) (s : State) : Out :=
  .next (
    if s.powered && s.linkPresent k && s.linkState k = rsCheck && (s.link k).probes < 64 then
      (s.pushCtrl k .probe).modLink k fun l => { l with probes := l.probes + 1 }
    else s)

/-- Every BEACON_US an UP link sends a beacon. -/
def execBeaconSend (k : Nat) (s : State) : Out := .next (if s.powered && s.linkIsUp k then s.pushCtrl k .beacon else s)

/-- The limit of the probes is reached: too few replies take the link DOWN (R329) (DEDUCED, log entry 50). -/
def execProbeTimeout (k : Nat) (s : State) : Out :=
  .next (
    if s.powered && s.linkPresent k && s.linkState k = rsCheck && !(s.link k).rttDone then
      if (s.link k).replies < 16 then s.goDown k 10 else s.measured k
    else s)

/-- The peer has not echoed and checked in time: MISWIRED, HALF (R331, test 9) (DEDUCED, log entry 50). -/
def execHalfTimeout (k : Nat) (s : State) : Out :=
  .next (
    if s.powered && s.linkPresent k && s.linkState k = rsCheck && s.flag (RIM_STATUS_CHECKED k) then
      s.goWrong k rsMiswired RIM_MISWIRED 3
    else s)

/-! ### Light and training (R330) -/

/-- Is link `k` in a state, with its unit running? -/
def State.linkIn (s : State) (k st : Nat) : Bool := s.powered && s.linkPresent k && s.linkState k == st

/-- 10 ms after the entry to DOWN with EN = 1: training takes its settings, and the link goes to LIGHT. -/
def execLinkLightDelay (k : Nat) (s : State) : Out :=
  .next (
    if s.linkIn k rsDown && s.flag (RIM_CTRL_EN k) then
      let wire := s.wireEntry k
      let s := s.modLink k fun l =>
        { l with far := s.flag (RIM_CTRL_FAR k), farRttUs := s.fld (RIM_CTRL_FAR_RTT_US k)
                 farFrames := s.fld (RIM_FAR_WIN_FRAMES k), farBase := s.fld (RIM_FAR_WIN_BASE k) * 65536
                 farSlots := s.fld (RPT_FARIN_SLOTS k), farInBase := s.fld (RPT_FARIN_BASE k) * 65536, wire := wire
                 farPos := l.farPos % Nat.max 1 (s.fld (RIM_FAR_WIN_FRAMES k)) }
      s.enterState k rsLight 0
    else s)

/-- Light on all four wavelengths. -/
def execLightReceived (k : Nat) (s : State) : Out :=
  .next (
    if !s.powered || !s.linkPresent k then s
    else
      let s := s.setFld (RIM_OPTICS_RX_PWR k) (Config.rxPower k)
      if s.linkState k = rsLight then s.enterState k rsLock 0
      else if s.linkState k = rsOpen then s.enterState k rsLight 0
      else s)

/-- Light is lost. -/
def execLightLost (k : Nat) (s : State) : Out :=
  .next (
    if !s.powered || !s.linkPresent k then s
    else
      let s := s.setFld (RIM_OPTICS_RX_PWR k) 0x80808080
      if [rsDown, rsFenced, rsOpen].contains (s.linkState k) then s else s.goDown k 13)

/-- No light for OPEN_MS. -/
def execLinkOpen (k : Nat) (s : State) : Out :=
  .next (
    if s.linkIn k rsLight then
      let s := s.enterState k rsOpen 0
      let s := s.setFlag (RIM_STATUS_REVERSAL k) (s.flag (RIM_CTRL_PEER_OPEN k))
      s.rimPost k RIM_OPEN rsLight rsOpen 0 0
    else s)

/-- PCS, FEC and frame alignment are found. -/
def execPcsLock (k : Nat) (s : State) : Out := .next (if s.linkIn k rsLock then s.enterState k rsHello 0 else s)

/-- No lock within 100 ms (DEDUCED, log entry 50). -/
def execLockTimeout (k : Nat) (s : State) : Out :=
  .next (if s.linkIn k rsLock then (s.count (RIM_COUNT1_TRAIN_FAILS k) 1).goDown k 9 else s)

/-- No valid HELLO within 100 ms (DEDUCED, log entry 50). -/
def execHelloTimeout (k : Nat) (s : State) : Out := .next (if s.linkIn k rsHello then s.goDown k 10 else s)

/-- HOLD_MS expires before UP: the window is discarded, and RX_NEXT and RX_SESSION are kept no longer (R335) (DEDUCED, log entry 50). -/
def execHoldExpire (k : Nat) (s : State) : Out :=
  .next (
    if s.powered && s.linkPresent k && s.linkState k ≠ rsUp then
      let s := if (s.link k).hold.isSome then s.discardWindow k (s.linkState k) (s.linkState k) 15 else s
      if (s.link k).rxHold.isSome then
        (s.setFld (RIM_SESSION_RX_SESSION k) 0).modLink k fun l => { l with rxHold := none, rxNext := 0 }
      else s
    else s)

/-! ### Transmission (R319, R321, R344, R352) -/

/-- The hello that a link sends. -/
def State.ownHello (s : State) (k : Nat) : Hello :=
  let l := s.link k
  { state := s.linkState k, link := k, far := l.far, checked := s.flag (RIM_STATUS_CHECKED k), fwLevel := s.fld DIM_ID_FW_LEVEL,
    plMin := s.fld RIM_GLOBAL_PLEVEL_MIN, plMax := s.fld RIM_GLOBAL_PLEVEL_MAX, digest := s.ownDigest,
    session := s.fld (RIM_SESSION_TX_SESSION k), rxSession := s.fld (RIM_SESSION_RX_SESSION k), rxNext := l.rxNext,
    echoLink := match l.last with | some h => h.link | none => 0xFF,
    echoDigest := match l.last with | some h => h.digest | none => 0,
    farRttUs := if l.far then l.farRttUs else 0 }

/-- The order of pending control messages: beacon, probe, hello (R338). -/
def Ctrl.rank : Ctrl → Nat
  | .beacon => 0
  | .probe => 1
  | .hello => 2
  | .probeReply _ _ => 3

/-- The control message that goes first. -/
def firstCtrl (l : List Ctrl) : Option Ctrl :=
  l.foldl (fun r c => match r with | none => some c | some d => if c.rank < d.rank then some c else some d) none

/-- What a control message says when it is sent. -/
def State.ctrlMsg (s : State) (k : Nat) : Ctrl → CtrlMsg
  | .beacon => .beacon (s.fld FTU_STATUS_HOPS) (s.flag FTU_STATUS_LOCKED) (s.fld FTU_EPOCH_EPOCH_ID) s.now (s.servo.est % 2 ^ 32)
  | .probe => .probe s.clk
  | .hello => .hello (s.ownHello k)
  | .probeReply t1 at_ => .probeReply t1 (s.clk - at_)

/-- The MAP field of a frame that is formed now (R332, R347). -/
def State.mapField (s : State) (k : Nat) : Nat := if s.fld (RIM_STATUS_PLEVEL k) ≤ 1 then 0 else s.fld RPT_GLOBAL_ACTIVE

/-- The header of a frame without packets: SEQ is 0 in a CTRL frame. -/
def State.headerOut (s : State) (k seq ack : Nat) : Frame := ⟨seq, ack, (s.link k).nak, false, s.mapField k, k, s.now, []⟩

/-- The frame of a control message. -/
def State.ctrlOut (s : State) (k : Nat) (c : Ctrl) : RimOut := .ctrl (s.headerOut k 0 (s.link k).rxNext) (s.ctrlMsg k c)

/-- Put a frame on the wire. -/
def State.transmit (s : State) (k : Nat) (o : RimOut) : State := s.modLink k fun l => { l with out := l.out ++ [o] }

/-- The NAK of an outgoing frame is sent. -/
def State.nakSent (s : State) (k : Nat) : State :=
  if (s.link k).nak then (s.count (RIM_COUNT0_NAK_SENT k) 1).modLink k fun l => { l with nak := false } else s

/-- The packets at the head of a queue that one frame takes: of one map, within 288 bytes, within the credits. -/
def frameTake : (bytes credits map : Nat) → List QPkt → List QPkt
  | _, _, _, [] => []
  | bytes, credits, map, q :: l =>
    if q.map = map && pktBytes q.pk ≤ bytes && 0 < credits then q :: frameTake (bytes - pktBytes q.pk) (credits - 1) map l else []

/-- The requester of a port's arbiter that a packet belongs to (R259): transit, the coil engine or the plait engine. -/
def QPkt.requester (q : QPkt) : Nat := if q.from_.isSome then 11 else if pktCoil q.pk then 7 else 5

/-- The packets of a port in the order in which they leave: those of the requester that holds the grant of the port's arbiter, where it has
any, and otherwise as they wait (R321, R337) (DEDUCED, log entry 99). -/
def State.portTurn (s : State) (p : Nat) : List QPkt :=
  let l := s.port p
  match (s.arb (SCH_ARB_CFG (5 + p))).owner with
  | some n =>
    let own := l.filter fun q => q.requester == n
    if own.isEmpty then l else own
  | none => l

/-- The port whose next packet leaves on link `k` now. -/
def State.readyPort (s : State) (k : Nat) : Option Nat :=
  if s.usableCredits 0 k (s.link k).credits = 0 then none
  else (List.range 12).find? fun p =>
    match s.portTurn p with
    | q :: _ => s.bestLink q.map p == some k
    | [] => false

/-- The packets of the next new DATA frame: CREDIT packets first, then those of a port (DESIGN CHOICE, log entry 17). -/
def State.nextPackets (s : State) (k : Nat) : List QPkt × State :=
  match s.port (creditPort k) with
  | q :: l => ([q], s.setPort (creditPort k) l)
  | [] =>
    match s.readyPort k with
    | none => ([], s)
    | some p =>
      let l := s.portTurn p
      let qs := frameTake 288 (s.usableCredits 0 k (s.link k).credits) (match l with | q :: _ => q.map | [] => 0) l
      let s := s.setPort p (qs.foldl (fun l q => l.erase q) (s.port p))
      let s := s.modLink k fun x => { x with credits := x.credits - qs.length }
      qs.foldl (fun r q => match q.from_ with
        | some j =>
          let x := r.2.readFarIn j q.pk
          (r.1 ++ [{ q with pk := x.1 }], x.2.modLink j fun x => { x with owed := x.owed + 1 })
        | none => (r.1 ++ [q], r.2.doorbellSent q.pk)) ([], s)

/-- An IDLE frame. -/
def State.idleOut (s : State) (k ack : Nat) : RimOut := .idle (s.headerOut k (s.link k).txSeq ack)

/-- A slot that may take a control message, of which 1 in 64 does, takes the first that is pending; any other goes to `other` (R321, R338). -/
def State.ctrlSlot (s : State) (k : Nat) (other : State → State) : State :=
  let l := s.link k
  match (if 63 ≤ l.sinceCtrl then firstCtrl l.ctrl else none) with
  | some c =>
    ((s.transmit k (s.ctrlOut k c)).nakSent k).modLink k fun l => { l with ctrl := l.ctrl.erase c, sinceCtrl := 0 }
  | none => other (s.modLink k fun l => { l with sinceCtrl := Nat.min 64 (l.sinceCtrl + 1) })

/-- A frame that has been formed on a far link is written once into its far window in HBM (R325). -/
def State.farStore (s : State) (k : Nat) (f : Frame) : State :=
  let l := s.link k
  if !l.far then s
  else
    let a := l.farBase + 320 * l.farPos
    (s.writeHbm a (RimOut.data f).bytes).modLink k fun l =>
      { l with stored := SMap.set (fun _ => 0) l.stored f.seq (a + 1), farPos := (l.farPos + 1) % Nat.max 1 l.farFrames }

/-- The frame that a replay sends: one of a far window is read back from HBM, but for the fields that every sending sets (R325). -/
def State.replayFrame (s : State) (k : Nat) (f : Frame) : Frame × State :=
  match SMap.get (fun _ => 0) (s.link k).stored f.seq with
  | 0 => (f, s)
  | a + 1 =>
    let s := s.checkHbmRead a 320
    (frameFrom (s.hbmBytes a 320), s)

/-- A frame slot of an UP link. -/
def State.upSlot (s : State) (k : Nat) : State :=
  s.ctrlSlot k fun s =>
    let l := s.link k
    match l.replay with
    | f :: rest =>
      let r := s.replayFrame k f
      ((r.2.transmit k (.data { r.1 with replay := true, ack := l.rxNext, nak := l.nak })).nakSent k).modLink k fun l =>
        { l with replay := rest, tries := SMap.modify (fun _ => 0) l.tries f.seq (· + 1) }
    | [] =>
      if l.windowSize ≤ l.window.length then (s.transmit k (s.idleOut k l.rxNext)).nakSent k
      else
        match s.nextPackets k with
        | ([], s) => (s.transmit k (s.idleOut k l.rxNext)).nakSent k
        | (qs, s) =>
          let f : Frame := { s.headerOut k l.txSeq l.rxNext with pkts := qs.map (·.pk) }
          (((s.transmit k (.data f)).nakSent k).farStore k f).modLink k fun l =>
            { l with window := l.window ++ [f], txSeq := (l.txSeq + 1) % 2 ^ 24 }

/-- A frame slot (R321, R330): a link whose EN is 0 transmits nothing, fenced or not (R316). -/
def execFrameSlot (k : Nat) (s : State) : Out :=
  .next (
    if !s.powered || !s.linkPresent k || !s.flag (RIM_CTRL_EN k) then s
    else
      let st := s.linkState k
      if st = rsUp then s.upSlot k
      else if st = rsFenced then s.ctrlSlot k fun s => s.transmit k (s.idleOut k (s.link k).frozenAck)
      else s.ctrlSlot k fun s => s.transmit k (s.idleOut k (s.link k).rxNext))

/-- The receiver returns credits in a CREDIT packet (R352). -/
def execCreditReturn (k : Nat) (s : State) : Out :=
  .next (
    let n := Nat.min (s.link k).owed 65535
    if !s.powered || !s.linkIsUp k || n = 0 then s
    else
      let pk : Pkt := ⟨ptCredit, s.hopLimit, Config.creditHdr k 0 % 65536, s.fld RPT_GLOBAL_SELF,
        Config.creditHdr k 1 % 2 ^ 20, false, Config.creditHdr k 2 % 2 ^ 32, s.now, Config.creditHdr k 3 % 2 ^ 32, n * 65536, []⟩
      (s.modLink k fun l => { l with owed := l.owed - n }).atPort (creditPort k) ⟨pk, s.fld RPT_GLOBAL_ACTIVE, none, none, false⟩)

/-- A CREDIT packet returns credits to the link; it takes no border check. -/
def execCreditPacket (k : Nat) (pk : Pkt) (s : State) : Out :=
  .next (
    if !s.powered || pk.ptype ≠ ptCredit then s
    else match s.takeIngress k pk with
      | (none, _) => s
      | (some _, s) => s.linkCredits k (pk.aux / 65536 % 65536))

/-! ### Register writes -/

/-- The largest round trip among enabled links (RTT_MAX_US). -/
def State.setRttMax (s : State) : State :=
  let l := (s.linkList.filter fun k => s.flag (RIM_CTRL_EN k)).map fun k =>
    if s.flag (RIM_CTRL_FAR k) then s.fld (RIM_CTRL_FAR_RTT_US k) else 36
  s.setFld RIM_GLOBAL_RTT_MAX_US (if l.isEmpty then 36 else l.foldl Nat.max 0)

/-- Is the far setup that a write of CTRL names valid (R325, R352)? -/
def State.farValid (s : State) (k v : Nat) : Bool :=
  let frames := s.fld (RIM_FAR_WIN_FRAMES k)
  let slots := s.fld (RPT_FARIN_SLOTS k)
  let rtt := bits v 63 48
  s.flag DIM_UNITS_FAR_MODE && decide (1 ≤ frames) && decide (frames ≤ 524288) &&
    decide (s.fld (RIM_FAR_WIN_BASE k) * 65536 + 320 * frames ≤ usableEnd) &&
    decide (1 ≤ slots) && decide (slots ≤ 524288) && decide (s.fld (RPT_FARIN_BASE k) * 65536 + 288 * slots ≤ usableEnd) &&
    decide (1 ≤ rtt) && decide (rtt ≤ s.fld DIM_FABRIC_FAR_RTT_US)

/-- A write of RIM[k].CTRL: FENCE, then EN = 0, then RETRAIN, then UNFENCE act (R325, R330, R336, R338). PEER_OPEN while OPEN is reported as
a probable reversal (R334). -/
def State.writeRimCtrl (s : State) (a : Auth) (p : Path) (k : Nat) (v : Word) : State :=
  s.arrives a p (RIM_CTRL k) v fun s =>
    let n := v.toNat
    let may := ownAllows .op a (RIM_CTRL k) || (decide (a = .firmware) && !s.ready)
    if may && bitOf n 0 && bitOf n 1 && !s.farValid k n then
      -- EN is left at 0 (R325): a link that was enabled goes dark (DEDUCED, log entry 99)
      let s := ((s.refuse a p (RIM_CTRL k) v).setFlag (RIM_CTRL_EN k) false).setRttMax
      let s := if s.linkState k = rsFenced then s else s.goDown k 14
      s.setFld (RIM_STATUS_LAST_CODE k) RIM_CFG_INVALID
    else
      let s := s.storeWith a p (RIM_CTRL k) v (fun f => ownAllows f.own a (RIM_CTRL k) || (decide (a = .firmware) && !s.ready))
        fun m => if s.flag DIM_UNITS_FAR_MODE then m else withBits m 1 1 0
      if !may then s
      else
        let s := s.setRttMax
        let s := if bitOf n 5 then s.fenceLink k else s
        let s := if !bitOf n 0 && s.linkState k ≠ rsFenced then s.goDown k 14 else s
        let s := if bitOf n 4 && s.linkState k ≠ rsFenced then s.goDown k 14 else s
        let s := if bitOf n 6 && !bitOf n 5 then s.unfenceLink k else s
        if s.linkState k = rsOpen then
          let s' := s.setFlag (RIM_STATUS_REVERSAL k) (bitOf n 7)
          if bitOf n 7 && !s.flag (RIM_STATUS_REVERSAL k) then s'.rimPost k RIM_OPEN rsOpen rsOpen 0 0 else s'
        else s

def execLinkEnable (a : Auth) (p : Path) (k : Nat) (v : Word) (s : State) : Out :=
  .next (if bitOf v.toNat 0 then s.writeRimCtrl a p k v else s)
def execLinkDisable (a : Auth) (p : Path) (k : Nat) (v : Word) (s : State) : Out :=
  .next (if bitOf v.toNat 0 then s else s.writeRimCtrl a p k v)
def execLinkFence (a : Auth) (p : Path) (k : Nat) (v : Word) (s : State) : Out :=
  .next (if bitOf v.toNat 5 then s.writeRimCtrl a p k v else s)
def execLinkUnfence (a : Auth) (p : Path) (k : Nat) (v : Word) (s : State) : Out :=
  .next (if bitOf v.toNat 6 then s.writeRimCtrl a p k v else s)
def execLinkRetrain (a : Auth) (p : Path) (k : Nat) (v : Word) (s : State) : Out :=
  .next (if bitOf v.toNat 4 then s.writeRimCtrl a p k v else s)

/-- A write that concerns PEER_OPEN (R334). -/
def execPeerOpenWrite (a : Auth) (p : Path) (k : Nat) (v : Word) (s : State) : Out := .next (s.writeRimCtrl a p k v)

/-- A write of RIM[k].WIRE: with VALID = 1 in CHECK without a map the tests go on at 6 (R331). -/
def execWireWrite (a : Auth) (p : Path) (k : Nat) (v : Word) (s : State) : Out :=
  .next (s.arrives a p (RIM_WIRE k) v fun s =>
    let s := s.store a p (RIM_WIRE k) v
    if s.linkState k = rsCheck && (s.link k).wire.isNone && (s.wireEntry k).isSome then
      let wire := s.wireEntry k
      (s.modLink k fun l => { l with wire := wire }).checkTests k
    else s)

/-- A write of RIM_GLOBAL: the level range is kept within what the device supports (R332). -/
def State.writeRimGlobal (s : State) (a : Auth) (p : Path) (v : Word) : State :=
  s.storeWith a p RIM_GLOBAL v (fun f => ownAllows f.own a RIM_GLOBAL) fun n =>
    let n := withBits n 63 56 (Nat.max 1 (bits n 63 56))
    withBits n 55 48 (Nat.min 2 (bits n 55 48))

end Sys2Proof.Machine
end

