-- ==== Sys2Proof/Machine/PortMap.lean ====
section
/-!
DEFINITION. Bundle maps (R343, R346 to R349): which map is in use, writes of port masks and route entries, and the switch of
maps.
-/

namespace Sys2Proof.Machine

/-- Is map `m` in use: active, or carried by a packet queued at a port or by a frame in a replay window (R346)? CREDIT packets are not routed,
and carry none. -/
def State.mapInUse (s : State) (m : Nat) : Bool :=
  s.fld RPT_GLOBAL_ACTIVE == m || s.ports.any (fun e => decide (e.1 ≤ noPort) && e.2.any fun q => q.map == m) ||
    s.links.any fun e => e.2.window.any fun f => f.map == m

/-- RPT_MAP_REFUSED: counted and journaled. -/
def State.mapRefused (s : State) (a : Auth) (p : Path) (off : Nat) (v : Word) : State :=
  ((s.refuse a p off v).lastCode RPT_GLOBAL_LAST_CODE RPT_MAP_REFUSED).count RPT_COUNT_REFUSED 1

/-- A write of a port's link mask (R343, R346). -/
def execPortMapWrite (a : Auth) (p : Path) (m port : Nat) (v : Word) (s : State) : Out :=
  .next (s.arrives a p (RPT_MAP_PORT m port) v fun s =>
    let twice := (List.range 12).any fun q => q != port && decide (s.fld (RPT_MAP_PORT_LINKS m q) &&& bits v.toNat 35 0 ≠ 0)
    if ownAllows .op a (RPT_MAP_PORT m port) && (s.mapInUse m || twice) then s.mapRefused a p (RPT_MAP_PORT m port) v
    else s.store a p (RPT_MAP_PORT m port) v)

/-- The route entry that RPT_RT_SEL selects, as RPT_RT_DATA shows it. -/
def State.rtData (s : State) : Nat := s.routeEntry (s.fld RPT_RT_SEL_MAP) (s.fld RPT_RT_SEL_DEST)

/-- A write of RPT_RT_DATA: PORT 12 to 15 is written as VALID = 0 (R346). -/
def execRtDataWrite (a : Auth) (p : Path) (v : Word) (s : State) : Out :=
  .next (s.arrives a p RPT_RT_DATA v fun s =>
    let m := s.fld RPT_RT_SEL_MAP
    let s := s.setReg RPT_RT_DATA (BitVec.ofNat 64 s.rtData)
    if ownAllows .op a RPT_RT_DATA && s.mapInUse m then s.mapRefused a p RPT_RT_DATA v
    else
      let s := s.storeWith a p RPT_RT_DATA v (fun f => ownAllows f.own a RPT_RT_DATA) fun n =>
        if 12 ≤ n % 16 then withBits n 7 7 0 else n
      let e := (s.reg RPT_RT_DATA).toNat
      { s with routes := SMap.set (fun _ => 0) s.routes (m * 65536 + s.fld RPT_RT_SEL_DEST) (bits e 7 7 * 128 + e % 16) })

/-! ### The switch (R347 to R349) -/

/-- Route a packet again under map `m` (DEDUCED, log entry 51). -/
def State.reroute (s : State) (m : Nat) (q : QPkt) : State :=
  let q' : QPkt := { q with map := m, old := true }
  match q.from_ with
  | some k =>
    match s.routeOf m q.pk.dst with
    | none => s.dropTransit k q.pk
    | some p => if (s.upLinks m p).isEmpty then s.dropTransit k q.pk else s.atPort p q'
  | none =>
    match s.routeOf m q.pk.dst with
    | none => s.atPort noPort q'
    | some p =>
      if s.portAllowed q.ctxTag p || pktCoil q.pk then s.atPort p q'
      else match s.plaitSlot (q.pk.opid % 4096) with
        | some o => if o.desc.opid = q.pk.opid && some o.tag = q.ctxTag then s.endOp (q.pk.opid % 4096) PLT_PORT_DENIED else s
        | none => s

/-- Switch to map `m` (DEDUCED, log entry 51). -/
def State.switchMap (s : State) (m : Nat) : State :=
  let s := s.count RPT_COUNT_SWITCHES 1
  if s.fld RPT_GLOBAL_ACTIVE = m then s
  else
    let s := s.setFld RPT_GLOBAL_ACTIVE m
    let queued := (List.range 13).flatMap s.port
    let s := s.forEach (List.range 13) fun s p => s.setPort p []
    let s := s.setFlag RPT_GLOBAL_SWITCHING true
    s.forEach queued fun s q => s.reroute m q

/-- RPT_GLOBAL as it reads: INUSE is that of now (R346). -/
def State.rptGlobal (s : State) : Nat :=
  withBits (s.reg RPT_GLOBAL).toNat 39 36 ((List.range 4).foldl (fun n m => n + b2n (s.mapInUse m) * 2 ^ m) 0)

/-- A write of RPT_GLOBAL: SELF is locked while a partition exists (R342); SWITCH acts after the write. -/
def State.writeRptGlobal (s : State) (a : Auth) (p : Path) (v : Word) : State :=
  s.arrives a p RPT_GLOBAL v fun s =>
    let free := s.partList.isEmpty
    let s := s.setReg RPT_GLOBAL (BitVec.ofNat 64 s.rptGlobal)
    let s := s.storeWith a p RPT_GLOBAL v fun f => ownAllows f.own a RPT_GLOBAL && (free || f.hi != 15)
    if bitOf v.toNat 20 && ownAllows .op a RPT_GLOBAL then s.switchMap (s.fld RPT_GLOBAL_NEXT) else s

/-- The row of a write that sets SWITCH. -/
def execMapSwitch (a : Auth) (p : Path) (v : Word) (s : State) : Out :=
  .next (if bitOf v.toNat 20 then s.writeRptGlobal a p v else s)

/-- Has every packet left its port that was queued at the switch, or that has been routed under another map than the active one, as transit
in frames of the old map is (R346, R348)? -/
def State.switchDrained (s : State) : Bool :=
  s.ports.all fun e => decide (noPort < e.1) || e.2.all fun q => !q.old && q.map == s.fld RPT_GLOBAL_ACTIVE

/-- No packet routed under the old map is queued at any port. -/
def execMapSwitchDrained (s : State) : Out :=
  .next (if s.powered && s.flag RPT_GLOBAL_SWITCHING && s.switchDrained then s.setFlag RPT_GLOBAL_SWITCHING false else s)

end Sys2Proof.Machine
end

