-- ==== Sys2Proof/Machine/Coil.lean ====
section
/-!
DEFINITION. Coil rings (R385 to R403): the validation of an entry, checkpoints with their three roles, commit, abort and discard,
restore, park and dissolve, and the entries' registers.
-/

namespace Sys2Proof.Machine

/-! ### The entry (R385 to R388) -/

def csFree : Nat := 0
def csFullNeeded : Nat := 1
def csActive : Nat := 2
def csWindow : Nat := 3
def csAborted : Nat := 4
def csVoid : Nat := 5
def csRestoring : Nat := 6
def csParked : Nat := 7

/-- Bytes of an image page. -/
def page : Nat := 2 ^ 21

def State.coilState (s : State) (e : Nat) : Nat := s.fld (COL_STATUS_STATE e)
def State.coilR (s : State) (e : Nat) : Nat := s.fld (COL_CTRL_SIZE e)
def State.coilPos (s : State) (e : Nat) : Nat := s.fld (COL_CTRL_POSITION e)
def State.coilN (s : State) (e : Nat) : Nat := s.fld (COL_IMAGE_PAGES e)

/-- The successor and the predecessor of this member. -/
def State.coilSucc (s : State) (e : Nat) : Nat := (s.coilPos e + 1) % Nat.max 1 (s.coilR e)
def State.coilPred (s : State) (e : Nat) : Nat := (s.coilPos e + s.coilR e - 1) % Nat.max 1 (s.coilR e)

/-- parity_home() (R388): the position of the holder and its parity page. -/
def parityHome (r k n : Nat) : Nat × Nat :=
  let g := r / 2
  let j := (k / 2 + 2 + n % (g - 2)) % g
  (2 * j + k % 2, n / (g - 2))

/-- The page of member `k` whose parity lies on position `h` in parity page `row`. -/
def pageOfParity (r k h row : Nat) : Nat :=
  let g := r / 2
  row * (g - 2) + (h / 2 + 2 * g - k / 2 - 2) % g

/-- Pages of the parity area. -/
def parityPages (r n : Nat) : Nat := ceilDiv n (r / 2 - 2)

/-- Entry `k` of the member table (R386). -/
def State.coilMember (s : State) (e k : Nat) : Nat := leNat (s.hbmBytes (s.fld (COL_MEMBERS_BASE e) * 4096 + 8 * k) 8)

/-- The extents that the table gives for `n` pages, or none where it is short or holds a reserved bit (DEDUCED, log entry 61). -/
def extentsOf : (fuel n : Nat) → List Nat → Option (List (Nat × Nat))
  | 0, n, _ => if n = 0 then some [] else none
  | _, 0, _ => some []
  | _, _, [] => none
  | fuel + 1, n, w :: l =>
    if w % 2 ^ 21 ≠ 0 || bitOf w 39 then none
    else
      let k := Nat.min n (bits w 63 40)
      (extentsOf fuel (n - k) l).map fun es => if k = 0 then es else (k, bits w 38 21 * page) :: es

/-- The extents of an entry. -/
def State.coilExtents (s : State) (e : Nat) : Option (List (Nat × Nat)) :=
  extentsOf 64 (s.coilN e) ((List.range 64).map fun i => leNat (s.hbmBytes (s.fld (COL_IMAGE_BASE e) * 4096 + 8 * i) 8))

/-- The areas of an entry: base and bytes of mirror, parity, stage and control. -/
def State.coilAreas (s : State) (e : Nat) : List (Nat × Nat) :=
  [(s.fld (COL_MIRROR_BASE e) * page, s.coilN e * page),
   (s.fld (COL_PARITY_BASE e) * page, parityPages (s.coilR e) (s.coilN e) * page),
   (s.fld (COL_STAGE_BASE e) * page, s.fld (COL_STAGE_PAGES e) * page),
   (s.fld (COL_CONTROL_BASE e) * page, page)]

/-- The ranges that an enabled entry holds, an empty one being none: a parked one only its mirror area (R403). -/
def State.coilRanges (s : State) (e : Nat) : List (Nat × Nat) :=
  if s.coilState e = csParked then (s.coilAreas e).take 1
  else (s.coil e).extents.map (fun x => (x.2, x.1 * page)) ++ (s.coilAreas e).filter fun x => x.2 != 0

/-- Do ranges of a list overlap one another? -/
def selfOverlap : List (Nat × Nat) → Bool
  | [] => false
  | (a, n) :: l => (l.any fun (b, m) => overlaps a n b m) || selfOverlap l

/-- Is an entry valid as its registers and tables stand (R387)? -/
def State.coilValid (s : State) (e : Nat) : Bool :=
  let r := s.coilR e
  let p := s.fld (COL_CTRL_PART e)
  let c := s.fld (COL_CTRL_CONTEXT e)
  if r % 2 ≠ 0 || r < 6 || 16 < r || r ≤ s.coilPos e || s.coilN e = 0 ||
      (s.flag (COL_CTRL_ATOMIC e) && s.fld (COL_STAGE_PAGES e) = 0) || !s.partExists p then false
  else match s.coilExtents e with
    | none => false
    | some es =>
      let own := es.map (fun x => (x.2, x.1 * page)) ++ (s.coilAreas e).filter fun x => x.2 != 0
      let lo := s.fld (SCH_PART_HBM_BASE p) * 65536
      let hi := lo + s.fld (SCH_PART_HBM_SIZE p) * 65536
      let w := s.coilMember e (s.coilPos e)
      (own.all fun (a, n) => decide (lo ≤ a) && decide (a + n ≤ hi)) && !selfOverlap own &&
        ((List.range 16).all fun o => o == e || !s.flag (COL_CTRL_EN o) ||
          (s.coilRanges o).all fun (b, m) => own.all fun (a, n) => !overlaps a n b m) &&
        decide (w % 65536 = s.fld RPT_GLOBAL_SELF) && decide (w / 65536 % 2 ^ 20 = s.tagOf c)

/-! ### Packets (R393) -/

/-- A coil packet to position `k`; AUX carries this member's position as the source rank (DESIGN CHOICE, log entry 60). -/
def State.coilPkt (s : State) (e kind k offset : Nat) (poison : Bool) (data : List Byte) : Pkt :=
  let w := s.coilMember e k
  ⟨ptWrite, s.hopLimit, w % 65536, s.fld RPT_GLOBAL_SELF, w / 65536 % 2 ^ 20, poison,
    2 ^ 31 + kind * 2 ^ 27 + w / 2 ^ 36 % 16 * 2 ^ 23 + s.fld (COL_SEQ_CURRENT e) % 2 ^ 23, s.now, offset, s.coilPos e, data⟩

def ckPage : Nat := 0
def ckDelta : Nat := 1
def ckAck : Nat := 2
def ckReady : Nat := 3
def ckEnd : Nat := 4
def ckRestoreReq : Nat := 5
def ckRestorePage : Nat := 6

/-- Send a coil packet of an entry, for its context: a bump of it discards the packet while it is in no frame (R414). -/
def State.coilSend (s : State) (e : Nat) (pk : Pkt) : State := (s.sendPkt (some (s.tagOf (s.fld (COL_CTRL_CONTEXT e)))) pk).getD s

/-- Is the member table of an entry in a frame under test (R247)? -/
def State.membersBusy (s : State) (e : Nat) : Bool := s.testIn (s.fld (COL_MEMBERS_BASE e) * 4096) 128

/-- Read a 256-byte piece of HBM with its poison. -/
def State.coilRead (s : State) (a : Nat) : (List Byte × Bool) × State :=
  let s := s.checkHbmRead a 256
  ((s.hbmBytes a 256, s.hbmPoisoned a), s)

/-- Write a piece with its poison; mirror and parity writes set no dirty bit (R244). -/
def State.coilWrite (s : State) (a : Nat) (d : List Byte) (poison dirty : Bool) : State :=
  (s.commitChecked a d (if poison then [0] else []) dirty).2

/-- Bitwise exclusive or of two pieces. -/
def xorBytes (x y : List Byte) : List Byte := List.zipWith (· ^^^ ·) x y

/-! ### The maps (R387, R390, R391) -/

/-- The bytes of a page map. -/
def mapBytes (n : Nat) (m : SMap Bool) : List Byte :=
  (List.range (ceilDiv n 8)).map fun i => BitVec.ofNat 8 (sumNat ((List.range 8).map fun j => b2n (SMap.get (fun _ => false) m (8 * i + j)) * 2 ^ j))

/-- Write an entry's maps to its control area. -/
def State.coilMaps (s : State) (e : Nat) : State :=
  let base := s.fld (COL_CONTROL_BASE e) * page
  let n := s.coilN e
  (s.writeHbm base (mapBytes n (s.coil e).pending)).writeHbm (base + 2 ^ 20) (mapBytes n (s.coil e).snap)

/-- The image pages whose bit a map holds, ascending. -/
def mapPages (n : Nat) (m : SMap Bool) : List Nat := positions n fun i => SMap.get (fun _ => false) m i

/-- Join a second map into a first. -/
def mapOr (x y : SMap Bool) : SMap Bool := y.foldl (fun m p => if p.2 then SMap.set (fun _ => false) m p.1 true else m) x

/-- The retired bank's bits go into every enabled entry's pending map, and the bank is cleared (R390). -/
def State.retireBank (s : State) : State :=
  let old := s.fld HBM_DIRTY_CTRL_ACTIVE
  let s := s.swapDirty
  let dirty (dpa : Nat) : Bool := bitOf (s.reg (HBM_DIRTY old (dpa / page / 64))).toNat (dpa / page % 64)
  let s := s.forEach (positions 16 fun e => s.flag (COL_CTRL_EN e)) fun s e =>
    let hit := positions (s.coilN e) fun n => match imagePageDpa (s.coil e).extents n with
      | some a => dirty a
      | none => false
    if hit.isEmpty then s
    else (s.modCoil e fun c => { c with pending := hit.foldl (fun m n => SMap.set (fun _ => false) m n true) c.pending }).coilMaps e
  s.forEach (List.range (ceilDiv (usableEnd / page + 1) 64)) fun s i => s.setReg (HBM_DIRTY old i) 0

/-! ### A member's part, commit and discard (R395 to R397) -/

/-- Is this member's part complete? -/
def State.coilPartDone (s : State) (e : Nat) : Bool :=
  let c := s.coil e
  (mapPages (s.coilN e) c.snap).all (fun n => SMap.get (fun _ => false) c.acked n) && c.deltas.isEmpty &&
    match c.endCount with
    | some m => c.ackedRx == m * 8192
    | none => false

/-- Must the copy of an entry's stage wait for a frame under test (R247)? -/
def State.stageBusy (s : State) (e : Nat) : Bool :=
  (s.coil e).stagePages.zipIdx.any fun (dst, i) => s.testIn (dst * page) page || s.testIn (s.fld (COL_STAGE_BASE e) * page + i * page) page

/-- Copy the stage into the areas that its pages are for. -/
def State.copyStage (s : State) (e : Nat) : State :=
  s.forEach (s.coil e).stagePages.zipIdx fun s (dst, i) =>
    s.forEach (List.range 8192) fun s j =>
      let a := s.fld (COL_STAGE_BASE e) * page + i * page + 256 * j
      let r := s.coilRead a
      r.2.coilWrite (dst * page + 256 * j) r.1.1 r.1.2 false

/-- The member commits. -/
def State.coilDoCommit (s : State) (e : Nat) : State :=
  let before := s.coilState e
  let seq := s.fld (COL_SEQ_CURRENT e)
  let s := s.copyStage e
  let s := s.setFld (COL_SEQ_COMMITTED e) seq
  let s := s.modCoil e fun c => { c with step := s.fld (COL_STEP_STEP e), snap := [], ackCount := [], acked := [], rx := [], parityRx := [], stagePages := [], toSend := none, asked := [], full := false }
  let s := (s.setFld (COL_STATUS_STATE e) csActive).count (COL_COUNT_COMMITS e) 1
  ((s.coilMaps e).flushHeld).coilPost e COIL_COMMITTED before csActive 0 seq

/-- Commit once READY covers every position, and no frame of the copy is under test. -/
def State.coilTryCommit (s : State) (e : Nat) : State :=
  if s.coilState e = csWindow && s.allReady e && !s.stageBusy e then s.coilDoCommit e else s

/-- When the part has become complete: READY goes to every member, and this member's own is recorded. A part that becomes complete
in an aborted checkpoint is shown, and sends no READY (R396, R397) (DEDUCED, log entry 61). -/
def State.coilCheckPart (s : State) (e : Nat) : State :=
  if s.coilState e = csAborted then if s.coilPartDone e then s.setFlag (COL_STATUS_PART_DONE e) true else s
  else if s.coilState e = csWindow && !s.flag (COL_STATUS_PART_DONE e) && s.coilPartDone e then
    let s := s.setFlag (COL_STATUS_PART_DONE e) true
    let s := s.forEach ((List.range (s.coilR e)).filter (· != s.coilPos e)) fun s k =>
      s.coilSend e (s.coilPkt e ckReady k 0 false [])
    (s.setFld (COL_STATUS_READY e) (s.fld (COL_STATUS_READY e) ||| 2 ^ s.coilPos e)).coilTryCommit e
  else s

/-- Drop an aborted checkpoint (R397). -/
def State.coilDoDiscard (s : State) (e : Nat) : State :=
  let c := s.coil e
  let seq := s.fld (COL_SEQ_CURRENT e)
  let atomic := s.flag (COL_CTRL_ATOMIC e)
  let pending := if atomic && !c.full then mapOr c.pending c.snap else c.pending
  let s := s.modCoil e fun c => { c with pending := pending, snap := [], ackCount := [], acked := [], rx := [], parityRx := [], deltas := [], endCount := none, stagePages := [], toSend := none, asked := [], full := false }
  let s := s.coilMaps e
  if c.full then (s.setFld (COL_STATUS_STATE e) csFullNeeded).flushHeld
  else if atomic then (s.setFld (COL_STATUS_STATE e) csActive).flushHeld
  else ((s.setFld (COL_STATUS_STATE e) csVoid).flushHeld).coilPost e COIL_VOID csAborted csVoid 4 seq

/-! ### OPEN (R390 to R392, R394) -/

/-- Send one page of the image to the successor. -/
def State.coilSendPage (s : State) (e n : Nat) : State :=
  match imagePageDpa (s.coil e).extents n with
  | none => s
  | some a =>
    let s := s.forEach (List.range 8192) fun s j =>
      let r := s.coilRead (a + 256 * j)
      r.2.coilSend e (r.2.coilPkt e ckPage (r.2.coilSucc e) (n * 8192 + j) r.1.2 r.1.1)
    s.count (COL_COUNT_PAGES_SENT e) 1

/-- Open a checkpoint; it needs the state ACTIVE or FULL_NEEDED (R398) (DESIGN CHOICE, log entry 60). -/
def State.coilDoOpen (s : State) (e : Nat) : State :=
  let full := decide (s.coilState e = csFullNeeded)
  let s := s.retireBank
  let n := s.coilN e
  let snap := if full then (List.range n).foldl (fun m i => SMap.set (fun _ => false) m i true) [] else (s.coil e).pending
  let s := s.modCoil e fun c =>
    { c with pending := [], snap := snap, ackCount := [], acked := [], rx := [], parityRx := [], deltas := [], endCount := none, ackedRx := 0,
             stagePages := [], toSend := some (mapPages n snap), asked := [], full := full }
  let s := if full then
      (s.scrubHbm (s.fld (COL_MIRROR_BASE e) * page) (n * page)).scrubHbm (s.fld (COL_PARITY_BASE e) * page) (parityPages (s.coilR e) n * page)
    else s
  let s := (s.setFld (COL_STATUS_STATE e) csWindow).setFld (COL_STATUS_READY e) 0
  (s.setFlag (COL_STATUS_PART_DONE e) false).coilMaps e

/-- Is a page of an entry's image in a frame under test? -/
def State.imageBusy (s : State) (e n : Nat) : Bool :=
  match imagePageDpa (s.coil e).extents n with
  | some a => s.testIn a page
  | none => false

/-- The sender's next part (R392, R394): a page on which a write is held, else the lowest page left, and END with the page count when
every page has gone. It waits for a frame under test (R247). -/
def State.coilSendNext (s : State) (e : Nat) : State :=
  let c := s.coil e
  if s.membersBusy e then s
  else match c.toSend with
  | none => s
  | some [] =>
    let s := s.modCoil e fun c => { c with toSend := none }
    s.coilSend e (s.coilPkt e ckEnd (s.coilSucc e) 0 false (leBytes (mapPages (s.coilN e) c.snap).length 8))
  | some (i :: l) =>
    let n := (c.asked.find? fun n => (i :: l).contains n).getD i
    if s.imageBusy e n then s
    else (s.modCoil e fun c => { c with toSend := some ((i :: l).filter (· != n)) }).coilSendPage e n

/-- Each entry in its window sends one page, or END, in a clk, and commits where a frame under test has kept it from it (DESIGN CHOICE, log
entry 60). -/
def State.coilSenders (s : State) : State :=
  s.forEach (positions 16 fun e => s.coilState e == csWindow) fun s e => (s.coilSendNext e).coilTryCommit e

/-- Can a checkpoint be opened? -/
def State.coilOpenable (s : State) (e : Nat) : Bool := s.coilState e == csActive || s.coilState e == csFullNeeded

/-- A CKPT_OPEN trigger fires. -/
def State.coilTrigOpen (s : State) (e : Nat) : State := if s.coilOpenable e then s.coilDoOpen e else s

/-- A CKPT_CLOSE trigger fires: a member that has not committed aborts (R396). -/
def State.coilTrigClose (s : State) (e : Nat) : State := if s.coilState e = csWindow && !s.allReady e then s.coilAbort e 1 else s

/-! ### Arrivals (R393 to R395) -/

/-- A coil packet of a kind arrives; where its entry is not enabled or its sequence is not current, it is dropped and counted in STALE.
Where the entry is in none of the states that take it, it has no effect and is not counted (DESIGN CHOICE, log entry 60). `act` answers none
where a frame under test keeps the packet waiting (R247). -/
def State.coilArrive (s : State) (k : Nat) (pk : Pkt) (kind : Nat) (takes : Nat → Bool)
    (act : State → Pkt → Nat → Nat → Nat → Option State) : State :=
  let e := bits pk.opid 26 23
  if !pktCoil pk || bits pk.opid 30 27 ≠ kind then s
  else (s.arrive k pk fun s pk _ =>
    if !(s.flag (COL_CTRL_EN e) && bits pk.opid 22 0 == s.fld (COL_SEQ_CURRENT e) % 2 ^ 23) then (true, s.count (COL_COUNT_STALE e) 1)
    else if !takes (s.coilState e) then (true, s)
    else if s.membersBusy e then (false, s)
    else match act s pk e (pk.aux % 65536) pk.offset with
      | some s => (true, s)
      | none => (false, s)).2

/-- Does this checkpoint write to the stage: is it ATOMIC and not FULL? Writes there set dirty bits (R244). -/
def State.staged (s : State) (e : Nat) : Bool := s.flag (COL_CTRL_ATOMIC e) && !(s.coil e).full

/-- The stage page for a page of an area, the next free one where it has none yet; none where the stage is full. -/
def State.stageAt (s : State) (e dst : Nat) : Option Nat :=
  let l := (s.coil e).stagePages
  let i := l.findIdx (· == dst)
  if i < s.fld (COL_STAGE_PAGES e) then some (s.fld (COL_STAGE_BASE e) * page + i * page) else none

/-- The stage page is taken for a page of an area; a parity page is copied in. -/
def State.stageFor (s : State) (e dst a : Nat) (copy : Bool) : State :=
  if (s.coil e).stagePages.contains dst then s
  else
    let s := s.modCoil e fun c => { c with stagePages := c.stagePages ++ [dst] }
    if copy then s.forEach (List.range 8192) fun s j =>
        let r := s.coilRead (dst * page + 256 * j)
        r.2.coilWrite (a + 256 * j) r.1.1 r.1.2 true
      else s

/-- Where a page of an area is written in this checkpoint. -/
def State.coilTarget (s : State) (e dst : Nat) (copy : Bool) : Option (Nat × State) :=
  if s.staged e then (s.stageAt e dst).map fun a => (a, s.stageFor e dst a copy) else some (dst * page, s)

/-- Must piece `j` of a page of an area wait for a frame under test, where it is read or where it is written (R247)? -/
def State.pieceBusy (s : State) (e dst j : Nat) (copy : Bool) : Bool :=
  s.frameBusy (dst * page + 256 * j) || (s.staged e && match s.stageAt e dst with
    | some a => s.frameBusy (a + 256 * j) ||
      (copy && !(s.coil e).stagePages.contains dst && (s.testIn (dst * page) page || s.testIn a page))
    | none => false)

/-- PAGE: the mirror holder sends δ to the parity holder and keeps the new piece. -/
def execCoilPage (k : Nat) (pk : Pkt) (s : State) : Out :=
  .next (s.whenOn fun s => s.coilArrive k pk ckPage (· == csWindow) fun s pk e r off =>
    let n := off / 8192
    let j := off % 8192
    if r ≠ s.coilPred e || s.coilN e ≤ n then some s
    else
      let dst := s.fld (COL_MIRROR_BASE e) + n
      if s.pieceBusy e dst j false then none
      else
      let o := s.coilRead (dst * page + 256 * j)
      match o.2.coilTarget e dst false with
      | none => some (s.coilAbort e 2)
      | some (a, s) =>
        let h := parityHome (s.coilR e) r n
        let s := s.coilWrite (a + 256 * j) pk.data pk.poison (s.staged e)
        let s := s.modCoil e fun c => { c with rx := SMap.set (fun _ => false) c.rx off true, deltas := SMap.set (fun _ => false) c.deltas off true }
        some (s.coilSend e (s.coilPkt e ckDelta h.1 off (o.1.2 || pk.poison) (xorBytes o.1.1 pk.data))))

/-- DELTA: the parity holder adds δ to the parity page, and acknowledges it. -/
def execCoilDelta (k : Nat) (pk : Pkt) (s : State) : Out :=
  .next (s.whenOn fun s => s.coilArrive k pk ckDelta (· == csWindow) fun s pk e r off =>
    let n := off / 8192
    let j := off % 8192
    let owner := (r + s.coilR e - 1) % Nat.max 1 (s.coilR e)
    let h := parityHome (s.coilR e) owner n
    if h.1 ≠ s.coilPos e || s.coilN e ≤ n then some s
    else if s.pieceBusy e (s.fld (COL_PARITY_BASE e) + h.2) j true then none
    else
      match s.coilTarget e (s.fld (COL_PARITY_BASE e) + h.2) true with
      | none => some (s.coilAbort e 2)
      | some (a, s) =>
        let s := s.modCoil e fun c => { c with parityRx := if c.parityRx.contains h.2 then c.parityRx else c.parityRx ++ [h.2] }
        let o := s.coilRead (a + 256 * j)
        let s := o.2.coilWrite (a + 256 * j) (xorBytes o.1.1 pk.data) (o.1.2 || pk.poison) (s.staged e)
        some (s.coilSend e (s.coilPkt e ckAck r off false [])))

/-- ACK: from the successor for a page piece, from a parity holder for a δ (DESIGN CHOICE, log entry 60). One that comes in an aborted
checkpoint still ends its page's hold (R392). -/
def execCoilAck (k : Nat) (pk : Pkt) (s : State) : Out :=
  .next (s.whenOn fun s => s.coilArrive k pk ckAck (fun st => st == csWindow || st == csAborted) fun s _ e r off =>
    some (if r = s.coilSucc e then
      let n := off / 8192
      let got := SMap.get (fun _ => 0) (s.coil e).ackCount n + 1
      let s := s.modCoil e fun c => { c with ackCount := SMap.set (fun _ => 0) c.ackCount n got }
      let s := if got = 8192 then (s.modCoil e fun c => { c with acked := SMap.set (fun _ => false) c.acked n true }).flushHeld else s
      s.coilCheckPart e
    else if SMap.get (fun _ => false) (s.coil e).deltas off then
      let s := s.modCoil e fun c => { c with deltas := SMap.set (fun _ => false) c.deltas off false, ackedRx := c.ackedRx + 1 }
      (s.coilSend e (s.coilPkt e ckAck (s.coilPred e) off false [])).coilCheckPart e
    else s))

/-- READY from a member. A close in this clk has fired before it (tick), and it is late (R396). -/
def execCoilReady (k : Nat) (pk : Pkt) (s : State) : Out :=
  .next (s.whenOn fun s => s.coilArrive k pk ckReady (· == csWindow) fun s _ e r _ =>
    some (if s.coilR e ≤ r then s else (s.setFld (COL_STATUS_READY e) (s.fld (COL_STATUS_READY e) ||| 2 ^ r)).coilTryCommit e))

/-- END: the predecessor's page count (DESIGN CHOICE, log entry 60). -/
def execCoilEnd (k : Nat) (pk : Pkt) (s : State) : Out :=
  .next (s.whenOn fun s => s.coilArrive k pk ckEnd (· == csWindow) fun s pk e r _ =>
    some (if r ≠ s.coilPred e then s else (s.modCoil e fun c => { c with endCount := some (leNat pk.data) }).coilCheckPart e))

/-! ### Restore (R399) -/

/-- The members whose pages enter the parity page of this member's page `n`, with the holder first. -/
def State.paritySources (s : State) (e n : Nat) : List Nat :=
  let r := s.coilR e
  let h := parityHome r (s.coilPos e) n
  h.1 :: (List.range r).filter fun k => k % 2 == h.1 % 2 && k != h.1 && k != (h.1 + r - 2) % r && k != s.coilPos e &&
    decide (pageOfParity r k h.1 h.2 < s.coilN e)

/-- The word of R386 that names this member: a RESTORE_REQ carries it. -/
def State.coilSelf (s : State) (e : Nat) : Nat :=
  s.fld RPT_GLOBAL_SELF + s.tagOf (s.fld (COL_CTRL_CONTEXT e)) * 2 ^ 16 + e * 2 ^ 36

/-- Start a restore: every page asked of its sources. -/
def State.coilDoRestore (s : State) (e : Nat) : State :=
  let n := s.coilN e
  let c := s.coil e
  let pages := if s.flag (COL_CMD_DIRTY_ONLY e) then mapPages n (mapOr c.pending c.snap) else List.range n
  let kind := s.fld (COL_CMD_KIND e)
  let sources (i : Nat) : List Nat := if kind = 1 then s.paritySources e i else [s.coilSucc e]
  let want := pages.foldl (fun m i => (List.range 8192).foldl (fun m j => SMap.set (fun _ => 0) m (i * 8192 + j) (sources i).length) m) []
  let s := s.setFld (COL_STATUS_STATE e) csRestoring
  let s := s.modCoil e fun c => { c with want := want, lost := [] }
  let body := leBytes (s.coilSelf e) 8
  s.forEach pages fun s i => s.forEach (sources i) fun s k =>
    let pk := s.coilPkt e ckRestoreReq k (i * 8192) false body
    s.coilSend e (if kind = 2 then { pk with dst := s.fld (COL_CMD_SOURCE e) } else pk)

/-- A restore with every page arrived goes to ACTIVE. -/
def State.coilRestored (s : State) (e : Nat) : State :=
  if s.coilState e = csRestoring && (s.coil e).want.isEmpty then
    let lost := (s.coil e).lost.length
    let s := s.modCoil e fun c => { c with pending := [], lost := [] }
    ((s.setFld (COL_STATUS_STATE e) csActive).coilMaps e).coilPost e COIL_RESTORED csRestoring csActive 0 lost
  else s

/-- The page that answers a request of position `r` for its page `n`: from the parked area or the mirror to the predecessor, else the
parity page or this member's own page of it. -/
def State.restoreSource (s : State) (e r n : Nat) : Option Nat :=
  if s.coilState e = csParked || r = s.coilPred e then some (s.fld (COL_MIRROR_BASE e) * page + n * page)
  else
    let h := parityHome (s.coilR e) r n
    if h.1 = s.coilPos e then some (s.fld (COL_PARITY_BASE e) * page + h.2 * page)
    else imagePageDpa (s.coil e).extents (pageOfParity (s.coilR e) (s.coilPos e) h.1 h.2)

/-- RESTORE_REQ is answered with the pieces of the page asked for (DESIGN CHOICE, log entry 60), but by no VOID entry (R398). -/
def execCoilRestoreReq (k : Nat) (pk : Pkt) (s : State) : Out :=
  .next (s.whenOn fun s => s.coilArrive k pk ckRestoreReq (· != csVoid) fun s pk e r off =>
    let n := off / 8192
    let w := leNat pk.data
    match (if s.coilN e ≤ n then none else s.restoreSource e r n) with
    | none => some s
    | some a =>
      if s.testIn a page then none
      else some <| s.forEach (List.range 8192) fun s j =>
        let d := s.coilRead (a + 256 * j)
        let s := d.2
        s.coilSend e ⟨ptWrite, s.hopLimit, w % 65536, s.fld RPT_GLOBAL_SELF, w / 65536 % 2 ^ 20, d.1.2,
          2 ^ 31 + ckRestorePage * 2 ^ 27 + w / 2 ^ 36 % 16 * 2 ^ 23 + pk.opid % 2 ^ 23, s.now, n * 8192 + j, s.coilPos e, d.1.1⟩)

/-- RESTORE_PAGE: the first contribution of a piece is written, each later one added. A page whose source read is lost is poisoned as a
whole, and stays so under the pieces that come after. -/
def execCoilRestorePage (k : Nat) (pk : Pkt) (s : State) : Out :=
  .next (s.whenOn fun s => s.coilArrive k pk ckRestorePage (· == csRestoring) fun s pk e _ off =>
    let n := off / 8192
    let lack := SMap.get (fun _ => 0) (s.coil e).want off
    match imagePageDpa (s.coil e).extents n with
    | none => some s
    | some base =>
      if lack = 0 then some s
      else if s.frameBusy (base + 256 * (off % 8192)) then none
      else
        let a := base + 256 * (off % 8192)
        let kind := s.fld (COL_CMD_KIND e)
        let first := kind ≠ 1 || decide (lack = (s.paritySources e n).length)
        let d := if first then pk.data else xorBytes (s.hbmBytes a 256) pk.data
        let gone := SMap.get (fun _ => false) (s.coil e).lost n
        let s := s.coilWrite a d (gone || pk.poison) true
        let s := if pk.poison && !gone then
            ((s.poisonAt base ((List.range 8192).map (256 * ·))).modCoil e fun c =>
              { c with lost := SMap.set (fun _ => false) c.lost n true }).count (COL_COUNT_RESTORE_LOST e) 1
          else s
        some ((s.modCoil e fun c => { c with want := SMap.set (fun _ => 0) c.want off (lack - 1) }).coilRestored e))

/-! ### Commands (R395 to R403) -/

/-- The entry becomes FREE, or PARKED with its mirror area alone. -/
def State.coilRelease (s : State) (e : Nat) (parked : Bool) : State :=
  let s := s.modCoil e fun c => if parked then { Coil.reset with step := c.step } else .reset
  if parked then s.setFld (COL_STATUS_STATE e) csParked
  else (s.setFld (COL_STATUS_STATE e) csFree).setFlag (COL_CTRL_EN e) false

/-- Run OP of CMD: none where it is refused (DEDUCED, log entry 61). -/
def State.coilRun (s : State) (e op : Nat) : Option State :=
  let st := s.coilState e
  match op with
  | 1 => if s.coilOpenable e then some (s.coilDoOpen e) else none
  | 2 => if st = csAborted && s.flag (COL_STATUS_PART_DONE e) then some (s.coilDoCommit e) else none
  | 3 => if st = csAborted then some (s.coilDoDiscard e) else if st = csWindow && !s.allReady e then some ((s.coilAbort e 4).coilDoDiscard e) else none
  | 4 => if st = csActive || st = csFullNeeded then some ((s.coilDoRestore e).coilRestored e) else none
  | 5 => if st = csFree || st = csWindow || st = csAborted then none else some (s.coilRelease e true)
  | 6 => if st = csWindow || st = csAborted then none else some (s.coilRelease e false)
  | _ => none

/-- May a class write an entry's fields: the operator, or the driver for an entry of a partition that it owns? -/
def State.coilMay (s : State) (part : Nat) (a : Auth) (f : FieldSpec) : Bool :=
  decide (f.own = .opDr) && (decide (a = .operator) || (decide (a = .driver) && s.driverOwns part))

/-- COIL_CFG_REFUSED: journaled, and the entry's last code. -/
def State.coilRefused (s : State) (a : Auth) (p : Path) (e off : Nat) (v : Word) : State :=
  (s.refuse a p off v).lastCode (COL_STATUS_LAST_CODE e) COIL_CFG_REFUSED

/-- Does an authority command an entry: the operator, or the driver for an entry of a partition that it owns? -/
def State.coilCommands (s : State) (e : Nat) (a : Auth) : Bool :=
  decide (a = .operator) || (decide (a = .driver) && s.driverOwns (s.fld (COL_CTRL_PART e)))

/-- The operation of a command of CMD. -/
def colOp (v : Word) : Nat := bits v.toNat 59 56

/-- Must a command wait for a frame under test: COMMIT for the stage's copy, RESTORE for the member table (R247)? -/
def State.coilWaits (s : State) (e : Nat) (x : WaitCmd) : Bool :=
  s.coilCommands e x.auth && ((colOp x.new == 2 && s.stageBusy e) || (colOp x.new == 4 && s.membersBusy e))

/-- A command runs: its COMMAND record, or a REFUSED one in its place (R495, R541), and DONE. -/
def State.coilFinish (s : State) (e : Nat) (x : WaitCmd) : State :=
  let s := s.setFlag (COL_CMD_DONE e) true
  match (if s.coilCommands e x.auth then (s.commandRecord x.auth x.path (COL_CMD e) x.old x.new).coilRun e (colOp x.new) else none) with
  | some s => s.setFld (COL_CMD_RESULT e) 0
  | none =>
    ((s.setFld (COL_CMD_RESULT e) COIL_CFG_REFUSED).lastCode (COL_STATUS_LAST_CODE e) COIL_CFG_REFUSED).journal x.auth x.path jRefused
      (COL_CMD e) x.old x.new

/-- A write of CMD: a command that waits for a frame under test leaves DONE at 0, and a START is ignored then. -/
def State.writeColCmd (s : State) (a : Auth) (p : Path) (e : Nat) (v : Word) : State :=
  s.arrives a p (COL_CMD e) v fun s =>
    let old := s.reg (COL_CMD e)
    let s := s.storeWith a p (COL_CMD e) v (s.coilMay (s.fld (COL_CTRL_PART e)) a)
    let x : WaitCmd := ⟨COL_CMD e, a, p, old, BitVec.ofNat 64 ((s.reg (COL_CMD e)).toNat ||| 2 ^ 62)⟩
    if !bitOf v.toNat 62 then s
    else if !s.flag (COL_CMD_DONE e) then s.commandRecord a p (COL_CMD e) old x.new
    else if s.coilWaits e x then (s.setFlag (COL_CMD_DONE e) false).modLid fun l => { l with waits := l.waits ++ [x] }
    else s.coilFinish e x

/-- The rows of CMD: a write whose START is set and whose OP is the row's. -/
def State.coilRow (s : State) (op : Nat) (a : Auth) (p : Path) (e : Nat) (v : Word) : State :=
  if bitOf v.toNat 62 && bits v.toNat 59 56 == op then s.writeColCmd a p e v else s

def execCoilOpen (a : Auth) (p : Path) (e : Nat) (v : Word) (s : State) : Out := .next (s.coilRow 1 a p e v)
def execCoilCommit (a : Auth) (p : Path) (e : Nat) (v : Word) (s : State) : Out := .next (s.coilRow 2 a p e v)
def execCoilDiscard (a : Auth) (p : Path) (e : Nat) (v : Word) (s : State) : Out := .next (s.coilRow 3 a p e v)
def execCoilRestore (a : Auth) (p : Path) (e : Nat) (v : Word) (s : State) : Out := .next (s.coilRow 4 a p e v)
def execCoilPark (a : Auth) (p : Path) (e : Nat) (v : Word) (s : State) : Out := .next (s.coilRow 5 a p e v)
def execCoilDissolve (a : Auth) (p : Path) (e : Nat) (v : Word) (s : State) : Out := .next (s.coilRow 6 a p e v)

/-! ### Register writes of an entry -/

/-- A write of CTRL: EN = 1 validates a FREE entry, EN = 0 acts as DISSOLVE (R387) (DEDUCED, log entry 61). -/
def State.writeColCtrl (s : State) (a : Auth) (p : Path) (e : Nat) (v : Word) : State :=
  s.arrives a p (COL_CTRL e) v fun s =>
    let part := bits v.toNat 51 48
    -- the tables that EN = 1 reads wait for a frame under test (R247)
    if bitOf v.toNat 0 && s.coilState e = csFree && (s.membersBusy e || s.testIn (s.fld (COL_IMAGE_BASE e) * 4096) 512) then
      s.modLid fun l => { l with waits := l.waits ++ [⟨COL_CTRL e, a, p, 0, v⟩] }
    else
    let may := s.coilMay part a
    let s1 := s.storeWith a p (COL_CTRL e) v may
    if !(decide (a = .operator) || (decide (a = .driver) && s.driverOwns part)) then s1
    else if bitOf v.toNat 0 then
      if s.coilState e = csFree && s1.coilValid e then
        let n := s1.coilN e
        let s := s1.setFld (COL_MIRROR_PAGES e) n
        let s := s.setFld (COL_PARITY_PAGES e) (parityPages (s1.coilR e) n)
        let s := s.setFld (COL_CONTROL_PAGES e) 1
        let s := s.modCoil e fun _ => { Coil.reset with extents := (s1.coilExtents e).getD [] }
        ((s.setFld (COL_STATUS_STATE e) csFullNeeded).setFld (COL_STATUS_READY e) 0).coilMaps e
      else s.coilRefused a p e (COL_CTRL e) v
    else if s.coilState e = csWindow || s.coilState e = csAborted then s.coilRefused a p e (COL_CTRL e) v
    else if s.coilState e = csFree then s1
    else s1.coilRelease e false

/-- The row of a write that sets EN. -/
def execCoilEnable (a : Auth) (p : Path) (e : Nat) (v : Word) (s : State) : Out :=
  .next (if bitOf v.toNat 0 then s.writeColCtrl a p e v else s)

/-- A write of another register of an entry: CURRENT is locked while the entry is in WINDOW. -/
def State.writeColReg (s : State) (a : Auth) (p : Path) (e off : Nat) (v : Word) : State :=
  s.arrives a p off v fun s =>
    s.storeWith a p off v fun f => s.coilMay (s.fld (COL_CTRL_PART e)) a f && !(off == COL_SEQ e && s.coilState e == csWindow)

end Sys2Proof.Machine
end

