-- ==== Sys2Proof/Machine/Pattern.lean ====
section
/-!
DEFINITION. What a pattern test of a block finds and does (R424, R431, R434, R472): columns and bank rows are retired to spares as in
normal operation, and a block that cannot be repaired leaves service under the first cause of R431's table.
-/

namespace Sys2Proof.Machine

/-- The columns that failed: a spare that failed is no longer of use, and a logical column whose position failed is retired to a usable
spare (R78). False where one of them found no spare. -/
def State.patternColumns (s : State) (b : Nat) (cols : List Nat) : Bool × State :=
  let s := if cols.contains 128 then s.setFlag (BLK_ARR_REMAP_SPARE0_OK b) false else s
  let s := if cols.contains 129 then s.setFlag (BLK_ARR_REMAP_SPARE1_OK b) false else s
  ((List.range 128).filter fun n => cols.contains (s.posOf b n)).foldl (fun r n =>
    match r.2.remapColumn b n with
    | some t => (r.1, t.columnRetired b (r.2.reg (BLK_ARR_REMAP b)))
    | none => (false, r.2)) (true, s)

/-- The bank rows that failed, each retired to a spare row of its bank (R248); with it the rows that found none. -/
def State.patternRows (s : State) (b : Nat) (rows : List Nat) : List Nat × State :=
  rows.foldl (fun r row =>
    match r.2.rowFailed b row with
    | (true, t) => (r.1, t)
    | (false, t) => (r.1 ++ [row], t)) ([], s)

/-- The code of a bank row that has no spare left (R431). -/
def rowCause (row : Nat) : Nat := if row / 256 < 16 then OPSTORE_PARITY else ACC_PARITY

/-- A pattern test of a block ends with what it found: repairs, and the code of the first row of R431's table that applies. -/
def State.patternBlock (s : State) (x : BlockFound) : Option Nat × State :=
  let b := x.block
  let c := s.patternColumns b x.columns
  let r := c.2.patternRows b x.rows
  let s := r.2
  let cause :=
    if x.bus || !c.1 then some ARR_UNREPAIRABLE
    else if x.core then some CORE_UNREPAIRABLE
    else if x.regs then some VREG_PARITY
    else match r.1.find? (fun row => decide (row / 256 < 16)), r.1 with
      | some row, _ => some (rowCause row)
      | none, row :: _ => some (rowCause row)
      | none, [] => none
  match cause with
  | none => (none, s)
  | some code =>
    let s := if code = ARR_UNREPAIRABLE then s.setFlag (BLK_ARR_STATUS_OUT_OF_SERVICE b) true else s
    let s := if code = CORE_UNREPAIRABLE then s.setFlag (BLK_CORE_STATUS_OUT_OF_SERVICE b) true else s
    (some code, s.blockLeaves b code)

/-- The pattern tests of some blocks end; the blocks with a lasting fault are counted. -/
def State.patternTests (s : State) (l : List BlockFound) : Nat × State :=
  l.foldl (fun r x => match r.2.patternBlock x with | (some _, t) => (r.1 + 1, t) | (none, t) => (r.1, t)) (0, s)

/-- The march test of HBM finds a frame or a channel that fails (R247, R249, R434): true where it is a lasting fault. -/
def State.marchFrame (s : State) (k fr : Nat) : Bool × State :=
  ((freeSpare (s.sparesUsed k)).isNone, s.retireFrame k fr)

/-- What the march test of HBM found acts; the lasting faults are counted. -/
def State.marchTest (s : State) (frames channels : List (Nat × Nat)) : Nat × State :=
  let s := s.forEach channels fun s x => s.channelFailed x.1 x.2
  frames.foldl (fun r x => match r.2.marchFrame x.1 x.2 with | (lost, t) => (r.1 + b2n lost, t)) (channels.length, s)

end Sys2Proof.Machine
end

