-- ==== Sys2Proof/Machine/Switch.lean ====
section
/-!
DEFINITION. Residency and switching (R293 to R305, R307): choose(), LATENCY switch-ins, debt, eviction, slices, step deadlines,
and the steps of a block switch with its save and restore.
-/

namespace Sys2Proof.Machine

/-! ### Switching contexts in and out (R298, R300) -/

/-- Ns left of the slice of a partition: until its SLICE slot's TIME (DEDUCED, log entry 47). -/
def State.sliceRest (s : State) (p : Nat) : Nat :=
  let r := s.leadRegion p
  if s.flag (RGN_TRIG_CTRL_ARMED r (240 + p)) then (s.reg (RGN_TRIG_TIME r (240 + p))).toNat - s.now else 0

/-- Why a resident is switched out. -/
inductive SwitchOut
  /-- choose() did not keep it -/
  | chosen
  /-- for a LATENCY switch-in (R298) -/
  | preempt
  /-- eviction (R299) -/
  | evict
  /-- a blocked LATENCY context (R297) -/
  | blocked
  deriving DecidableEq, Repr

/-- A block's switch starts: its context leaves. One whose restore has loaded its state, and still waits, is saved again: nothing of it
has run (R300, R303). -/
def Blk.leave (k : Blk) (c now : Nat) : Blk :=
  if k.ctx = some c && k.phase = .idle then { k with phase := .stopping, stopAt := now, incoming := none }
  else if k.incoming = some c then
    if k.phase = .restoring then { k with phase := if k.ctx = some c then .saving else .scrubbing, incoming := none }
    else { k with incoming := none }
  else k

/-- A block's switch starts: a context is to come in. -/
def Blk.enter (k : Blk) (c : Nat) : Blk :=
  if k.phase = .idle then
    if k.ctx.isNone then { k with phase := .scrubbing, incoming := some c } else k
  else { k with incoming := some c }

/-- What a switch out makes of a context's account: a preemption and the debt of what is left of its slice, an eviction, or neither. -/
def Ctx.switchedOut (x : Ctx) (rest : Nat) (why : SwitchOut) : Ctx :=
  match why with
  | .preempt =>
    let y := { x with acct := { x.acct with preemptions := satU 32 (x.acct.preemptions + 1) } }
    if x.cls = 0 && rest ≠ 0 then { y with debt := satU 64 (x.debt + rest), debtAge := if x.debt = 0 then 0 else x.debtAge } else y
  | .evict => { x with acct := { x.acct with evictions := satU 32 (x.acct.evictions + 1) } }
  | _ => x

/-- Switch a resident out (R298 to R300): it is charged up to now, and its record is written back. -/
def State.switchOut (s : State) (c : Nat) (why : SwitchOut) : State :=
  let s := s.settle c
  let x := s.ctxOf c
  let x := x.switchedOut (s.sliceRest x.part * (s.homeBlocks c).length) why
  let s := s.setCtx c { x with st := .swapped, stallSince := none }
  let s := s.forEach (s.homeBlocks c) fun s b => s.modBlk b (·.leave c s.now)
  let s := s.modCtx c fun x => { x with runSince := if s.runnable c then some s.now else none }
  s.writeRecord c

/-- Switch a context in: charging starts in this clk. -/
def State.switchIn (s : State) (c : Nat) : State :=
  let s := s.modCtx c fun x => { x with st := .resident, chargedTo := s.now, runSince := none, stallSince := none }
  let s := s.forEach (s.homeBlocks c) fun s b => s.modBlk b (·.enter c)
  s.writeRecord c

/-! ### choose() (R295) -/

/-- The residents of a partition. -/
def State.residents (s : State) (p : Nat) : List Nat := (s.partCtxs p).filter fun c => decide ((s.ctxOf c).st = .resident)

/-- The groups that residents hold which nothing displaces: LATENCY contexts, and contexts under teardown (R306). -/
def State.heldGroups (s : State) (p : Nat) : List Nat :=
  ((s.residents p).filter fun c => (s.ctxOf c).cls == 1 || (s.ctxOf c).tearing).flatMap s.homeGroups

/-- The groups that no resident holds. -/
def State.idleGroups (s : State) (p : Nat) : List Nat :=
  let held := (s.residents p).flatMap s.homeGroups
  (List.range ((s.partBlocks p).length / 8)).filter fun g => !held.contains g

/-- Rank of a candidate's class in the order of R295: debt that has not expired, other SHARE, BEST_EFFORT. -/
def Ctx.rank (x : Ctx) : Nat := if x.cls = 2 then 2 else if x.debt ≠ 0 && x.debtAge < 16 then 0 else 1

/-- Does candidate a go before b (R295)? A resident has not waited. -/
def candBefore (now : Nat) (x y : Nat × Ctx) : Bool :=
  let tie : Bool :=
    let wx := match x.2.runSince with | some t => now + 1 - t | none => 0
    let wy := match y.2.runSince with | some t => now + 1 - t | none => 0
    decide (wy < wx) || (wx == wy && decide (x.1 < y.1))
  if x.2.rank ≠ y.2.rank then decide (x.2.rank < y.2.rank)
  else if x.2.rank = 0 then decide (y.2.debtAge < x.2.debtAge) || (x.2.debtAge == y.2.debtAge && tie)
  else
    let l := x.2.charge * y.2.share
    let r := y.2.charge * x.2.share
    decide (l < r) || (l == r && tie)

/-- Insert by an order. -/
def insertBy {α : Type} (lt : α → α → Bool) (x : α) : List α → List α
  | [] => [x]
  | y :: l => if lt x y then x :: y :: l else y :: insertBy lt x l

/-- Sort by an order. -/
def sortBy {α : Type} (lt : α → α → Bool) (l : List α) : List α := l.foldr (insertBy lt) []

/-- The candidates of choose(), in order. -/
def State.candidates (s : State) (p : Nat) : List Nat :=
  let l := (s.partCtxs p).filter fun c =>
    (s.ctxOf c).cls != 1 && (s.runnable c || (decide ((s.ctxOf c).st = .resident) && !(s.ctxOf c).tearing && !s.isBlocked c))
  (sortBy (candBefore s.now) (l.map fun c => (c, s.ctxOf c))).map (·.1)

/-- Take the candidates whose homes are free, in order. -/
def State.keep (s : State) : List Nat → List Nat → List Nat
  | [], _ => []
  | c :: l, free =>
    let h := s.homeGroups c
    if h.all free.contains then c :: s.keep l (free.filter fun g => !h.contains g) else s.keep l free

/-- choose() over some groups: residents in scope that are not kept go out, kept contexts come in. -/
def State.choose (s : State) (p : Nat) (scope : List Nat) : State :=
  let s := s.settleAll.refreshRunnable
  let held := s.heldGroups p
  let kept := s.keep (s.candidates p) (scope.filter fun g => !held.contains g)
  let out := (s.residents p).filter fun c =>
    (s.ctxOf c).cls != 1 && !(s.ctxOf c).tearing && !kept.contains c && (s.homeGroups c).any scope.contains
  let s := s.forEach out fun s c => s.switchOut c .chosen
  s.forEach (kept.filter fun c => decide ((s.ctxOf c).st = .swapped)) State.switchIn

/-! ### LATENCY contexts (R297) -/

/-- HEAD_STAMP of a context's oldest ready entry. -/
def State.oldestReady (s : State) (c : Nat) : Nat :=
  match s.firstQueue (s.readyQueues c none) with
  | some q => (s.queueOf q).headStamp
  | none => 0

/-- The swapped LATENCY contexts with a ready entry, in the order in which they are served. -/
def State.waitingLatency (s : State) (p : Nat) : List Nat :=
  let l := (s.partCtxs p).filter fun c =>
    (s.ctxOf c).cls == 1 && decide ((s.ctxOf c).st = .swapped) && !(s.readyQueues c none).isEmpty
  (sortBy (fun (x y : Nat × Nat) => decide (x.1 < y.1) || (x.1 == y.1 && decide (x.2 < y.2)))
    (l.map fun c => (s.oldestReady c, c))).map (·.2)

/-- Serve one waiting LATENCY context: switch it in unless a LATENCY resident holds one of its groups. -/
def State.serveLatency (s : State) (p c : Nat) : State :=
  let h := s.homeGroups c
  if (s.heldGroups p).any h.contains then s
  else
    let out := (s.residents p).filter fun d => (s.homeGroups d).any h.contains
    (s.forEach out fun s d => s.switchOut d .preempt).switchIn c

/-- Serve the waiting LATENCY contexts of a partition, one at a time. -/
def State.latencyIn (s : State) (p : Nat) : State := s.forEach (s.waitingLatency p) fun s c => s.serveLatency p c

def execLatencySwitchIn (part : Nat) (s : State) : Out :=
  .next (if s.powered && s.partExists part then (s.settleAll.refreshRunnable.latencyIn part).beat (s.leadRegion part) else s)

/-! ### Idle groups, blocked contexts, debt (R295, R298, R299) -/

/-- The blocked resident that has been blocked longest; a LATENCY resident is no one's to evict: it leaves under R297. -/
def State.longestBlocked (s : State) (p : Nat) : Option Nat :=
  ((sortBy (fun (x y : Nat × Nat) => decide (x.1 < y.1) || (x.1 == y.1 && decide (x.2 < y.2)))
    (((s.residents p).filter fun c => s.isBlocked c && (s.ctxOf c).cls != 1).map fun c => (match (s.ctxOf c).stallSince with | some t => t.1 | none => 0, c))).map (·.2)).head?

/-- Evict blocked residents until a context has been made resident or none is left (R299): the fuel is the number of
residents (DEDUCED, log entry 44) (DEDUCED, log entry 47). -/
def State.evictLoop (s : State) (p : Nat) : Nat → State
  | 0 => s
  | fuel + 1 =>
    match s.longestBlocked p with
    | none => s
    | some c =>
      let rest := s.sliceRest p
      let tag := s.tagOf c
      let s := s.switchOut c .evict
      let before := s.residents p
      let s := s.latencyIn p
      let s := s.choose p (s.idleGroups p)
      let new := (s.residents p).filter fun d => !before.contains d
      let s := s.schPost ⟨some tag, SCH_EVICTED, s.schSrc p, p + (new.headD (2 ^ 32 - 1)) * 2 ^ 32, rest⟩
      if new.isEmpty then s.evictLoop p fuel else s

/-- Evict where every resident is blocked while a runnable context is swapped. -/
def State.evictBlocked (s : State) (p : Nat) : State :=
  let rs := (s.residents p).filter fun c => !(s.ctxOf c).tearing
  if !rs.isEmpty && rs.all s.isBlocked && (s.partCtxs p).any s.runnable then s.evictLoop p rs.length else s

/-- choose() over the idle groups while a runnable context is swapped (R295), and the eviction of R299. -/
def execChooseIdle (part : Nat) (s : State) : Out :=
  .next (
    if s.powered && s.partExists part then
      let s := s.settleAll.refreshRunnable
      let s := if (s.partCtxs part).any s.runnable then s.choose part (s.idleGroups part) else s
      (s.evictBlocked part).beat (s.leadRegion part)
    else s)

/-- A resident has been blocked for BLOCKED_NS (R294, R297, R299). -/
def execContextBlocked (c : Nat) (s : State) : Out :=
  .next (
    if !s.powered || !s.isBlocked c then s
    else
      let p := (s.ctxOf c).part
      let s := s.settleAll.refreshRunnable
      if (s.ctxOf c).cls = 1 then
        let s := (s.switchOut c .blocked).latencyIn p
        s.choose p (s.idleGroups p)
      else s.evictBlocked p)

/-- DEBT_AGE has reached 16 with debt left (R298). -/
def execDebtExpire (c : Nat) (s : State) : Out :=
  .next (s.whenOn fun s =>
    let s := s.settle c
    let x := s.ctxOf c
    if !s.powered || !s.admitted c || x.debt = 0 || x.debtAge < 16 then s
    else
      let s := s.setCtx c { x with debt := 0, debtAge := 0, acct := { x.acct with debtMissed := satU 32 (x.acct.debtMissed + 1) } }
      s.schPost ⟨some (s.tagOf c), SCH_DEBT_MISSED, s.schSrc x.part, x.part, x.debt⟩)

/-! ### Firings (R295, R307) -/

/-- A SLICE slot fires in region `r` for partition `p` (R277, R295, R298). -/
def State.sliceFired (s : State) (r p : Nat) : State :=
  if !s.partExists p || s.leadRegion p ≠ r then s
  else
    let dt := s.now - (s.partOf p).sliceAt
    if (s.partOf p).sliceAt ≠ 0 && dt < 100000 then
      s.schPost ⟨none, SCH_SLICE_SHORT, s.schSrc p, p, dt⟩
    else
      let s := s.modPart p fun x => { x with sliceAt := s.now }
      let s := s.settleAll
      let s := s.forEach (s.partCtxs p) fun s c =>
        if (s.ctxOf c).debt = 0 then s else s.modCtx c fun x => { x with debtAge := Nat.min (x.debtAge + 1) 255 }
      let s := s.choose p (List.range ((s.partBlocks p).length / 8))
      s.forEach (s.partCtxs p) State.writeRecord

/-- A STEP_DEADLINE slot `i` fires in region `r` for context `c` (R307). -/
def State.stepDeadline (s : State) (r i c : Nat) : State :=
  let x := s.ctxOf c
  if !s.admitted c || x.tearing || s.leadRegion x.part ≠ r then s
  else
    let tasks (y : BlkState) : Nat := b2n y.main.placed + b2n y.fill.placed
    let placed := sumNat ((s.blocksOf c).map fun b => tasks (s.bst b)) + sumNat (x.saved.map fun e => tasks e.2)
    let vis := sumNat (((s.ctxQueues c).filter fun q => (s.queueOf q).kind == 0).map fun q =>
      ((s.queueOf q).tail + 2 ^ 32 - (s.queueOf q).head) % 2 ^ 32)
    if placed = 0 && vis = 0 then s
    else
      let s := s.modCtx c fun x => { x with acct := { x.acct with stepLate := satU 32 (x.acct.stepLate + 1) } }
      s.schPost ⟨some (s.tagOf c), SCH_STEP_LATE, s.schSrc x.part, placed + vis * 2 ^ 32, i⟩

/-! ### The steps of a block switch (R192, R300 to R305) -/

/-- Has the array reached its stop: the rand in its plane cycles has completed, or the array waits at a boundary for a row, and no
failure at the replay limit has still to act (R82, R83)? -/
def State.arrayStopped (s : State) (b : Nat) : Bool :=
  match (s.bst b).run with
  | none => true
  | some r => (r.closed || r.rowWait || s.flag PWR_STATUS_STOP) && decide (r.fails < s.arrLimit b)

/-- Have the units of a block reached their stop (R192)? -/
def State.unitsStopped (s : State) (b : Nat) : Bool :=
  let k := s.blk b
  let x := k.st
  s.arrayStopped b && x.vq.isEmpty && !k.vregTest && (match k.arrTest with | some t => !t.running | none => true) && k.reload.isNone &&
    k.spareFill.isNone && !(x.sq.any (·.started)) && x.main.exited.isNone && x.fill.exited.isNone && !x.faultDue &&
    !x.main.wait.pastIssue && !x.fill.wait.pastIssue && decide (k.coreFails = 0) && !s.flag (BLK_CORE_STATUS_SELFTEST b) && !s.flag (BLK_CORE_STATUS_HALTED b) &&
    (s.movesOf b).all fun m => !m.isLocal || !s.moveOutstanding m.id

/-- Start the core's self-test if a re-execution has called for one, and the array's if one is due and not running yet (R83, R197). Where a
teardown finds a failure at the replay limit, the unit is failed without a test (R77, R198). -/
def State.dueTest (s : State) (b : Nat) : State :=
  let s := s.limitReached b
  let s := if (s.blk b).coreFails = 0 then s
    else (s.modBlk b fun k => { k with coreFails := 0 }).setFlag (BLK_CORE_STATUS_SELFTEST b) true
  match (s.blk b).arrTest with
  | some t => if t.running then s else (s.modBlk b fun k => { k with arrTest := some { t with slot := 128 } }).startArrTest b
  | none => s

/-- Every unit of a block has reached its stop: the array's progress is recorded and the save may begin; a teardown saves
nothing (R192, R305). A targeted self-test that is due starts here, before the next context's first rand (R83); it has no slot of that
context to refill. -/
def execBlockStopped (b : Nat) (s : State) : Out :=
  .next (
    if !s.powered || (s.blk b).phase ≠ .stopping then s
    else if (s.blk b).discard then (s.dueTest b).modBlk b fun k => { k with phase := .scrubbing }
    else if !s.unitsStopped b then s
    else
      let s := match (s.bst b).run with
        | some r =>
          let s := s.setFlag (BLK_ARR_PROGRESS_VALID b) true
          let s := s.setFld (BLK_ARR_PROGRESS_TICKET b) r.op.ticket
          s.setFld (BLK_ARR_PROGRESS_NEXT_ROW b) r.next
        | none => s
      ((s.dueTest b).modBlk b fun k => { k with phase := .saving }).withdraw b)

/-- What is live of a block (R301). -/
structure Live where
  ops : Nat
  acc : Nat
  scr : Nat
  slots : Nat

/-- Everything is live. -/
def Live.all : Live := ⟨2 ^ 64 - 1, 2 ^ 16 - 1, 2 ^ 16 - 1, 2 ^ 128 - 1⟩

/-- The live map of 64 bytes; a reserved byte that is not 0 makes everything live. -/
def Live.ofBytes (l : List Byte) : Live :=
  if leNat ((l.drop 12).take 4) ≠ 0 || leNat (l.drop 32) ≠ 0 then .all
  else ⟨leNat (l.take 8), leNat ((l.drop 8).take 2), leNat ((l.drop 10).take 2), leNat ((l.drop 16).take 16)⟩

/-- Is a byte of block-local memory live? -/
def Live.byte (v : Live) (a : Nat) : Bool :=
  if a < opsEnd then bitOf v.ops (a / 0x10000)
  else if a < accEnd then bitOf v.acc ((a - accBase) / 0x4000)
  else bitOf v.scr ((a - scrBase) / 0x1000)

/-- The bytes of the operand store that an origin's load reads. -/
def Origin.spans (o : Origin) : List (Nat × Nat) :=
  let w := splintWidth o.fmt
  (List.range o.nc).flatMap fun n => [(o.sig + n * o.stride, 4 * w * o.kg), (o.exp + n * (o.stride / (4 * w)), o.kg)]

/-- Can a slot that is not live be reloaded after the restore (R303)? -/
def Live.reloads (v : Live) (o : Origin) : Bool :=
  o.st == .valid && (o.space || o.spans.all fun p => (spans 0x10000 (p.2 / 0x10000 + 2) p.1 p.2).all fun q => v.byte q.1)

/-- The state that a save holds (R302, R303): what is not live is left out, and its slots are to be reloaded or are EMPTY. -/
def BlkState.saved (x : BlkState) (v : Live) : BlkState :=
  let dead := positions 128 fun i => !bitOf v.slots i
  let re := dead.filter fun i => v.reloads (x.originOf i)
  let x := { x with
    mem := x.mem.filter fun e => v.byte e.1
    poison := x.poison.filter fun e => v.byte (e.1 * 256)
    slots := x.slots.filter fun e => bitOf v.slots (e.1 / 2048)
    run := x.run.map fun r => { r with stale := true, latched := false, rowWait := false, closed := false }
    reloads := re ++ x.reloads.filter fun i => !dead.contains i }
  (dead.filter fun i => !re.contains i && (x.originOf i).st != .empty).foldl (fun x i => x.setOriginState i .empty) x

/-- The live map as a switch reads it; `none` where the read must wait. -/
def State.liveMapOf (s : State) (c : Nat) : Option Live × State :=
  let a := (s.ctxOf c).liveMap
  if a = 0 then (some .all, s)
  else match s.vread c a 64 .read with
    | (.ok l, s) => (some (.ofBytes l), s)
    | (.fault _, s) => (some .all, s)
    | (.wait, s) => (none, s)

/-- Apply the completions held for a block to its saved or restored state (R193). -/
def applyHeld (x : BlkState) (l : List (Nat × Bool × Nat × Word)) : BlkState :=
  l.foldl (fun x h => x.modSet h.2.1 fun y => y.setTicket h.2.2.1 { y.ticket h.2.2.1 with st := .done, word := h.2.2.2 }) x

/-- The save of a block's state is complete, or has failed with a memory code (R300 to R304): no other number is an outcome of it (DESIGN
CHOICE, log entry 32). -/
def execSaveDone (b : Nat) (ok : Bool) (code : Nat) (s : State) : Out :=
  .next (
    if !s.powered || (s.blk b).phase ≠ .saving then s
    else match (s.blk b).ctx with
      | none => s
      | some c =>
        let area := (s.ctxOf c).saveBase + s.homeIndex c b * 2 ^ 24
        if !ok then (if memoryFault code then s.schFault c SCH_SAVE_LOST b code else s)
        else if s.saveHeld area (2 ^ 24) then s
        else match s.liveMapOf c with
          | (none, s) => s
          | (some v, s) =>
            let s := s.writeSave area (2 ^ 24)
            let i := s.homeIndex c b
            let held := (s.ctxOf c).held.filter fun h => h.1 == i
            let x := applyHeld ((s.bst b).saved v) held
            let s := s.modCtx c fun y =>
              { y with saved := SMap.set (fun _ => BlkState.reset) y.saved i x, held := y.held.filter fun h => h.1 != i }
            let s : State := { s with moves := s.moves.map fun m => if m.blk = b && m.tag = s.tagOf c && m.isLocal then { m with paused := true } else m }
            (s.modBlk b fun k => { k with ctx := none, phase := .scrubbing }).writeRecord c)

/-- Count a block switch at the lead region of the block's partition (R314). -/
def State.countSwitch (s : State) (b : Nat) : State :=
  match s.blockPart b with
  | some p => s.count (RGN_SCH_COUNT_SWITCHES (s.leadRegion p)) 1
  | none => s

/-- A block's scrub is complete (R254, R300, R306): it holds nothing, and goes on to the restore or stays idle. -/
def execBlockScrubDone (b : Nat) (s : State) : Out :=
  .next (
    let k := s.blk b
    if !s.powered || k.phase ≠ .scrubbing then s
    else
      let next := match k.incoming with
        | some c => if decide ((s.ctxOf c).st = .resident) && !(s.ctxOf c).tearing then some c else none
        | none => none
      let s := s.setBlk b { k with
        st := .reset, ctx := none, discard := false, incoming := next, reload := none,
        phase := if next.isSome then .restoring else .idle }
      let s := (s.setFlag (BLK_CORE_STATUS_FAULTED b) false).setFlag (BLK_CORE_STATUS_HALTED b) false
      let s := s.setReg (BLK_ARR_PROGRESS b) 0
      let s := if next.isNone && !k.discard then s.countSwitch b else s
      match k.ctx with
      | some c => s.tearDone c
      | none => s)

/-- Reload slots from their origins, in order, until one has to wait: whether all are done (R303). -/
def State.reloadRest (b : Nat) : List Nat → State → Bool × State
  | [], s => (true, s)
  | k :: ks, s =>
    match s.reloadSlot b k with
    | (none, s) => (false, s.modBst b fun x => { x with reloads := k :: ks })
    | (some _, s) => State.reloadRest b ks s

/-- Load a saved state into a block, if that has not been done, and reload the slots that are left to reload: whether the restore is
whole (R303). A block that has left service since takes the state as well, and issues nothing: the spec does not say what becomes of
the task (DESIGN CHOICE, log entry 94). -/
def State.restoreBlock (s : State) (b c : Nat) : Bool × State :=
  let i := s.homeIndex c b
  let s := if (s.blk b).ctx = some c then s
    else
      let x := SMap.get (fun _ => BlkState.reset) (s.ctxOf c).saved i
      let s := s.modBlk b fun k => { k with st := x, ctx := some c }
      s.modCtx c fun y => { y with saved := SMap.erase y.saved i }
  match State.reloadRest b (s.bst b).reloads s with
  | (false, s) => (false, s)
  | (true, s) =>
    let s := s.settle c
    let held := (s.ctxOf c).held.filter fun h => h.1 == i
    let s := s.modBlk b fun k =>
      { k with st := applyHeld { k.st with reloads := [] } held, incoming := none, phase := .idle }
    let s := s.modCtx c fun y => { y with held := y.held.filter fun h => h.1 != i }
    (true, { s with moves := s.moves.map fun m => if m.blk = b && m.tag = s.tagOf c then { m with paused := false } else m })

/-- The restore of a block is complete, or its read has failed with a memory code (R300, R303, R304) (DESIGN CHOICE, log entry 32). -/
def execRestoreDone (b : Nat) (ok : Bool) (code : Nat) (s : State) : Out :=
  .next (
    if !s.powered || (s.blk b).phase ≠ .restoring then s
    else match (s.blk b).incoming with
      | none => s
      | some c =>
        if !ok then (if memoryFault code then s.schFault c SCH_SAVE_LOST b code else s)
        else match s.restoreBlock b c with
          | (false, s) => s
          | (true, s) =>
            let s := match (s.bst b).run with
              | some r =>
                let s := s.setFlag (BLK_ARR_PROGRESS_VALID b) true
                let s := s.setFld (BLK_ARR_PROGRESS_TICKET b) r.op.ticket
                s.setFld (BLK_ARR_PROGRESS_NEXT_ROW b) r.next
              | none => s
            s.countSwitch b)

end Sys2Proof.Machine
end

