-- ==== Sys2Proof/Machine/Sched.lean ====
section
/-!
DEFINITION. The commands of SCH_CMD (R275 to R284, R306): partitions, contexts and queues.
-/

namespace Sys2Proof.Machine

/-! ### Partitions (R275 to R278) -/

/-- May partition `p` be made from its registers (R275)? -/
def State.partMakable (s : State) (p : Nat) : Bool :=
  let bs := s.partBlocks p
  let base := s.fld (SCH_PART_HBM_BASE p) * 65536
  let size := s.fld (SCH_PART_HBM_SIZE p) * 65536
  let ports := s.fld (SCH_PART_CTRL_RIM_PORTS p)
  !s.partExists p && decide (p < s.fld DIM_UNITS_PARTITIONS_MAX) &&
    (bs.all fun b => s.blockPresent b && !s.blockOut b && (s.blockPart b).isNone) &&
    !bs.isEmpty && decide (bs.length % 8 = 0) &&
    decide (base + size ≤ usableEnd) &&
    s.partList.all fun q =>
      !overlaps base size (s.fld (SCH_PART_HBM_BASE q) * 65536) (s.fld (SCH_PART_HBM_SIZE q) * 65536) &&
        decide (ports &&& s.fld (SCH_PART_CTRL_RIM_PORTS q) = 0)

/-- The period of a slice (R277). -/
def slicePeriod : Nat := 2000000

/-- MAKE_PART: the partition exists, its arbiters carry its window group, and its SLICE slot is armed (R277). -/
def State.makePart (s : State) (p : Nat) : Option State :=
  if s.partMakable p then
    let lead := s.leadRegion p
    let s := s.setFld (SCH_PART_CTRL_LEAD p) lead
    let s := s.setFld (SCH_PART_CTRL_GROUPS p) ((s.partBlocks p).length / 8)
    let s := s.setFlag (SCH_PART_CTRL_VALID p) true
    let s := s.forEach (s.partBlocks p) fun s b => s.setBlockGroup b (32 + p)
    let s := s.modPart p fun x => { x with sliceAt := 0 }
    some (s.armSlot (some lead) (240 + p) ((s.now / slicePeriod + 1) * slicePeriod) slicePeriod 1 p)
  else none

/-- FREE_PART (R278). -/
def State.freePart (s : State) (p : Nat) : Option State :=
  if s.partExists p && (s.partCtxs p).isEmpty then
    let s := s.disarmSlot (some (s.leadRegion p)) (240 + p)
    let s := s.forEach (s.partBlocks p) fun s b => s.setBlockGroup b 63
    let s := s.setFld (SCH_PART_CTRL_LEAD p) 0
    let s := s.setFld (SCH_PART_CTRL_GROUPS p) 0
    some ((s.setFlag (SCH_PART_CTRL_VALID p) false).modPart p fun x => { x with sliceAt := 0 })
  else none

/-! ### Contexts (R279 to R282, R306) -/

/-- ADMIT: the software fields of the record are taken, the context is SWAPPED, and its charge is lifted (R282). -/
def State.admitCtx (s : State) (c : Nat) : Option State :=
  let old := s.ctxOf c
  let r := s.hbmBytes (s.fld SCH_CTABLE_BASE * 2 ^ 21 + 256 * c) 40
  let at_ (o n : Nat) : Nat := leNat ((r.drop o).take n)
  let p := at_ 2 1
  let home := at_ 4 2
  let groups := (s.partBlocks p).length / 8
  let blocks := (s.groupBlocks p (if home = 0 then List.range groups else positions groups (bitOf home))).length
  let base := s.fld (SCH_PART_HBM_BASE p) * 65536
  let size := s.fld (SCH_PART_HBM_SIZE p) * 65536
  if s.flag RST_STATUS_SELF_FENCED || old.st != .free || !s.partExists p || (s.partOf p).resetAt.isSome || decide (2 ^ groups ≤ home) || at_ 6 2 == 0 ||
      decide (2 < at_ 3 1) || (at_ 3 1 == 1 && at_ 32 4 == 0) ||
      decide (at_ 16 8 < base) || decide (base + size < at_ 16 8 + blocks * 2 ^ 24) then none
  else
    let x : Ctx := { Ctx.reset with
      st := .swapped, gen := old.gen, part := p, cls := at_ 3 1, home := home, share := at_ 6 2, ptRoot := at_ 8 8,
      saveBase := at_ 16 8, liveMap := at_ 24 8, startUs := at_ 32 4, charge := old.charge, chargedTo := s.now,
      quar := old.quar, quarWide := old.quarWide }
    some (((s.setCtx c x).lift c).writeRecord c)

/-! ### Queues (R284) -/

/-- BIND_Q: the record is read and the queue set RUN (DESIGN CHOICE, log entry 45). -/
def State.bindQ (s : State) (q : Nat) : Option State :=
  let r := s.hbmBytes (s.fld SCH_QTABLE_BASE * 2 ^ 21 + 64 * q) 16
  let at_ (o n : Nat) : Nat := leNat ((r.drop o).take n)
  let c := at_ 8 2 % 4096
  if (s.queueOf q).st != .unbound || !s.admitted c || !s.driverOwns (s.ctxOf c).part || at_ 10 1 < 1 || 20 < at_ 10 1 then none
  else some (s.putQueue q { Queue.reset with base := at_ 0 8, ctx := c, sizeLog2 := at_ 10 1, kind := at_ 11 1, st := .run })

/-- UNBIND_Q: refused while the queue's context is not FREE (DESIGN CHOICE, log entry 45). -/
def State.unbindQ (s : State) (q : Nat) : Option State :=
  let x := s.queueOf q
  if x.st = .unbound then some s
  else if (s.ctxOf x.ctx).st != .free then none
  else some (s.putQueue q { x with st := .unbound, entry := none })

/-- STOP_Q and START_Q of a bound queue (DESIGN CHOICE, log entry 45). -/
def State.runQ (s : State) (q : Nat) (st : QState) : Option State :=
  if (s.queueOf q).st = .unbound then some s else some (s.putQueue q { s.queueOf q with st := st })

/-! ### SCH_CMD -/

/-- The class that runs an operation of SCH_CMD. -/
def schAuth (op : Nat) : Auth := if op = 1 || op = 2 then .operator else .driver

/-- Run an operation; `none` refuses it (DESIGN CHOICE, log entry 45). -/
def State.schRun (s : State) (a : Auth) (op p q c : Nat) : Option State :=
  if a ≠ schAuth op then none
  else match op with
    | 1 => s.makePart p
    | 2 => s.freePart p
    | 3 => s.admitCtx c
    | 4 => some (if s.admitted c then s.teardown c else s)
    | 5 => s.bindQ q
    | 6 => s.unbindQ q
    | 7 => s.runQ q .stopped
    | 8 => s.runQ q .run
    | _ => none

/-- A field of SCH_CMD as a command holds it. -/
def schField (v : Word) (f : Fld) : Nat := bits v.toNat f.hi f.lo

/-- The record in HBM that an operation reads: the context's for ADMIT, the queue's for BIND_Q. -/
def State.schRecord (s : State) (v : Word) : Nat × Nat :=
  if schField v SCH_CMD_OP = 3 then (s.fld SCH_CTABLE_BASE * 2 ^ 21 + 256 * schField v SCH_CMD_CONTEXT, 256)
  else if schField v SCH_CMD_OP = 5 then (s.fld SCH_QTABLE_BASE * 2 ^ 21 + 64 * schField v SCH_CMD_QUEUE, 64)
  else (0, 0)

/-- Must a command wait for a frame under test that holds its record (R247)? -/
def State.schWaits (s : State) (x : WaitCmd) : Bool :=
  decide (x.auth = schAuth (schField x.new SCH_CMD_OP)) && s.testIn (s.schRecord x.new).1 (s.schRecord x.new).2

/-- A command runs: its COMMAND record, or a REFUSED one in its place (R495, R541), and DONE. -/
def State.schFinish (s : State) (x : WaitCmd) : State :=
  let s := (s.setFlag SCH_CMD_DONE true).checkHbmRead (s.schRecord x.new).1 (s.schRecord x.new).2
  match (s.commandRecord x.auth x.path SCH_CMD x.old x.new).schRun x.auth (schField x.new SCH_CMD_OP) (schField x.new SCH_CMD_PART)
      (schField x.new SCH_CMD_QUEUE) (schField x.new SCH_CMD_CONTEXT) with
  | some s => s.setFld SCH_CMD_RESULT 0
  | none =>
    let s := (s.setFld SCH_CMD_RESULT SCH_CMD_REFUSED).lastCode SCH_STATUS_LAST_CODE SCH_CMD_REFUSED
    s.journal x.auth x.path jRefused SCH_CMD x.old x.new

/-- A write of SCH_CMD: START runs OP under the writer's authority; a refusal is journaled. A command completes at once, but for one whose
record lies in a frame under test: DONE reads 0 until it can be read, and a START is ignored then (R247) (DESIGN CHOICE, log entry 46). -/
def State.writeSchCmd (s : State) (a : Auth) (p : Path) (v : Word) : State :=
  s.arrives a p SCH_CMD v fun s =>
    let old := s.reg SCH_CMD
    let s := s.store a p SCH_CMD v
    let x : WaitCmd := ⟨SCH_CMD, a, p, old, BitVec.ofNat 64 ((s.reg SCH_CMD).toNat ||| 2 ^ 62)⟩
    if !bitOf v.toNat 62 then s
    else if !s.flag SCH_CMD_DONE then s.commandRecord a p SCH_CMD old x.new
    else if s.schWaits x then (s.setFlag SCH_CMD_DONE false).modLid fun l => { l with waits := l.waits ++ [x] }
    else s.schFinish x

/-- The rows of SCH_CMD: a write whose START is set and whose OP is the row's. -/
def State.schRow (s : State) (op : Nat) (a : Auth) (p : Path) (v : Word) : State :=
  if bitOf v.toNat 62 && bits v.toNat 57 54 == op then s.writeSchCmd a p v else s

def execMakePart (a : Auth) (p : Path) (v : Word) (s : State) : Out := .next (s.schRow 1 a p v)
def execFreePart (a : Auth) (p : Path) (v : Word) (s : State) : Out := .next (s.schRow 2 a p v)
def execAdmitCtx (a : Auth) (p : Path) (v : Word) (s : State) : Out := .next (s.schRow 3 a p v)
def execRelease (a : Auth) (p : Path) (v : Word) (s : State) : Out := .next (s.schRow 4 a p v)
def execBindQ (a : Auth) (p : Path) (v : Word) (s : State) : Out := .next (s.schRow 5 a p v)
def execUnbindQ (a : Auth) (p : Path) (v : Word) (s : State) : Out := .next (s.schRow 6 a p v)
def execStopQ (a : Auth) (p : Path) (v : Word) (s : State) : Out := .next (s.schRow 7 a p v)
def execStartQ (a : Auth) (p : Path) (v : Word) (s : State) : Out := .next (s.schRow 8 a p v)

end Sys2Proof.Machine
end

