-- ==== Sys2Proof/Machine/Tasks.lean ====
section
/-!
DEFINITION. Task entries and tasks (R286 to R292, R180): reading an entry into the scoreboard, starting a task in the MAIN or
the FILL set, and a task's exit.
-/

namespace Sys2Proof.Machine

/-! ### The scoreboard (R288) -/

/-- Is context `c` scheduled by region `r`? -/
def State.ledBy (s : State) (r c : Nat) : Bool := s.admitted c && s.partExists (s.ctxOf c).part && s.leadRegion (s.ctxOf c).part == r

/-- Placed sets of a block's context state. -/
def BlkState.placedSets (x : BlkState) : Nat := b2n x.main.placed + b2n x.fill.placed

/-- Tasks of context `c` that have started and not exited, on its blocks and in its saved state. -/
def State.tasksOf (s : State) (c : Nat) : Nat :=
  sumNat ((s.blocksOf c).map fun b => (s.bst b).placedSets) + sumNat ((s.ctxOf c).saved.map fun e => e.2.placedSets)

/-- Scoreboard entries in use in region `r`. -/
def State.scoreboardUsed (s : State) (r : Nat) : Nat :=
  sumNat ((s.ctxList.filter (s.ledBy r)).map fun c =>
    s.tasksOf c + ((s.ctxQueues c).filter fun q => (s.queueOf q).entry.isSome).length)

/-- Ready entries that have not started in region `r`. -/
def State.readyCount (s : State) (r : Nat) : Nat :=
  sumNat ((s.ctxList.filter (s.ledBy r)).map fun c => (s.readyQueues c none).length)

/-- Tasks placed by region `r`. -/
def State.placedCount (s : State) (r : Nat) : Nat :=
  sumNat ((s.ctxList.filter (s.ledBy r)).map fun c => sumNat ((s.blocksOf c).map fun b => (s.bst b).placedSets))

/-! ### Reading an entry (R286 to R288) -/

/-- The entry that 64 bytes hold. -/
def entryOf (seq : Nat) (l : List Byte) : Entry :=
  let g (o n : Nat) : Nat := leNat ((l.drop o).take n)
  { seq := seq
    pc := BitVec.ofNat 64 (g 0 8)
    args := (List.range 4).map fun i => BitVec.ofNat 64 (g (8 + 8 * i) 8)
    deps := (List.range 3).filterMap fun i =>
      let d := g (40 + 6 * i) 6
      if bitOf d 15 then some (bits d 14 0, bits d 47 16) else none
    hold := g 58 2
    notifyExit := bitOf (g 60 1) 0 }

/-- Is an entry malformed (R287)? -/
def State.entryBad (s : State) (q : Nat) (e : Entry) (l : List Byte) : Bool :=
  let g (o n : Nat) : Nat := leNat ((l.drop o).take n)
  e.pc.toNat % 8 != 0 || g 6 2 != 0 || g 60 1 / 2 != 0 || g 61 3 != 0 ||
    e.deps.any (fun d => (s.queueOf d.1).st != .unbound && (s.queueOf d.1).ctx != (s.queueOf q).ctx) ||
    ((s.queueOf q).kind == 0 && e.hold != 0)

/-- Where the slot of sequence number `n` lies. -/
def Queue.slotVa (x : Queue) (n : Nat) : Nat := x.base + 64 * (n % 2 ^ x.sizeLog2)

/-- Take 64 bytes as the head entry of queue `q`. -/
def State.takeEntry (s : State) (q : Nat) (l : List Byte) : State :=
  let x := s.queueOf q
  let e := entryOf x.head l
  if s.entryBad q e l then s.schFault x.ctx SCH_ENTRY_INVALID (q + x.head * 2 ^ 32) (leNat (l.take 8))
  else s.setQueue q { x with entry := some e }

/-- Read the head entry of queue `q`; a replay takes it from the recorder (R407). -/
def State.readEntry (s : State) (q : Nat) : State :=
  let x := s.queueOf q
  let c := x.ctx
  let p := (s.ctxOf c).part
  if decide (x.st ≠ .run) || x.entry.isSome || !s.admitted c || (s.ctxOf c).tearing || !s.partExists p ||
      decide (s.fld DIM_SCHED_SCOREBOARD ≤ s.scoreboardUsed (s.leadRegion p)) then s
  else if s.replayQueue q then
    match s.rplTake fun r => r.kind == rplEntry && leNat (r.body.take 4) == q with
    | (some r, s) => ((s.takeEntry q (r.body.drop 8)).rplFinish).beat (s.leadRegion p)
    | (none, _) => s
  else if x.head = x.tail then s
  else match s.vread c (x.slotVa x.head) 64 .read with
    | (.ok l, s) => ((s.rplNote c rplEntry (leBytes q 4 ++ leBytes x.head 4 ++ l)).takeEntry q l).beat (s.leadRegion p)
    | (.fault e, s) => s.schFault c SCH_ENTRY_FETCH (q + x.head * 2 ^ 32) e
    | (.wait, s') => s.onlyAsked s'

def execEntryRead (q : Nat) (s : State) : Out := .next (if s.powered then s.readEntry q else s)

/-! ### Starting a task (R180, R287, R291, R292, R297) -/

/-- The set of a task at its entry. -/
def State.taskSet (s : State) (b q : Nat) (e : Entry) : CoreSet :=
  let idx := ((s.blockPart b).map fun p => (s.partBlocks p).findIdx (· == b)).getD 0
  let vals := e.args ++ [BitVec.ofNat 64 idx, BitVec.ofNat 64 s.now, BitVec.ofNat 64 b]
  { CoreSet.reset with
    placed := true
    pc := e.pc
    s := vals.zipIdx.foldl (fun m (v, i) => SMap.set (fun _ => 0) m (i + 1) v) []
    taskPc := e.pc
    queue := q
    seq := e.seq
    hold := e.hold }

/-- Start the entry that queue `q` holds in a set of block `b`. -/
def State.startTask (s : State) (q b : Nat) (f : Bool) : State :=
  match (s.queueOf q).entry with
  | none => s
  | some e =>
    let x := s.queueOf q
    let c := x.ctx
    let lead := s.leadRegion (s.ctxOf c).part
    let s := s.settle c
    let set := s.taskSet b q e
    let s := s.modSet b f fun _ => set
    let head := (x.head + 1) % 2 ^ 32
    let s := s.putQueue q { x with
      head := head, entry := none, headStamp := if head = x.tail then x.headStamp else s.now,
      notify := if e.notifyExit then x.notify ++ [e.seq] else x.notify }
    let wait := s.now - x.headStamp
    let late := decide ((s.ctxOf c).cls = 1) && decide (x.headStamp + (s.ctxOf c).startUs * 1000 < s.now)
    let s := s.modCtx c fun y => { y with acct := { y.acct with
      tasks := satU 32 (y.acct.tasks + 1), queueWait := satU 64 (y.acct.queueWait + wait),
      startMissed := satU 32 (y.acct.startMissed + b2n late) } }
    let s := (s.count (RGN_SCH_COUNT_TASKS lead) 1).beat lead
    if late then s.schPost ⟨some (s.tagOf c), SCH_START_MISSED, s.schSrc (s.ctxOf c).part, q + e.seq * 2 ^ 32, wait⟩ else s

/-- The entry of a NORMAL queue starts when it is its context's first and a home block is idle. -/
def execTaskStart (q : Nat) (s : State) : Out :=
  .next (
    let c := (s.queueOf q).ctx
    if s.powered && decide ((s.ctxOf c).st = .resident) && !(s.ctxOf c).tearing &&
        s.firstQueue (s.startQueues c 0) == some q then
      match s.idleBlock c with
      | some b => s.startTask q b false
      | none => s
    else s)

/-- The entry of a FILL queue starts when it is its context's first eligible one and a block has parked. -/
def execFillTaskStart (q : Nat) (s : State) : Out :=
  .next (
    let c := (s.queueOf q).ctx
    if s.powered && decide ((s.ctxOf c).st = .resident) && !(s.ctxOf c).tearing &&
        s.firstQueue (s.fillQueues c) == some q then
      match s.fillBlock c with
      | some b => s.startTask q b true
      | none => s
    else s)

/-! ### Exits (R290) -/

/-- DONE moves past every contiguous exited entry. -/
def Queue.advance : Nat → Queue → Queue
  | 0, x => x
  | n + 1, x =>
    if x.exited.contains x.done then
      Queue.advance n { x with exited := x.exited.filter (· != x.done), done := (x.done + 1) % 2 ^ 32 }
    else x

/-- A reported exit of a set of block `b` (DEDUCED, log entry 48). -/
def State.taskExit (s : State) (b : Nat) (f : Bool) : State :=
  match (s.blk b).ctx, (s.cset b f).exited with
  | some c, some v =>
    if !(s.cset b f).placed || !(decide ((s.blk b).phase = .idle) || decide ((s.blk b).phase = .stopping)) || (s.blk b).discard then s
    else
      let q := (s.cset b f).queue
      let seq := (s.cset b f).seq
      let x := s.queueOf q
      match s.vwrite c (x.slotVa seq + 56) (leBytes v.toNat 4) with
      | (.wait, s') => s.onlyAsked s'
      | (.fault e, s) => s.ctxFault c e (0x0400 + b) 0 0
      | (.ok (), s) =>
        let s := s.settle c
        let s := if x.notify.contains seq then
            s.schPost ⟨some (s.tagOf c), SCH_TASK_EXIT, s.schSrc (s.ctxOf c).part, q + seq * 2 ^ 32, v.toNat % 2 ^ 32⟩
          else s
        let s := s.modSet b f CoreSet.cleared
        let s := if f then s else s.modBst b fun y => { y with parked := false }
        let s := s.putQueue q (Queue.advance (x.exited.length + 1)
          { x with exited := x.exited ++ [seq], notify := x.notify.filter (· != seq) })
        (s.beat (s.leadRegion (s.ctxOf c).part)).takeHolds
  | _, _ => s

def execTaskExit (b : Nat) (f : Bool) (s : State) : Out := .next (if s.powered then s.taskExit b f else s)

end Sys2Proof.Machine
end

