-- ==== Sys2Proof/Machine/Recovery.lean ====
section
/-!
DEFINITION. Hangs, resets and recovery (R411 to R437): the watchdogs, the partition compute reset, the end of a drain, the
full device reset, fences, the return-to-service test and ALIVE.
-/

namespace Sys2Proof.Machine

/-! ### RST_STATUS and the journal of management messages -/

/-- RST_STATUS as it reads: T_DRAIN_US and PART_RESET_BUSY are those of now. -/
def State.rstStatus (s : State) : Nat :=
  let n := withBits (s.reg RST_STATUS).toNat 47 32 (s.tDrain / 1000)
  withBits n 0 0 (b2n (s.parts.any fun e => e.2.resetAt.isSome))

/-- Post a code of this chapter on the chip ring with the layout of R436. -/
def State.rstNote (s : State) (code unit who target : Nat) (wide : Bool) (b20 time : Nat) : State :=
  s.postRst code unit (who + target * 2 ^ 8 + b2n wide * 2 ^ 24 + b20 * 2 ^ 32) time

/-- The path of a management port. -/
def mgmtPath (port : Nat) : Path := if port = 0 then .mgmt0 else .mgmt1

/-- The journal record of a message of the fabric manager (R435, R523): the specification does not say what it holds besides
class, path and, for a refusal, KIND (DESIGN CHOICE, log entry 19). -/
def State.msgRecord (s : State) (p : Path) (refused : Bool) (type : Nat) (payload : List Byte) : State :=
  let fld := Config.msgRecord type payload
  let kind := if refused then jRefused else fld 0 % 4
  s.journal .operator p kind (if kind = jEvent then realCode (fld 1) else fld 1 % 2 ^ 32) (BitVec.ofNat 64 (fld 2)) (BitVec.ofNat 64 (fld 3))

/-- A message of the fabric manager that has been accepted acts, with its record first; before a key is installed none is
(R493, R523) (DESIGN CHOICE, log entry 19). -/
def State.message (s : State) (p : Path) (type : Nat) (payload : List Byte) (ok : Bool) (act : State → State) : State :=
  if !s.powered || s.lid.key.isNone then s
  else
    let s := s.msgRecord p (!ok) type payload
    if ok then act s else s

/-! ### The partition compute reset (R423 to R425) -/

/-- A block of a partition under reset: it holds nothing and is idle for its pattern test. -/
def State.resetBlock (s : State) (b : Nat) : State :=
  let s := (s.withdraw b).limitReached b
  let k := s.blk b
  let s := s.setBlk b { k with
    st := .reset, ctx := none, phase := .idle, pq := [], incoming := none, discard := false, inReset := true, arrTest := none,
    reload := none, spareFill := none, coreFails := 0, rowTests := [], coreTestInjected := false, vregTest := false,
    vregTestInjected := false }
  let s := s.setFlag (BLK_CORE_STATUS_FAULTED b) false
  let s := s.setFlag (BLK_CORE_STATUS_HALTED b) false
  let s := s.setFlag (BLK_ARR_STATUS_SELFTEST b) false
  (s.setFlag (BLK_CORE_STATUS_SELFTEST b) false).setReg (BLK_ARR_PROGRESS b) 0

/-- A reset of partition `p` is requested: every context that is admitted is bumped and torn down, and every block is stopped and
scrubbed. A request during a reset joins it (DEDUCED, log entry 64). -/
def State.resetPart (s : State) (p : Nat) : State :=
  if !s.partExists p || (s.partOf p).resetAt.isSome then s
  else
    let t := s.now
    let bs := s.partBlocks p
    let cs := s.partCtxs p
    let bumped := cs.filter fun c => s.admitted c && !(s.ctxOf c).tearing
    let s := s.forEach cs State.teardown
    let s := s.forEach bs State.resetBlock
    let s := s.forEach cs State.tearDone
    s.modPart p fun x => { x with resetAt := some t, resetBlocks := bs, wide := bumped.any fun c => (s.ctxOf c).quarWide }

/-- A write of RST_PART_CMD (R423): a command gives its COMMAND record or, where it is refused, a REFUSED one (R495, R541)
(DEDUCED, log entry 35) (DEDUCED, log entry 64). -/
def State.writePartCmd (s : State) (a : Auth) (p : Path) (v : Word) : State :=
  s.arrives a p RST_PART_CMD v fun s =>
    let old := s.reg RST_PART_CMD
    let s := s.storeWith a p RST_PART_CMD v fun _ => decide (a = .operator) || decide (a = .driver)
    if bitOf v.toNat 62 then
      let new := BitVec.ofNat 64 ((s.reg RST_PART_CMD).toNat ||| 2 ^ 62)
      let part := s.fld RST_PART_CMD_PART
      if s.partExists part && (decide (a = .operator) || (decide (a = .driver) && s.driverOwns part)) then
        let s := (s.commandRecord a p RST_PART_CMD old new).resetPart part
        let s : State := { s with parts := s.parts.map fun e => (e.1, { e.2 with cmd := e.1 == part }) }
        (s.setFld RST_PART_CMD_RESULT 0).setFlag RST_PART_CMD_DONE false
      else
        let s := (s.setFld RST_PART_CMD_RESULT RST_REFUSED).lastCode RST_STATUS_LAST_CODE RST_REFUSED
        s.journal a p jRefused RST_PART_CMD old new
    else s

/-- Is a command the fabric manager's message? -/
def isMessage (a : Auth) (p : Path) : Bool := decide (a = .operator) && (decide (p = .mgmt0) || decide (p = .mgmt1))

/-- The PART_RESET message (R435). -/
def State.partResetMsg (s : State) (p : Path) (part : Nat) (payload : List Byte) : State :=
  s.message p 0x48 payload (s.partExists part) fun s => s.resetPart part

/-- A request of a partition compute reset: by message, or by a write of RST_PART_CMD with START = 1. -/
def execPartReset (a : Auth) (p : Path) (part : Nat) (s : State) : Out :=
  .next (if isMessage a p then s.partResetMsg p part (leBytes part 1)
    else s.writePartCmd a p (BitVec.ofNat 64 (2 ^ 62 + part % 16 * 2 ^ 48)))

/-- The pattern tests have ended: what they found is repaired, blocks that failed leave service, and the partition is in service
(R424, R431) (DEDUCED, log entry 64). -/
def execPartResetDone (part : Nat) (found : List BlockFound) (s : State) : Out :=
  .next (s.whenOn fun s => match (s.partOf part).resetAt with
    | none => s
    | some t =>
      if !s.powered then s
      else
        let x := s.partOf part
        let s := (s.patternTests (found.filter fun f => x.resetBlocks.contains f.block)).2
        let s := s.forEach x.resetBlocks fun s b => s.modBlk b fun k => { k with inReset := false }
        let s := s.modPart part fun x => { x with resetAt := none, resetBlocks := [], cmd := false }
        let s := if x.cmd then s.setFlag RST_PART_CMD_DONE true else s
        let s := s.rstNote PART_RESET_DONE 0xFF part 0 x.wide 0 t
        s.sendFm 0x41 ([0, BitVec.ofNat 8 part, 0, 0] ++ leBytes t 8))

/-- A block has not stopped within STOP_US of a teardown's stop request (R421). -/
def execBlockHung (b : Nat) (s : State) : Out :=
  .next (
    let k := s.blk b
    if !s.powered || k.phase ≠ .stopping || !k.discard || decide (s.now ≤ k.stopAt + s.fld RST_CTRL_STOP_US * 1000) ||
        !s.flag RST_CTRL_ESCALATE_EN then s
    else match s.blockPart b with
      | some p => s.resetPart p
      | none => s)

/-- A partition compute reset is not complete within 3 ms (R421). -/
def execFullResetNeeded (part : Nat) (s : State) : Out :=
  .next (s.whenOn fun s => match (s.partOf part).resetAt with
    | none => s
    | some t =>
      if !s.powered || decide (s.now ≤ t + 3000000) then s
      else
        let s := s.setFlag RST_STATUS_NEED_FULL true
        let s := s.rstNote FULL_RESET_NEEDED 0xFF part 0 (s.partOf part).wide 0 t
        s.sendFm 0x41 ([1, BitVec.ofNat 8 part, 0, 0] ++ leBytes t 8))

/-! ### The end of a drain (R418) -/

/-- Free what remains of an old tag. Its requests to the companion stay outstanding (R469) (DEDUCED, log entry 66). -/
def State.freeTag (s : State) (tag : Nat) : State :=
  let s : State := { s with
    plait := s.plait.filter fun e => match e.2 with | some o => o.tag != tag | none => true
    early := s.early.filter fun e => e.pk.tag % 2 ^ 20 != tag
    carries := s.carries.filter fun x => x.op.tag != tag
    fences := s.fences.filter fun x => x.tag != tag
    moves := s.moves.filter fun m => m.tag != tag
    tlb := s.tlb.filter fun x => x.tag != tag }
  s.endFences

/-- The context becomes FREE, its queues are unbound, and the scrub of the ranges of the generation that has drained starts; a range that an
earlier generation left is under its own scrub (DEDUCED, log entry 66). -/
def execDrainEnd (c : Nat) (s : State) : Out :=
  .next (
    let x := s.ctxOf c
    if !s.powered || x.st ≠ .quarantine || decide (s.now < x.drainAt) then s
    else
      let s := s.freeTag (c * 256 + (x.gen + 255) % 256)
      let s := s.forEach (s.ctxQueues c) fun s q => s.putQueue q { s.queueOf q with st := .unbound, entry := none }
      let s := (s.setCtx c { x with st := .free }).writeRecord c
      let s := s.schPost ⟨some (s.tagOf c), SCH_CTX_FREE, s.schSrc x.part, x.part + x.gen * 2 ^ 32, 0⟩
      let gen := (x.gen + 255) % 256
      s.forEach (x.quar.filter fun e => e.gen == gen) fun s e => s.startScrub e.base e.len (.quarantine c gen))

/-! ### Watchdogs (R419, R420) -/

/-- A watchdog's firing: strikes, and an expiry that waits to act (DEDUCED, log entry 43). -/
def State.wdFire (s : State) (key : Nat) (what : Watched) (target progress : Nat) (watched : Bool) (limit : Nat) : State :=
  let w := SMap.get (fun _ => Wd.reset) s.wds key
  let strikes := if w.latched ≠ some progress then 0 else if watched then w.strikes + 1 else w.strikes
  let out := decide (Nat.max limit 2 ≤ strikes)
  let s : State := { s with wds := SMap.set (fun _ => Wd.reset) s.wds key ⟨some progress, if out then 0 else strikes⟩ }
  if out then { s with expiries := s.expiries ++ [(what, target, s.now)] } else s

/-- A number that changes with every instruction that a block retires and every ticket that completes there. -/
def State.blockProgress (s : State) (b : Nat) : Nat :=
  let done (x : CoreSet) : Nat := (x.tk.filter fun e => decide (e.2.st = .done)).length
  (s.reg (BLK_CORE_RETIRED b)).toNat * 256 + done (s.bst b).main + done (s.bst b).fill

/-- Is a block watched: a task is placed, and the core is not HALTED, not in FTWAIT, not in WAIT.T before its deadline, and not in
a thermal stop (R420, R514)? -/
def State.blockWatched (s : State) (b : Nat) : Bool :=
  let x := if (s.bst b).fill.placed then (s.bst b).fill else (s.bst b).main
  s.taskPlaced b && !s.flag (BLK_CORE_STATUS_HALTED b) && !s.flag PWR_STATUS_STOP &&
    match x.wait with
    | .time _ _ => false
    | .deadline _ t _ => decide (t ≤ s.now)
    | _ => true

/-- A WATCHDOG slot fires (DEDUCED, log entry 43). -/
def State.watchdog (s : State) (region : Option Nat) (slot target : Nat) : State :=
  match region with
  | some r =>
    let js := if target = 0xFF then List.range 32 else if target < 32 then [target] else []
    s.forEach (js.filter fun j => s.blockPresent (32 * r + j)) fun s j =>
      let b := 32 * r + j
      s.wdFire ((r * 256 + slot) * 32 + j) (.block b) target (s.blockProgress b) (s.blockWatched b) (s.fld RST_WD_BLOCK_STRIKES)
  | none =>
    let key := 32768 + slot
    let beats (i : Nat) : Nat := SMap.get (fun _ => 0) s.heartbeats i
    if 0x100 ≤ target && target < 0x104 then
      let r := target - 0x100
      s.wdFire key (.sched r) target (beats r) (s.partList.any fun p => s.leadRegion p == r) (s.fld RST_WD_SCHED_STRIKES)
    else if target = 0x200 then
      let past := decide (s.fld RST_WD_OVERRUN_LIMIT ≤ s.overruns)
      let s : State := { s with overruns := 0 }
      if past then { s with expiries := s.expiries ++ [(.overrun, target, s.now)] } else s
    else if target = 0x201 then s.wdFire key .companion target (beats 4) s.ready (s.fld RST_WD_COMP_STRIKES)
    else s

/-- Take the oldest expiry of a watchdog: its TARGET and time (DEDUCED, log entry 43). -/
def State.takeExpiry (s : State) (what : Watched) : Option (Nat × Nat) × State :=
  match takeFirst (fun e : Watched × Nat × Nat => e.1 == what) s.expiries with
  | (none, _) => (none, s)
  | (some e, rest) => (some e.2, { s with expiries := rest })

/-- The block no-retire watchdog faults the block's context. -/
def execWdNoRetire (b : Nat) (s : State) : Out :=
  .next (s.whenOn fun s => match s.takeExpiry (.block b) with
    | (none, s) => s
    | (some (target, t), s) =>
      match (s.blk b).ctx with
      | none => s
      | some c =>
        let x := s.ctxOf c
        if !s.powered || x.st = .free || x.st = .quarantine || x.tearing then s
        else
          let tag := s.tagOf c
          let s := (s.teardown c).lastCode RST_STATUS_LAST_CODE WD_NO_RETIRE
          s.post ⟨some tag, WD_NO_RETIRE, 0x0A00 + b / 32, b + target * 2 ^ 8 + b2n (s.ctxOf c).quarWide * 2 ^ 24, t⟩)

/-- The scheduler heartbeat watchdog resets the partitions that the region leads (DEDUCED, log entry 62). -/
def execWdSchedHeartbeat (r : Nat) (s : State) : Out :=
  .next (s.whenOn fun s => match s.takeExpiry (.sched r) with
    | (none, s) => s
    | (some (target, t), s) =>
      if !s.powered then s
      else s.forEach (s.partList.filter fun p => s.leadRegion p == r) fun s p =>
        let s := s.resetPart p
        s.rstNote WD_SCHED_HEARTBEAT r p target (s.partOf p).wide 0 t)

/-- Too many completions with PLT_STRAGGLER: reported to the chip ring and to the fabric manager. -/
def execWdPlaitOverrun (s : State) : Out :=
  .next (s.whenOn fun s => match s.takeExpiry .overrun with
    | (none, s) => s
    | (some (target, t), s) =>
      if !s.powered then s
      else
        let n : Note := ⟨none, WD_PLAIT_OVERRUN, 0x0AFF, target * 2 ^ 8, t⟩
        ((s.lastCode RST_STATUS_LAST_CODE WD_PLAIT_OVERRUN).post n).sendFm 0x43 (n.bytes s.now))

/-- WD_COMPANION_LOST to the fabric manager; bit 0 of byte 20 says that the heartbeat has resumed (DEDUCED, log entry 62). -/
def State.companionMsg (s : State) (target : Nat) (resumed : Bool) (t : Nat) : State :=
  let n : Note := ⟨none, WD_COMPANION_LOST, 0x0AFF, target * 2 ^ 8 + b2n resumed * 2 ^ 32, t⟩
  (s.lastCode RST_STATUS_LAST_CODE WD_COMPANION_LOST).sendFm 0x43 (n.bytes s.now)

def execWdCompanionLost (s : State) : Out :=
  .next (s.whenOn fun s => match s.takeExpiry .companion with
    | (none, s) => s
    | (some (target, t), s) =>
      if s.powered then (s.setFlag RST_STATUS_COMPANION_LOST true).companionMsg target false t else s)

/-- 10 ms without the lid's kick: the Josil link hardware sends WD_LID (R420, R466). -/
def execWdLid (s : State) : Out :=
  .next (
    if !s.powered || !(s.lid.upsett || s.ready) || s.flag RST_STATUS_LID_WEDGED then s
    else
      let n : Note := ⟨none, WD_LID, 0x0AFF, 0, s.now⟩
      let s := (s.setFlag RST_STATUS_LID_WEDGED true).lastCode RST_STATUS_LAST_CODE WD_LID
      s.sendJosil ⟨2, msgHdr 32, 2, n.bytes s.now⟩)

/-- A write of RST_HEARTBEAT: a change of SEQ is progress, and ends COMPANION_LOST. -/
def execHeartbeatWrite (a : Auth) (p : Path) (v : Word) (s : State) : Out :=
  .next (s.arrives a p RST_HEARTBEAT v fun s =>
    let old := s.fld RST_HEARTBEAT_SEQ
    let s := s.store a p RST_HEARTBEAT v
    if s.fld RST_HEARTBEAT_SEQ = old then s
    else
      let s := s.beat 4
      if s.flag RST_STATUS_COMPANION_LOST then
        (s.setFlag RST_STATUS_COMPANION_LOST false).companionMsg 0x201 true s.now
      else s)

/-! ### The full device reset (R426) -/

/-- What a full device reset leaves: the reset state, with the fuses, the supplies and the pins as they are, and the holds of
R505, R507, R511 and R515 (DEDUCED, log entry 65). -/
def State.fullReset (s : State) : State :=
  { State.reset with
    pending := s.pending
    fuses := s.fuses
    resets := s.resets + 1
    upsets := s.upsets
    power := { s.power with resetN := false, temps := [], diode := none, lExt := 0, ctrl := Power.reset.ctrl } }

/-- JL_RESET_N is asserted. -/
def execFullReset (s : State) : Out := .next s.fullReset

/-! ### What the fabric manager's messages do (R427 to R429) -/

/-- PEER_RESET is posted on the ring of a partition (DEDUCED, log entry 63). -/
def State.peerResetMsg (s : State) (p : Path) (part : Nat) (payload : List Byte) : State :=
  s.message p 0x49 payload (s.partExists part) fun s =>
    (s.lastCode RST_STATUS_LAST_CODE PEER_RESET).postRing part
      ((⟨none, PEER_RESET, 0x0AFF, part, s.now⟩ : Note).bytes s.now)

def execPeerReset (port addr kind part step : Nat) (s : State) : Out :=
  .next (s.peerResetMsg (mgmtPath port) part (leBytes addr 2 ++ leBytes kind 1 ++ leBytes part 1 ++ leBytes step 8))

/-- Set or clear a fence bit. -/
def State.setFence (s : State) (addr : Nat) (on : Bool) : State :=
  { s with fence := SMap.set (fun _ => false) s.fence addr on }

/-- The links whose peer shows a digest. -/
def State.linksOf (s : State) (digest : Nat) : List Nat := s.linkList.filter fun k => s.digest (RIM_PEER_DIGEST k) == digest

/-- The device fences itself (R429). -/
def State.fenceSelf (s : State) : State :=
  let s := s.setFlag RST_STATUS_SELF_FENCED true
  let s := s.forEach s.partList State.resetPart
  let s := s.forEach s.linkList State.fenceLink
  let n : Note := ⟨none, SELF_FENCED, 0x0AFF, 0, s.now⟩
  ((s.lastCode RST_STATUS_LAST_CODE SELF_FENCED).post n).sendFm (Config.selfFencedType % 256) (n.bytes s.now)

/-- FENCE_PEER: the address's bit is set, and every link to the digest is fenced; the own address fences the device. -/
def State.fencePeerMsg (s : State) (p : Path) (addr digest : Nat) : State :=
  s.message p 0x4A (leBytes addr 2 ++ leBytes digest 32) true fun s =>
    if addr = s.fld RPT_GLOBAL_SELF then s.fenceSelf
    else
      let s := s.setFence addr true
      let s := s.forEach (s.linksOf digest) State.fenceLink
      s.rstNote PEER_FENCED 0xFF 0 0 false 0 s.now

def execFencePeer (port addr digest : Nat) (s : State) : Out := .next (s.fencePeerMsg (mgmtPath port) (addr % 65536) digest)

/-- READMIT_PEER: the bit is cleared, and the links are unfenced. -/
def State.readmitPeerMsg (s : State) (p : Path) (addr digest : Nat) : State :=
  s.message p 0x4B (leBytes addr 2 ++ leBytes digest 32) true fun s =>
    let s := s.setFence addr false
    let s := s.forEach (s.linksOf digest) State.unfenceLink
    s.rstNote READMITTED 0xFF 0 0 false 0 s.now

def execReadmitPeer (port addr digest : Nat) (s : State) : Out := .next (s.readmitPeerMsg (mgmtPath port) (addr % 65536) digest)

def execFenceSelf (port : Nat) (s : State) : Out := .next (s.message (mgmtPath port) 0x4C [] true State.fenceSelf)

/-- READMIT_SELF clears SELF_FENCED and unfences every link. -/
def State.readmitSelf (s : State) : State :=
  let s := s.setFlag RST_STATUS_SELF_FENCED false
  let s := s.forEach s.linkList State.unfenceLink
  s.rstNote READMITTED 0xFF 0 0 false 0 s.now

def execReadmitSelf (port : Nat) (s : State) : Out := .next (s.message (mgmtPath port) 0x4D [] true State.readmitSelf)

/-- RST_PEER_DATA as it reads: the fence bit of the selected address. -/
def State.peerData (s : State) : Word := BitVec.ofNat 64 (b2n (SMap.get (fun _ => false) s.fence (s.fld RST_PEER_SEL_ADDR)))

/-- A write of RST_PEER_DATA changes a fence bit and no link. -/
def execPeerFenceWrite (a : Auth) (p : Path) (v : Word) (s : State) : Out :=
  .next (s.arrives a p RST_PEER_DATA v fun s =>
    let s := (s.setReg RST_PEER_DATA s.peerData).store a p RST_PEER_DATA v
    let on := s.flag RST_PEER_DATA_FENCED
    (s.setReg RST_PEER_DATA 0).setFence (s.fld RST_PEER_SEL_ADDR) on)

/-! ### The return-to-service test (R434) -/

/-- May the test start? -/
def State.rtsAllowed (s : State) : Bool :=
  s.partList.isEmpty && (List.range 16).all fun e => s.fld (COL_STATUS_STATE e) == 0

/-- The test starts: the contents of all of HBM are lost, those of the reserve included, with them the records of the journal's ring and of
the step replay area (R231, R434) (DEDUCED, log entry 66). -/
def State.startRts (s : State) : State :=
  let s : State := { s with hbm := [], hbmPoison := [], saveAreas := [], recorder := [], replay := [] }
  let s := (s.setFlag RPL_STATUS_VALID false).modLid fun l => { l with journal := [] }
  ((s.modLid fun l => { l with rtsRunning := true }).setFlag HLT_RTS_DONE false)

/-- Start the test, or refuse it with RST_REFUSED. -/
def State.askRts (s : State) : State :=
  if s.rtsAllowed then s.startRts
  else (s.setFld HLT_RTS_RESULT RST_REFUSED).lastCode RST_STATUS_LAST_CODE RST_REFUSED

/-- A write of HLT_RTS: START gives its COMMAND record or, where the operator's is refused, a REFUSED one; another class's is ignored
(R495, R541) (DEDUCED, log entry 35). -/
def State.writeRts (s : State) (a : Auth) (p : Path) (v : Word) : State :=
  s.arrives a p HLT_RTS v fun s =>
    let old := s.reg HLT_RTS
    let new := BitVec.ofNat 64 (old.toNat ||| 2 ^ 62)
    if !bitOf v.toNat 62 then s
    else if a ≠ .operator then s.commandRecord a p HLT_RTS old new
    else if s.rtsAllowed then (s.commandRecord a p HLT_RTS old new).askRts
    else s.askRts.journal a p jRefused HLT_RTS old new

/-- The RTS_START message. -/
def State.rtsMsg (s : State) (p : Path) : State := s.message p 0x4E [] true State.askRts

def execRtsStart (a : Auth) (p : Path) (s : State) : Out :=
  .next (if isMessage a p then s.rtsMsg p else s.writeRts a p (2 ^ 62))

/-- The test ends: what it found is retired, repaired or taken out of service as in normal operation, and the result, with the number of
lasting faults, is stored and sent (R434) (DEDUCED, log entry 66). -/
def execRtsResult (elapsedS : Nat) (found : List BlockFound) (hbm : HbmFound) (s : State) : Out :=
  .next (
    if !s.powered || !s.lid.rtsRunning then s
    else
      let r := s.patternTests (found.filter fun f => s.blockPresent f.block)
      let h := r.2.marchTest hbm.frames hbm.channels
      let n := r.1 + h.1
      let code := if n = 0 then RTS_CLEAN else RTS_FAULTS
      let s := h.2.modLid fun l => { l with rtsRunning := false }
      let s := ((s.setFlag HLT_RTS_DONE true).setFld HLT_RTS_ELAPSED_S elapsedS).setFld HLT_RTS_FOUND n
      let s := (s.setFld HLT_RTS_RESULT code).lastCode RST_STATUS_LAST_CODE code
      s.sendFm 0x44 (leBytes code 2 ++ leBytes n 2 ++ leBytes elapsedS 2))

/-! ### ALIVE (R433, R435) -/

/-- A write of HLT_PRIOR: vendor firmware or the companion driver writes it, and during upsett only. -/
def State.writeHltPrior (s : State) (a : Auth) (p : Path) (v : Word) : State :=
  s.storeWith a p HLT_PRIOR v fun f => s.lid.upsett && ownAllows f.own a HLT_PRIOR

def execAlive (s : State) : Out :=
  .next (
    if !s.driven then s
    else s.sendFm 0x40 (leBytes s.now 8 ++ leBytes (s.rstStatus % 2 ^ 32) 4 ++ leBytes ((s.reg HLT_STATUS).toNat % 2 ^ 32) 4 ++
      leBytes (s.reg HLT_COUNT).toNat 8 ++ leBytes (s.reg HLT_PRIOR).toNat 8))

end Sys2Proof.Machine
end

