-- ==== Sys2Proof/Machine/Trigger.lean ====
section
/-!
DEFINITION. The firing of trigger slots (R17, R22, R25 to R27, R31).
-/

namespace Sys2Proof.Machine

/-- Is the slot with a control register armed, with a TIME that had come as this clk began? A slot that is written, or that a step of the
estimate passes, in a clk fires in the next one (R22, R25, R32), and none does before the first lock (R17) (DEDUCED, log entry 42). -/
def State.slotDue (s : State) (ctrl : Nat) : Bool :=
  bitOf (s.reg ctrl).toNat 0 && !s.servo.fresh.contains ctrl &&
    s.servo.fireAt.any fun t => decide ((s.reg (ctrl - 8)).toNat ≤ t)

/-- Slots fire in ascending TIME; at one TIME the chip's first, then each region's, by index, which is the order of their
registers (DEDUCED, log entry 42). -/
def State.slotFirst (s : State) (ctrl : Nat) : Bool :=
  let t := (s.reg (ctrl - 8)).toNat
  ((s.regs.map (·.1)).filter fun o => isTrigCtrl o && s.slotDue o).all fun o =>
    let u := (s.reg (o - 8)).toNat
    decide (t < u) || (t == u && decide (ctrl ≤ o))

/-- What a firing does. -/
def State.trigAct (s : State) (region : Option Nat) (i action target : Nat) : State :=
  match region, action with
  | some r, 1 => s.sliceFired r target
  | _, 2 => s.quotaFire region target
  | none, 3 => s.plaitDeadline target
  | some r, 4 => s.stepDeadline r i target
  | none, 5 => if target < 16 then s.coilTrigOpen target else s
  | none, 6 => if target < 16 then s.coilTrigClose target else s
  | none, 7 => if target < 4 then s.switchMap target else s
  | _, 8 => s.watchdog region i target
  | _, _ => s

/-- The schedule of a slot after a firing: a one-shot is disarmed; a period is added to TIME until it lies in the future, and
MISSED counts the periods skipped. A new TIME equal to fabric time is neither past nor in the future: the model skips it (DESIGN CHOICE,
log entry 101). -/
def State.trigNext (s : State) (region : Option Nat) (i : Nat) : State :=
  let off := trigCtrl region i
  let n := (s.reg off).toNat
  let period := bits n 63 32
  if period = 0 then s.setMaskBit off 0 false
  else
    let t := (s.reg (trigTime region i)).toNat + period
    let k := if s.now < t then 0 else (s.now - t) / period + 1
    let s := s.setReg (trigTime region i) (BitVec.ofNat 64 (t + k * period))
    s.setReg off (BitVec.ofNat 64 (withBits n 31 24 (Nat.min 255 (bits n 31 24 + k))))

/-- A slot fires (R25, R26). -/
def State.fireSlot (s : State) (region : Option Nat) (i : Nat) : State :=
  let off := trigCtrl region i
  let n := (s.reg off).toNat
  let s := s.setMaskBit off 1 true
  (s.trigAct region i (bits n 11 8) (bits n 23 12)).trigNext region i

/-- An armed slot whose TIME has come fires (DEDUCED, log entry 42). -/
def execTriggerFire (region : Option Nat) (i : Nat) (s : State) : Out :=
  .next (
    let off := trigCtrl region i
    if !s.powered || !s.slotDue off || !s.slotFirst off then s else s.fireSlot region i)

/-- The slot of a control register: none for the chip, else its region, and the index. -/
def slotOf (off : Nat) : Option Nat × Nat :=
  if off < RGN_TRIG_CTRL 0 0 then (none, (off - FTU_TRIG_CTRL 0) / 16)
  else (some ((off - RGN_TRIG_CTRL 0 0) / 0x100000), (off - RGN_TRIG_CTRL 0 0) % 0x100000 / 16)

/-- Every slot that is due in a clk fires, in the order of R22 and R31, before anything else of that clk: so a boundary's trigger acts
before the events stamped with its ns (R29), and before a write of its own slot (R32). A slot that a firing disarms does not fire. -/
def State.fireDue (s : State) : State :=
  let s := s.modServo fun v => { v with fireAt := if v.everLocked then some s.now else none, fresh := [] }
  let before (o u : Nat) : Bool :=
    let t := (s.reg (o - 8)).toNat
    let v := (s.reg (u - 8)).toNat
    decide (t < v) || (t == v && decide (o ≤ u))
  s.forEach (sortBy before ((s.regs.map (·.1)).filter fun o => isTrigCtrl o && s.slotDue o)) fun s o =>
    if s.slotDue o then s.fireSlot (slotOf o).1 (slotOf o).2 else s

end Sys2Proof.Machine
end

