-- ==== Sys2Proof/Machine/Josil.lean ====
section
/-!
DEFINITION. The Josil link (R438 to R471): lanes and training, flits with their replay and credits, messages in their slots, the
responses to the device's requests, snoops, and the Josil cache's fills, evictions and flush.
-/

namespace Sys2Proof.Machine

/-! ### Training (R439 to R441, R445, R447) -/

def jsDown : Nat := 0
def jsDetect : Nat := 1
def jsEqualise : Nat := 2
def jsAlign : Nat := 3
def jsActive : Nat := 4
def jsRetrain : Nat := 5
def jsFailed : Nat := 6

/-- The link state. -/
def State.jslState (s : State) : Nat := s.fld JSL_STATUS_STATE

/-- A training set (R440): the lane number that the transmitter gives the lane, its side, and its receive result. -/
structure TrainSet where
  lane : Nat
  side : Nat
  good : Nat
  width : Nat
  deriving DecidableEq, Repr

/-- One bit of the CRC-16 with the CCITT polynomial, the most significant bit first. -/
def crc16Bit (c : BitVec 16) : BitVec 16 := if c.msb then (c <<< 1) ^^^ 0x1021 else c <<< 1

/-- CRC-16 of a list of bytes, from 0xFFFF (DESIGN CHOICE, log entry 100). -/
def crc16 (l : List Byte) : BitVec 16 :=
  l.foldl (fun (c : BitVec 16) (x : Byte) => (List.range 8).foldl (fun c _ => crc16Bit c) (c ^^^ (x.setWidth 16).shiftLeft 8)) 0xFFFF

/-- The 64 bytes of a training set: the rules give its fields and not their places (DESIGN CHOICE, log entry 100). -/
def TrainSet.bytes (t : TrainSet) : List Byte :=
  let l := leBytes t.lane 1 ++ leBytes t.side 1 ++ leBytes t.good 2 ++ leBytes t.width 1 ++ List.replicate 57 0
  l ++ leBytes (crc16 l).toNat 2

/-- A set whose CRC matches. -/
def trainFrom (l : List Byte) : Option TrainSet :=
  let at_ (o n : Nat) : Nat := leNat ((l.drop o).take n)
  if l.length = 64 && at_ 62 2 == (crc16 (l.take 62)).toNat then some ⟨at_ 0 1, at_ 1 1, at_ 2 2, at_ 4 1⟩ else none

/-- What a physical lane receives: whether the set arrived inverted, and the set; none where its CRC fails in both polarities. -/
def laneHeard (l : List Byte) : Option (Bool × TrainSet) :=
  match trainFrom l with
  | some t => some (false, t)
  | none => (trainFrom (l.map (~~~ ·))).map (true, ·)

/-- What ALIGN finds: the orientation is reversed, the inverted physical lanes, the good logical lanes, and the receive result that the other
end reports on them. -/
structure Aligned where
  reversed : Bool
  inverted : Nat
  good : Nat
  report : Option TrainSet
  deriving DecidableEq, Repr

/-- What ALIGN finds of the receive lanes (R440): the report is that of the lowest good physical lane (DEDUCED, log entry 68). -/
def alignLanes (open_ : Nat → Bool) (sets : List (List Byte)) : Aligned :=
  let found := sets.map laneHeard
  let at_ (p : Nat) : Option (Bool × TrainSet) := if open_ p then none else found.getD p none
  let number (p : Nat) : Option Nat := (at_ p).map fun x => x.2.lane
  let heard := positions 16 fun p => (at_ p).isSome
  let rev := decide ((heard.filter fun p => number p == some p).length < (heard.filter fun p => number p == some (15 - p)).length)
  let logical (p : Nat) : Nat := if rev then 15 - p else p
  let good := heard.filter fun p => number p == some (logical p) && heard.all fun q => q == p || number q != number p
  ⟨rev, sumNat ((heard.filter fun p => (at_ p).any (·.1)).map (2 ^ ·)), sumNat (good.map fun p => 2 ^ logical p),
    good.head?.bind fun p => (at_ p).map (·.2)⟩

/-- The logical lanes that the receiver chooses from the good ones (R441). -/
def chosenLanes (good : Nat) : List Nat :=
  let run (lo n : Nat) : List Nat := (List.range n).map (lo + ·)
  match [run 0 16, run 0 8, run 8 8, run 0 4, run 4 4, run 8 4, run 12 4].find? fun l => l.all (bitOf good) with
  | some l => l
  | none => []

/-- The notification of a code of the link (R470). -/
def State.jslNote (s : State) (code before after : Nat) : Note :=
  ⟨none, code, 0x0800, before + after * 2 ^ 8 + s.fld JSL_STATUS_RX_WIDTH * 2 ^ 16 + s.fld JSL_STATUS_TX_WIDTH * 2 ^ 24 +
    s.fld JSL_STATUS_RX_GOOD * 2 ^ 32 + s.fld JSL_STATUS_RX_INVERTED * 2 ^ 48, 0⟩

/-- Post a code of the link; JSL_RETRAIN and JSL_DEGRADED also go out as LINK_EVENT (R464). -/
def State.jslPost (s : State) (code before after : Nat) : State :=
  let n := s.jslNote code before after
  let s := (s.lastCode JSL_STATUS_LAST_CODE code).post n
  if code = JSL_FAILED then s else s.sendJosil ⟨2, msgHdr 32, 3, n.bytes s.now⟩

/-- The logical lanes on which the device transmits: those that the other end's receiver chose and reported (R441). -/
def Aligned.txLanes (x : Aligned) : List Nat :=
  match x.report with
  | some t => let l := chosenLanes t.good; if l.length = t.width then l else []
  | none => []

/-- The training sets that the device's 16 lanes repeat: lane numbers, side 0, and the receive result so far (R440). -/
def trainingSets (good width : Nat) : List (List Byte) := (List.range 16).map fun p => (TrainSet.mk p 0 good width).bytes

/-- Store what ALIGN found: the choice goes out in the device's training sets, and the other end's is obeyed (R441). -/
def State.storeLanes (s : State) (x : Aligned) : State :=
  let width := (chosenLanes x.good).length
  let s := (s.setFlag JSL_STATUS_RX_REVERSED x.reversed).setFld JSL_STATUS_RX_INVERTED x.inverted
  let s := (s.setFld JSL_STATUS_RX_GOOD x.good).setFld JSL_STATUS_RX_WIDTH width
  (s.setFld JSL_STATUS_TX_WIDTH x.txLanes.length).modJosil fun j => { j with sets := trainingSets x.good width, txLanes := x.txLanes }

/-- The link fails: its transmitters hold electrical idle (R447); at step 2 of upsett that holds upsett (R476). -/
def State.jslFail (s : State) (before : Nat) : State :=
  let s := ((s.setFld JSL_STATUS_STATE jsFailed).modJosil fun j => { j with sets := [], txLanes := [] }).jslPost JSL_FAILED before jsFailed
  if s.lid.upsett && decide (s.fld LID_STATUS_STEP = 2) then
    (s.setFlag LID_STATUS_HOLD true).sendMail 1 [2, 1, 0, 0]
  else s

/-- 1 ms after DETECT was entered: `signal` has the lanes that have shown signal. -/
def execJslDetectEnd (signal : Nat) (s : State) : Out :=
  .next (
    if s.powered && s.jslState = jsDetect then
      (s.setFld JSL_STATUS_STATE jsEqualise).modJosil fun j => { j with signal := signal % 65536 }
    else s)

/-- Receiver adaptation is complete: each lane repeats its training set, with no receive result yet. -/
def execJslEqualiseDone (s : State) : Out :=
  .next (if s.powered && s.jslState = jsEqualise then
      (s.setFld JSL_STATUS_STATE jsAlign).modJosil fun j => { j with sets := trainingSets 0 0 }
    else s)

/-- The companion grants or returns credits of the three classes (R450, R533). -/
def State.josilCredits (s : State) (q d m : Nat) : State :=
  let r := s.gainCredits 1 0 0 s.josil.crReq q
  let s := r.2.modJosil fun j => { j with crReq := j.crReq + r.1 }
  let r := s.gainCredits 1 0 1 s.josil.crData d
  let s := r.2.modJosil fun j => { j with crData := j.crData + r.1 }
  let r := s.gainCredits 1 0 2 s.josil.crMsg m
  r.2.modJosil fun j => { j with crMsg := j.crMsg + r.1 }

/-- The request, data and message credits that the device grants in ALIGN (R450). -/
def grantedCredits : Nat × Nat × Nat := (1024, 32768, 64)

/-- ALIGN ends, with what physical lanes 0 to 7 and 8 to 15 have received: both directions have a width and the credits have been exchanged,
or the link fails (R439, R450). -/
def execJslAlignDone (low high : List (List Byte)) (crReq crData crMsg : Nat) (s : State) : Out :=
  .next (
    if !s.powered || s.jslState ≠ jsAlign then s
    else
      let sig := s.josil.signal
      let s := s.storeLanes (alignLanes (fun p => !bitOf sig p) (low ++ high))
      if s.fld JSL_STATUS_RX_WIDTH = 0 || s.fld JSL_STATUS_TX_WIDTH = 0 || crReq < 1 || crData < 256 || crMsg < 1 then s.jslFail jsAlign
      else ((s.setFld JSL_STATUS_STATE jsActive).modJosil fun j =>
        { j with crReq := 0, crData := 0, crMsg := 0, granted := grantedCredits }).josilCredits crReq crData crMsg)

/-- The link goes from ACTIVE to RETRAIN (R445) (DEDUCED, log entry 68). -/
def State.jslRetrain (s : State) : State :=
  if s.jslState = jsActive then
    let w := (s.fld JSL_STATUS_RX_WIDTH, s.fld JSL_STATUS_TX_WIDTH)
    (s.setFld JSL_STATUS_STATE jsRetrain).modJosil fun j =>
      { j with oldWidths := w, tries := [], sets := trainingSets 0 0, txLanes := [] }
  else s

/-- An active receive lane, by its logical number, loses FEC alignment. -/
def execJslLaneFecLoss (lane : Nat) (s : State) : Out :=
  .next (if s.powered && (chosenLanes (s.fld JSL_STATUS_RX_GOOD)).contains lane then s.jslRetrain else s)

/-- A retrain ends: all 16 lanes are tried, and the widths are chosen anew (DEDUCED, log entry 68). -/
def execJslRetrainDone (low high : List (List Byte)) (s : State) : Out :=
  .next (
    if !s.powered || s.jslState ≠ jsRetrain then s
    else
      let s := (s.storeLanes (alignLanes (fun _ => false) (low ++ high))).count JSL_COUNT0_RETRAINS 1
      let s := s.modJosil fun j => { j with retrains := j.retrains + 1 }
      if s.fld JSL_STATUS_RX_WIDTH = 0 || s.fld JSL_STATUS_TX_WIDTH = 0 || Nat.max 1 (s.fld JSL_CTRL_RETRAIN_LIMIT) ≤ s.josil.retrains then
        s.jslFail jsRetrain
      else
        let s := (s.setFld JSL_STATUS_STATE jsActive).jslPost JSL_RETRAIN jsRetrain jsActive
        if s.fld JSL_STATUS_RX_WIDTH < s.josil.oldWidths.1 || s.fld JSL_STATUS_TX_WIDTH < s.josil.oldWidths.2 then
          s.jslPost JSL_DEGRADED jsRetrain jsActive
        else s)

/-! ### Messages in slots (R448, R449) -/

/-- Does an opcode's message carry data? -/
def opcData (o : Nat) : Bool :=
  [opcWrNc, opcWbDirty, opcCmpData, 0x12, 0x13, opcSnpRspData, opcMsg].contains o

/-- Is an opcode a request's? -/
def opcRequest (o : Nat) : Bool := decide (1 ≤ o) && decide (o ≤ 9) && o != 7

/-- Where in its first data slot the data of a message begin: only a request has an address (DEDUCED, log entry 67). -/
def jSkew (h : JHdr) : Nat := if opcRequest h.opc then h.addr % 16 else 0

/-- Data slots of a message (DEDUCED, log entry 67). -/
def jSlots (h : JHdr) : Nat := if opcData h.opc then ceilDiv (jSkew h + h.len) 16 else 0

/-- The header slot of a message. -/
def JMsg.header (m : JMsg) : List Byte :=
  let h := m.hdr
  let last := if opcRequest h.opc then h.addr else if h.opc = opcMsg then m.mtype else h.status
  leBytes h.opc 1 ++ leBytes (b2n h.poison + 2 * b2n h.noCtx + 4 * b2n h.wbPending + 8 * b2n h.fillPending) 1 ++
    leBytes h.len 2 ++ leBytes h.tid 2 ++ leBytes h.tag 3 ++ leBytes last 7

/-- The slots of a message, its header first. -/
def JMsg.slots (m : JMsg) : List (List Byte) :=
  let n := jSlots m.hdr
  let d := List.replicate (jSkew m.hdr) 0 ++ m.data
  m.header :: pieces 16 n (d ++ List.replicate (16 * n - d.length) 0)

/-- A header slot as it is received: header and MTYPE (DEDUCED, log entry 67). -/
def headerOf (l : List Byte) : JHdr × Nat :=
  let at_ (o n : Nat) : Nat := leNat ((l.drop o).take n)
  let opc := at_ 0 1
  let flags := at_ 1 1
  let h : JHdr := ⟨opc, bitOf flags 0, bitOf flags 1, bitOf flags 2, bitOf flags 3, at_ 2 2 % 2 ^ 13, at_ 4 2, at_ 6 3 % 2 ^ 20,
    if opcRequest opc then at_ 9 7 else 0, if opcRequest opc || opc == opcMsg then 0 else at_ 9 1⟩
  (h, if opc = opcMsg then at_ 9 2 else 0)

/-- Is a header one that the companion may send (R449)? (DEDUCED, log entry 67). -/
def jValid (h : JHdr) : Bool :=
  if h.opc = opcRdNc || h.opc = opcWrNc then
    decide (1 ≤ h.len) && decide (h.len ≤ 4096) && decide (h.addr % 4096 + h.len ≤ 4096)
  else if h.opc = opcSnpInv || h.opc = opcSnpData then h.len == 0 && h.addr % 128 == 0
  else if h.opc = opcCmp then h.len == 0
  else if h.opc = opcCmpData then decide (1 ≤ h.len) && decide (h.len ≤ 4096)
  else if h.opc = opcGrantS || h.opc = opcGrantE then h.len == 128
  else if h.opc = opcMsg then h.len == 0 || h.len == 16 || h.len == 32
  else false

/-! ### Credits (R450, R533) -/

/-- Room is freed: credits for a received message are owed to the companion. -/
def State.oweCredits (s : State) (m : JMsg) : State :=
  s.modJosil fun j =>
    if m.hdr.opc = opcMsg then { j with owedMsg := j.owedMsg + 1 }
    else if opcRequest m.hdr.opc then { j with owedReq := j.owedReq + 1, owedData := j.owedData + jSlots m.hdr }
    else j

/-- Requests of the device that are at the companion: made, and not queued any more (R451). -/
def State.josilOutstanding (s : State) : Nat :=
  s.josil.reqs.length - (s.josil.queue.filter fun m => decide (m.cls = 3)).length

/-- May a queued message be sent, with the credits there are? -/
def State.maySend (s : State) (m : JMsg) : Bool :=
  let j := s.josil
  if m.cls = 3 then
    decide (1 ≤ s.usableCredits 1 0 j.crReq) && decide (jSlots m.hdr ≤ s.usableCredits 1 0 j.crData) &&
      decide (s.josilOutstanding < 4096)
  else if m.cls = 2 then decide (1 ≤ s.usableCredits 1 0 j.crMsg)
  else true

/-- The requester of the JSL arbiter that a queued message belongs to (R259, R452): the flow of the region for which a move or the cache
makes a request, and the lid for any other message (DEDUCED, log entry 67). -/
def State.jslRequester (s : State) (m : JMsg) : Nat :=
  let who : Option JWho := (s.josil.reqs.find? fun r => r.tid == m.hdr.tid && decide (m.cls = 3)).map (·.who)
  match who with
  | some (.move id) => match s.moves.find? fun x => x.id == id with
    | some x => x.blk / 32
    | none => 9
  | some (.fill _) => s.firstBlock (m.hdr.tag / 256) / 32
  | _ => 9

/-- Does a request come after an earlier one of the queue that names bytes of its lines? They keep their order (R462). -/
def JMsg.after (l : List JMsg) (m : JMsg) : Bool :=
  (l.takeWhile (· != m)).any fun e =>
    decide (lineOf e.hdr.addr ≤ lineOf (m.hdr.addr + m.hdr.len)) && decide (lineOf m.hdr.addr ≤ lineOf (e.hdr.addr + e.hdr.len))

/-- The message of a class that leaves next: snoop responses as they wait; any other is one of the requester that holds the grant of the
JSL arbiter, where it has any, and else the oldest (R452). -/
def State.jslTurn (s : State) (c : Nat) : Option JMsg :=
  let l := s.josil.queue.filter fun m => decide (m.cls = c)
  let own := match (s.arb (SCH_ARB_CFG 4)).owner with
    | some n => l.find? fun m => c != 0 && s.jslRequester m == n && !(c == 3 && m.after l)
    | none => none
  match own with
  | some m => some m
  | none => l.head?

/-- Take the next message to send: that of the first class that may go (R452). -/
def State.nextMsg (s : State) : Option JMsg × State :=
  let heads := (List.range 4).filterMap s.jslTurn
  match heads.find? s.maySend with
  | none => (none, s)
  | some m =>
    let s := s.modJosil fun j =>
      { j with queue := j.queue.erase m
               crReq := if m.cls = 3 then j.crReq - 1 else j.crReq
               crData := if m.cls = 3 then j.crData - jSlots m.hdr else j.crData
               crMsg := if m.cls = 2 then j.crMsg - 1 else j.crMsg }
    (some m, if m.mtype = 1 then s.count JSL_COUNT1_NOTIFY_SENT 1 else s)

/-- Fill up to `n` slots of a flit. -/
def State.fillSlots (s : State) : (fuel n : Nat) → List (List Byte) × State
  | 0, _ => ([], s)
  | fuel + 1, n =>
    if n = 0 then ([], s)
    else match s.josil.txSlots with
      | x :: rest =>
        let r := (s.modJosil fun j => { j with txSlots := rest }).fillSlots fuel (n - 1)
        (x :: r.1, r.2)
      | [] => match s.nextMsg with
        | (none, s) => ([], s)
        | (some m, s) => (s.modJosil fun j => { j with txSlots := m.slots }).fillSlots fuel n

/-! ### Flits (R442 to R444) -/

/-- Sequence number a is below b, in the 12 bits of SEQ. -/
def below12 (a b : Nat) : Bool :=
  let d := (b + 4096 - a % 4096) % 4096
  decide (1 ≤ d) && decide (d ≤ 2048)

/-- The bytes of a flit (R442). -/
def OutFlit.bytes (f : OutFlit) : List Byte :=
  let l := leBytes (b2n f.payload) 1 ++ leBytes (b2n f.nak + 2 * b2n f.replay) 1 ++ leBytes (f.seq % 4096) 2 ++ leBytes (f.ack % 4096) 2 ++
    leBytes f.crReq 2 ++ leBytes f.crData 2 ++ leBytes f.crMsg 2 ++ (f.slots.flatten ++ List.replicate 240 0).take 240
  l ++ leBytes (crc32c l).toNat 4

/-- A flit as it is received (R442): none where its CRC fails or its FTYPE is reserved (DEDUCED, log entry 68). -/
def flitFrom (l : List Byte) : Option OutFlit :=
  let at_ (o n : Nat) : Nat := leNat ((l.drop o).take n)
  let ftype := at_ 0 1 % 4
  if l.length = 256 && at_ 252 4 == (crc32c (l.take 252)).toNat && decide (ftype ≤ 1) then
    some ⟨ftype == 1, bitOf (at_ 1 1) 0, bitOf (at_ 1 1) 1, at_ 2 2 % 4096, at_ 4 2 % 4096, at_ 6 2, at_ 8 2, at_ 10 2,
      (List.range 15).map fun i => (l.drop (12 + 16 * i)).take 16⟩
  else none

/-- The logical lane on which byte `i` of a flit travels: the active lanes in ascending order take turns (R442). -/
def Josil.laneOf (j : Josil) (i : Nat) : Option Nat := j.txLanes[i % Nat.max 1 j.txLanes.length]?

/-- Send a flit with the acknowledgement and the credits of now; `old` is the NAK of a flit that is replayed, whose other fields are the
original's (R443). -/
def State.sendFlit (s : State) (payload : Bool) (old : Option Bool) (seq : Nat) (slots : List (List Byte)) : OutFlit × State :=
  let j := s.josil
  let f : OutFlit := ⟨payload, old.getD j.nak, old.isSome, seq, j.rxNext, Nat.min j.owedReq 65535, Nat.min j.owedData 65535,
    Nat.min j.owedMsg 65535, slots⟩
  (f, s.modJosil fun j =>
    { j with nak := old.isSome && j.nak, owedReq := j.owedReq - f.crReq, owedData := j.owedData - f.crData, owedMsg := j.owedMsg - f.crMsg
             out := j.out ++ [f] })

/-- A flit time (R442, R443, R452): a replay goes on, a new PAYLOAD flit is formed, or an IDLE flit is sent. -/
def execFlitSlot (s : State) : Out :=
  .next (
    if !s.powered || s.jslState ≠ jsActive then s
    else match s.josil.replay with
      | f :: rest =>
        let r := (s.modJosil fun j => { j with replay := rest }).sendFlit true (some f.nak) f.seq f.slots
        r.2.modJosil fun j =>
          { j with window := j.window.map fun x => if x.seq = f.seq then r.1 else x
                   tries := SMap.modify (fun _ => 0) j.tries f.seq (· + 1) }
      | [] =>
        let filled := if s.josil.window.length < 1024 then s.fillSlots 64 15 else ([], s)
        match filled with
        | ([], s) => (s.sendFlit false none s.josil.txSeq []).2
        | (l, s) =>
          let seq := s.josil.txSeq
          let r := s.sendFlit true none seq (l ++ List.replicate (15 - l.length) (List.replicate 16 0))
          r.2.modJosil fun j => { j with txSeq := (seq + 1) % 4096, window := j.window ++ [r.1] })

/-- Flits below an ACK leave the replay buffer. -/
def State.releaseFlits (s : State) (ack : Nat) : State :=
  s.modJosil fun j =>
    let w := j.window.filter fun f => !below12 f.seq ack
    { j with window := w, replay := j.replay.filter fun f => !below12 f.seq ack
             tries := j.tries.filter fun e => w.any fun f => f.seq == e.1 }

/-- Start a replay of the buffer, or a retrain where one of its flits has been replayed REPLAY_LIMIT times. The credits that its
flits carried are owed again (DEDUCED, log entry 68). -/
def State.startFlitReplay (s : State) : State :=
  let w := s.josil.window
  if w.isEmpty then s
  else if w.any fun f => decide (Nat.max 1 (s.fld JSL_CTRL_REPLAY_LIMIT) ≤ SMap.get (fun _ => 0) s.josil.tries f.seq) then s.jslRetrain
  else
    (s.count JSL_COUNT0_REPLAYS 1).modJosil fun j =>
      { j with
        window := w.map fun f => { f with crReq := 0, crData := 0, crMsg := 0 }
        replay := w
        owedReq := j.owedReq + sumNat (w.map (·.crReq))
        owedData := j.owedData + sumNat (w.map (·.crData))
        owedMsg := j.owedMsg + sumNat (w.map (·.crMsg)) }

/-- The acknowledgement timer of 2,000 ns expires. -/
def execFlitAckTimeout (s : State) : Out :=
  .next (if s.powered && s.jslState = jsActive then s.startFlitReplay else s)

/-- Ask for a NAK, once for a gap. -/
def State.wantFlitNak (s : State) : State :=
  if s.josil.gap then s else s.modJosil fun j => { j with gap := true, nak := true }

/-! ### Messages received (R449, R464, R466) -/

/-- Does CMP_DATA give as many bytes as the read that it answers asked for (R449)? -/
def State.asRequested (s : State) (h : JHdr) : Bool :=
  h.opc != opcCmpData || (s.josil.reqs.filter fun r => r.tid == h.tid).all fun r => r.len == h.len

/-- A message of the companion has arrived whole: a protocol error and a message of another type are counted and discarded, and a
request in error is answered UNSUPPORTED; anything else waits to act. -/
def State.receiveMsg (s : State) (m : JMsg) : State :=
  let mail := decide (m.mtype = 0x10) && m.hdr.len == 32 && leNat (m.data.take 2) == 0x100
  if !jValid m.hdr || !s.asRequested m.hdr then
    let s := (s.oweCredits m).count JSL_COUNT1_ACCESS_REFUSED 1
    if opcRequest m.hdr.opc then s.sendJosil ⟨1, response opcCmp m.hdr false 2 0, 0, []⟩ else s
  else if m.hdr.opc = opcMsg && !mail then (s.oweCredits m).count JSL_COUNT1_ACCESS_REFUSED 1
  else s.modJosil fun j => { j with inbox := j.inbox ++ [m] }

/-- Cut complete messages from the slots received; the fuel is the number of slots (DEDUCED, log entry 67). -/
def State.parseSlots (s : State) : Nat → State
  | 0 => s
  | fuel + 1 =>
    match s.josil.rxSlots with
    | [] => s
    | x :: rest =>
      let (h, mtype) := headerOf x
      if h.opc = 0 then (s.modJosil fun j => { j with rxSlots := rest }).parseSlots fuel
      else if rest.length < jSlots h then s
      else
        let data := (((rest.take (jSlots h)).flatMap fun l => (l ++ List.replicate 16 0).take 16).drop (jSkew h)).take h.len
        let cls := if opcRequest h.opc then 3 else if h.opc = opcMsg then 2 else 1
        let s := s.modJosil fun j => { j with rxSlots := rest.drop (jSlots h) }
        (s.receiveMsg ⟨cls, h, mtype, data⟩).parseSlots fuel

/-- A flit arrives (R443, by the rules of R322) (DEDUCED, log entry 68). -/
def execFlitReceive (fl : Flit) (s : State) : Out :=
  .next (
    if !s.powered || s.jslState ≠ jsActive then s
    else match (if fl.fecOk then flitFrom fl.bytes else none) with
      | none => (if fl.fecOk then s else s.count JSL_COUNT0_FEC_UNCORR 1).count JSL_COUNT0_CRC_FAIL 1
      | some f =>
        let s := s.releaseFlits f.ack
        let s := if f.nak then s.startFlitReplay else s
        if f.seq = s.josil.rxNext then
          let s := s.josilCredits f.crReq f.crData f.crMsg
          if f.payload then
            let s := s.modJosil fun j =>
              { j with rxNext := (j.rxNext + 1) % 4096, gap := false, retrains := 0, rxSlots := j.rxSlots ++ f.slots }
            s.parseSlots s.josil.rxSlots.length
          else s
        else if below12 s.josil.rxNext f.seq then s.wantFlitNak
        else s)

/-! ### Responses (R451, R458, R463) -/

/-- Take the outstanding request that a response answers; one that nothing awaits is dropped and counted. -/
def State.takeReq (s : State) (h : JHdr) : Option JReq × State :=
  match takeFirst (fun r : JReq => r.tid == h.tid) s.josil.reqs with
  | (none, _) => (none, s.count JSL_COUNT1_LATE_RSP 1)
  | (some r, rest) => (some r, s.modJosil fun j => { j with reqs := rest })

/-- Does a response pass block ingress (R412, R458)? One that carries a stale tag is dropped and counted. -/
def State.ingressOk (s : State) (h : JHdr) : Bool × State :=
  if h.noCtx || s.tagCurrent h.tag then (true, s) else (false, s.count RST_BORDER_LOCAL_DROP 1)

/-- The last code that the link reported shows a target's fault (R470). -/
def State.noteTarget (s : State) (code : Nat) : State :=
  if code = JSL_TARGET_FAULT then s.lastCode JSL_STATUS_LAST_CODE code else s

/-- A request has ended with a code, 0 for none. -/
def State.endReq (s : State) (r : JReq) (code : Nat) : State :=
  let s := s.noteTarget code
  match r.who with
  | .fill n =>
    let l := s.line n
    (s.setLine n { l with filling := false, err := if s.tagCurrent r.tag then some (r.tag, code) else l.err }).fillEnded n
  | .evict n => let l := s.line n; s.setLine n { l with evicting := false }
  | .move id => s.moveAnswer id code
  | .lid => s
  | .lidRead => s.lidReadEnds none

/-- The code of a response whose STATUS is not OK (DEDUCED, log entry 69). -/
def statusCode (status : Nat) : Nat := if status = 3 then HBM_READ_LOST else JSL_TARGET_FAULT

/-- Handle a response of the companion that has arrived. -/
def State.onResponse (s : State) (h : JHdr) (data : List Byte) (act : State → JMsg → JReq → State) : State :=
  if !s.powered then s
  else match s.takeMsg fun m => decide (m.hdr = h ∧ m.data = data) with
    | (none, _) => s
    | (some m, s) => match s.takeReq h with
      | (none, s) => s
      | (some r, s) => act s m r

/-- CMP: a write, a write-back or an eviction is done, or a request was not performed. -/
def execCmp (h : JHdr) (s : State) : Out :=
  .next (s.whenOn fun s => if h.opc ≠ opcCmp then s else s.onResponse h [] fun s _ r =>
    match r.who with
    | .move id =>
      match s.ingressOk h with
      | (false, s) => s
      | (true, s) =>
        let code := if h.status = 0 then 0 else moveStatus h.status
        (s.noteTarget code).moveAnswer id code
    | .fill _ =>
      let s := (s.ingressOk h).2
      s.endReq r (statusCode h.status)
    | _ => s.endReq r 0)

/-- CMP_DATA: read data of a move, or of the lid. -/
def execCmpData (h : JHdr) (data : List Byte) (s : State) : Out :=
  .next (s.whenOn fun s => if h.opc ≠ opcCmpData then s else s.onResponse h data fun s m r =>
    match r.who, s.ingressOk h with
    | .move id, (true, s) => s.moveData id m.data h.poison
    | .move _, (false, s) => s
    | .lidRead, (_, s) => s.lidReadEnds (if h.poison then none else some m.data)
    | _, _ => s.endReq r JSL_TARGET_FAULT)

/-- Lines that the cache holds. -/
def Josil.held (j : Josil) : List Nat := (j.lines.filter fun e => decide (e.2.st ≠ .invalid)).map (·.1)

/-- Make room for a line that the cache does not hold, where it is full: a line whose fill is outstanding is not evicted (R459) (DESIGN
CHOICE, log entry 22). -/
def State.cacheRoom (s : State) (n : Nat) : State :=
  let full := decide (32768 ≤ s.josil.held.length) && decide ((s.line n).st = .invalid)
  let l := s.josil.held.filter fun k => !(s.line k).filling
  if full && !l.isEmpty then s.evictLine (l.getD (Config.cacheVictim n l.length % l.length) 0) else s

/-- A grant installs its line and is acknowledged (DEDUCED, log entry 69). -/
def State.grant (s : State) (h : JHdr) (data : List Byte) (st : LineState) : State :=
  s.onResponse h data fun s m r =>
    match r.who with
    | .fill n =>
      let s := (s.ingressOk h).2
      let s := s.cacheRoom n
      let l := s.line n
      let s := s.setLine n { l with st := st, data := m.data, poison := h.poison, filling := false }
      (s.sendJosil ⟨0, response opcGrantAck h false 0 0, 0, []⟩).fillEnded n
    | _ => s

def execGrantS (h : JHdr) (data : List Byte) (s : State) : Out := .next (s.whenOn fun s => if h.opc ≠ opcGrantS then s else s.grant h data .shared)
def execGrantE (h : JHdr) (data : List Byte) (s : State) : Out := .next (s.whenOn fun s => if h.opc ≠ opcGrantE then s else s.grant h data .exclusive)

/-- A request has not been answered within REQ_TIMEOUT_US: it is retired (R451) (DEDUCED, log entry 69). -/
def execJslTimeout (tid : Nat) (s : State) : Out :=
  .next (s.whenOn fun s => match s.josil.reqs.find? fun r => r.tid == tid with
    | none => s
    | some r =>
      if !s.powered || decide (s.now < r.at_ + 1000 * Nat.max 1 (s.fld JSL_CTRL_REQ_TIMEOUT_US)) then s
      else
        let s := s.modJosil fun j => { j with reqs := j.reqs.erase r, retired := j.retired ++ [(tid, s.now)] }
        let s := s.lastCode JSL_STATUS_LAST_CODE JSL_TIMEOUT
        (s.count JSL_COUNT1_TIMEOUTS 1).endReq r JSL_TIMEOUT)

/-! ### Snoops (R460) -/

/-- A snoop acts on its line and is answered at once. -/
def State.snoop (s : State) (h : JHdr) (after : LineState) : State :=
  if !s.powered then s
  else match s.takeMsg fun m => decide (m.hdr = h) with
    | (none, _) => s
    | (some m, s) =>
      let s := (s.oweCredits m).count JSL_CACHE_SNOOPS 1
      let n := h.addr / 128
      let l := s.line n
      let rsp := response opcSnpRsp h false 0 0
      if l.evicting then s.sendJosil ⟨0, { rsp with wbPending := true }, 0, []⟩
      else
        let pend := l.filling
        match l.st with
        | .invalid => s.sendJosil ⟨0, { rsp with fillPending := pend }, 0, []⟩
        | .modified =>
          let s := s.setLine n (if after = .invalid then { Line.reset with filling := l.filling, err := l.err } else { l with st := after })
          s.sendJosil ⟨0, { response opcSnpRspData h l.poison 0 128 with fillPending := pend }, 0, l.data⟩
        | _ =>
          let s := s.setLine n (if after = .invalid then { Line.reset with filling := l.filling, err := l.err } else { l with st := after })
          s.sendJosil ⟨0, { rsp with fillPending := pend }, 0, []⟩

def execSnpInv (h : JHdr) (s : State) : Out := .next (s.whenOn fun s => if h.opc ≠ opcSnpInv then s else s.snoop h .invalid)
def execSnpData (h : JHdr) (s : State) : Out := .next (s.whenOn fun s => if h.opc ≠ opcSnpData then s else s.snoop h .shared)

/-! ### JSL_CTRL and the flush (R445, R462) -/

/-- Evict every line that is held; one whose fill is outstanding is evicted when that ends (R459, R462). -/
def State.flushLines (s : State) : State :=
  let busy := s.josil.held.filter fun n => (s.line n).filling
  let s := s.forEach (s.josil.held.filter fun n => !(s.line n).filling) State.evictLine
  s.modJosil fun j => { j with flush := busy }

/-- A write of JSL_CTRL: RETRAIN and FLUSH act for the companion driver. -/
def State.writeJslCtrl (s : State) (a : Auth) (p : Path) (v : Word) : State :=
  s.arrives a p JSL_CTRL v fun s =>
    let s := s.store a p JSL_CTRL v
    if a ≠ .driver then s
    else
      let s := if bitOf v.toNat 1 then s.flushLines.setFlag JSL_STATUS_FLUSHING true else s
      if bitOf v.toNat 0 then s.jslRetrain else s

def execJslRetrainWrite (a : Auth) (p : Path) (v : Word) (s : State) : Out :=
  .next (if bitOf v.toNat 0 then s.writeJslCtrl a p v else s)
def execFlush (a : Auth) (p : Path) (v : Word) (s : State) : Out :=
  .next (if bitOf v.toNat 1 then s.writeJslCtrl a p v else s)

/-- The flush is done: no eviction is in flight, and none waits for a fill. -/
def execFlushDone (s : State) : Out :=
  .next (
    if s.powered && s.flag JSL_STATUS_FLUSHING && s.josil.flush.isEmpty && (s.josil.lines.all fun e => !e.2.evicting) then s.setFlag JSL_STATUS_FLUSHING false
    else s)

/-- JSL_CACHE as it reads: the lines in M and the lines held are those of now. -/
def State.jslCache (s : State) : Nat :=
  let m := (s.josil.lines.filter fun e => decide (e.2.st = .modified)).length
  withBits (withBits (s.reg JSL_CACHE).toNat 63 48 m) 47 32 s.josil.held.length

/-! ### Echo mail (R498) -/

/-- An ECHO mail is returned unchanged by the lid, unless it is wedged. -/
def execEcho (body : List Byte) (s : State) : Out :=
  .next (
    if !s.powered || s.flag RST_STATUS_LID_WEDGED then s
    else match s.takeMsg fun m => m.hdr.opc == opcMsg && m.data.drop 8 == body with
      | (none, _) => s
      | (some m, s) => (s.oweCredits m).sendMail 0x101 (m.data.drop 8))

end Sys2Proof.Machine
end

