-- ==== Sys2Proof/Machine/Power.lean ====
section
/-!
DEFINITION. Power, clocks, thermal limits, the power throttle, the management ports and SMBus (R500 to R528). What a supply, a
sensor, a clock or a peer on a bus does is a command that carries what the device sees of it.
-/

namespace Sys2Proof.Machine

/-! ### Stops of the whole device (R505 to R507, R511, R515) -/

/-- Every unit stops as on an assertion of JL_RESET_N and is held, with FAULT_CAUSE and SMB_ALERT_N; the pin itself stays (DEDUCED, log entry 72). -/
def State.stopAll (s : State) (cause : Nat) : State :=
  let r := s.power.resetN
  s.fullReset.modPower fun w => { w with resetN := r, held := true, faultCause := cause, smbAlertN := false }

/-- A wrong power-up order, which only a power-up shows (DEDUCED, log entry 72). -/
def execRailOrderFault (_rail : Nat) (s : State) : Out :=
  .next (
    if s.power.pwrGood then s
    else (s.stopAll 1).modPower fun w => { w with railsOn := true, pwrFaultN := false })

/-- A core or HBM rail is under voltage in service. -/
def execUnderVoltage (rail : Nat) (s : State) : Out :=
  .next (
    if !s.power.railsOn || s.power.held || !([3, 4, 5, 6].contains rail) then s
    else (s.stopAll (2 + 16 * rail)).modPower fun w => { w with pwrFaultN := false, pwrGood := false })

/-- The main rails fall: nothing is kept but the fuses (DEDUCED, log entry 72). -/
def execPowerOff (s : State) : Out :=
  .next { State.reset with
    pending := s.pending
    fuses := s.fuses
    resets := s.resets + 1
    upsets := s.upsets
    power := { Power.reset with railsOn := false, throtReqN := s.power.throtReqN } }

/-! ### Reference clocks (R510, R511) -/

/-- The fields of the two clocks. -/
def clkOk (b : Bool) : Fld := if b then PWR_CLK_B_OK else PWR_CLK_A_OK

/-- Is the other clock than the selected one good? -/
def State.otherGood (s : State) : Bool := s.flag (clkOk (!s.flag PWR_CLK_SEL))

/-- Switch to the other reference clock. -/
def State.switchClock (s : State) : State :=
  (s.setFlag PWR_CLK_SEL (!s.flag PWR_CLK_SEL)).count PWR_CLK_SWITCHES 1

/-- A clock is present, or lost. -/
def Power.setRef (w : Power) (b on : Bool) : Power := if b then { w with refB := on } else { w with refA := on }

/-- A clock is lost: its REFCLK_LOST bit sets, and if it was the selected one the device runs on the other (DESIGN CHOICE, log entry 71). -/
def execRefclkLoss (clkB : Bool) (s : State) : Out :=
  .next (
    let s := s.modPower fun w => w.setRef clkB false
    if !s.powered || !s.flag (clkOk clkB) then s
    else
      let s := s.setFlag (clkOk clkB) false
      let s := if s.flag PWR_CLK_SEL = clkB && s.otherGood then s.switchClock else s
      s.condition (if clkB then 5 else 4) REFCLK_LOST true)

/-- Both clocks have been lost for more than 100 µs. -/
def execRefclkBothLost (s : State) : Out :=
  .next (
    if !s.power.railsOn || s.power.held || s.flag PWR_CLK_A_OK || s.flag PWR_CLK_B_OK || !s.flag DIM_UNITS_VALID then s
    else (s.stopAll 3).modPower fun w => { w with pwrFaultN := false })

/-- A write of PWR_CLK: SELECT is the operator's, and journaled (DESIGN CHOICE, log entry 71). -/
def State.writePwrClk (s : State) (a : Auth) (p : Path) (v : Word) : State :=
  if !bitOf v.toNat 3 then s
  else if a ≠ .operator then s.refuseAuth a p PWR_CLK (s.reg PWR_CLK) v
  else
    let old := s.reg PWR_CLK
    let s := if s.otherGood then s.switchClock else s
    s.journal a p jWrite PWR_CLK old (s.reg PWR_CLK)

def execClockSelect (a : Auth) (p : Path) (v : Word) (s : State) : Out :=
  .next (s.arrives a p PWR_CLK v fun s => s.writePwrClk a p v)

/-! ### The throttle level (R513, R516 to R518) -/

/-- LIMIT_W in force: at most the envelope, at least half of it. -/
def State.limitW (s : State) : Nat :=
  let e := s.fld DIM_UNITS_ENVELOPE_W
  Nat.max (Nat.min (bits s.power.ctrl.toNat 63 48) e) (e / 2)

/-- EXT_LEVEL in force. -/
def Power.extLevel (w : Power) : Nat := Nat.min 56 (bits w.ctrl.toNat 35 30)

/-- TH_START_C in force. -/
def Power.thStart (w : Power) : Nat := Nat.max 70 (Nat.min 95 (bits w.ctrl.toNat 29 22))

/-- L = max(L_pwr, L_th, L_ext). -/
def State.setLevel (s : State) : State :=
  s.setFld PWR_STATUS_LEVEL (Nat.max (Nat.max (s.fld PWR_STATUS_L_PWR) (s.fld PWR_STATUS_L_TH)) s.power.lExt)

/-- PWR_STATUS as it reads: EXT is the pin. -/
def State.pwrStatus (s : State) : Nat := withBits (s.reg PWR_STATUS).toNat 13 13 (b2n (!s.power.throtReqN))

/-- A 10 µs window ends: `estimateW` is the measured power. A PWR_CTRL written during the window acts from here on (DEDUCED, log entry 73). -/
def execPowerWindowEnd (estimateW : Nat) (s : State) : Out :=
  .next (
    if !s.powered || !s.flag DIM_UNITS_VALID then s
    else
      let stuck := bitOf (s.reg HLT_STATUS).toNat 7
      let p10 := estimateW * (if stuck then 11 else 10)
      let shown := p10 / 10 + (if p10 % 10 ≠ 0 && Config.powerUp estimateW then 1 else 0)
      let limit := s.limitW
      let up := Nat.max 1 (bits s.power.ctrl.toNat 39 36)
      let l := s.fld PWR_STATUS_L_PWR
      let l' := if 10 * limit < p10 then Nat.min (l + up) 56
        else if p10 + 10 * bits s.power.ctrl.toNat 47 40 < 10 * limit then l - 1 else l
      let s := (s.setFld PWR_STATUS_POWER_W (Nat.min shown 65535)).setFld PWR_STATUS_L_PWR l'
      let s := if l' = 0 then s else s.count PWR_COUNT_LIMITED 1
      let s := s.modPower fun w => { w with ctrl := s.reg PWR_CTRL }
      let s := s.modPower fun w => { w with lExt := if w.throtReqN then 0 else w.extLevel }
      s.setLevel)

/-- THROT_REQ_N goes low: L_ext acts at once. -/
def execThrotReqAssert (s : State) : Out :=
  .next (
    if !s.power.throtReqN then s
    else
      let s := s.modPower fun w => { w with throtReqN := false }
      if !s.powered then s
      else ((s.count PWR_COUNT_EXT_ASSERTS 1).modPower fun w => { w with lExt := w.extLevel }).setLevel)

/-- THROT_REQ_N goes high: L_ext falls when the window ends. -/
def execThrotReqDeassert (s : State) : Out := .next (s.modPower fun w => { w with throtReqN := true })

/-! ### Thermal limits (R512 to R515); temperatures in 0.125 °C -/

/-- The highest reading of a list of sensors from index `i` on, and the first sensor that gave it (DEDUCED, log entry 74). -/
def hottest (best : Option (Int × Nat)) (i : Nat) : List Int → Option (Int × Nat)
  | [] => best
  | t :: ts =>
    let b := match best with | none => some (t, i) | some (u, j) => if u < t then some (t, i) else some (u, j)
    hottest b (i + 1) ts

/-- Tj and the sensor that gave it: 0 to 63, or 64 for the diode. -/
def Power.tj (w : Power) : Option (Int × Nat) :=
  let on := hottest none 0 w.temps
  match w.diode with
  | none => on
  | some d => hottest on 64 [d]

/-- L_th of a temperature. -/
def thermalLevel (start : Nat) (t : Int) : Nat :=
  let c := t / 8
  if c < start then 0 else Nat.min 56 (6 * ((c - start).toNat + 1))

/-- Post THERMAL_STOP: begun or ended, with the sensor and Tj. -/
def State.thermalNote (s : State) (on : Bool) (sensor : Nat) (t : Int) : State :=
  (s.lastCode PWR_STATUS_LAST_CODE THERMAL_STOP).post
    ⟨none, THERMAL_STOP, 0x0AFF, b2n on * 2 ^ 32 + sensor % 256 * 2 ^ 40 + wrap 16 t * 2 ^ 48, 0⟩

/-- The arrays stop in mid-rand: they record what they were running (R84), and reload their front latches when they resume (R82). -/
def State.recordProgress (s : State) : State :=
  s.forEach ((s.blks.map (·.1)).filter fun b => (s.bst b).run.isSome) fun s b =>
    match (s.bst b).run with
    | some r =>
      let s := s.setFlag (BLK_ARR_PROGRESS_VALID b) true
      let s := s.setFld (BLK_ARR_PROGRESS_TICKET b) r.op.ticket
      let s := s.setFld (BLK_ARR_PROGRESS_NEXT_ROW b) r.next
      s.modBst b fun x => { x with run := x.run.map fun r => { r with latched := false } }
    | none => s

/-- What a reading does: the trip at 115 °C, else Tj, L_th and the emergency stop at 105 °C (DEDUCED, log entry 74). -/
def State.thermal (s : State) : State :=
  match s.power.tj with
  | none => s
  | some (t, i) =>
    if 920 ≤ t then (s.stopAll 4).modPower fun w => { w with thermTripN := false }
    else if !s.powered then s
    else
      let s := (s.setFld PWR_THERM_TJ_MAX (wrap 16 t)).setFld PWR_THERM_HOT_SENSOR i
      let s := (s.setFld PWR_STATUS_L_TH (thermalLevel s.power.thStart t)).setLevel
      if 840 ≤ t && !s.flag PWR_STATUS_STOP then
        let s := s.setFlag PWR_STATUS_STOP true
        let s := (s.count PWR_COUNT_THERM_STOPS 1).recordProgress
        (s.thermalNote true i t).modPower fun w => { w with smbAlertN := false }
      else s

/-- The on-die sensors are sampled. -/
def execThermalSample (temps : List Int) (s : State) : Out :=
  .next (
    if !s.power.railsOn || !s.power.thermTripN then s else (s.modPower fun w => { w with temps := temps }).thermal)

/-- The diode is sampled: open outside 0.30 V to 0.90 V (DEDUCED, log entry 74). -/
def execDiodeSample (milliVolt : Nat) (temp : Int) (s : State) : Out :=
  .next (
    if !s.power.railsOn || !s.power.thermTripN then s
    else
      let isOpen := decide (milliVolt < 300) || decide (900 < milliVolt)
      let s := s.modPower fun w => { w with diode := if isOpen then none else some temp }
      let s := if !s.powered then s
        else
          let s := (s.setFld PWR_THERM_DIODE (if isOpen then 0 else wrap 16 temp)).setFlag PWR_THERM_DIODE_OPEN isOpen
          s.condition 6 DIODE_OPEN isOpen
      s.thermal)

/-- Every sensor has read below 100.0 °C for 1 ms: the stop is released. -/
def execThermalStopRelease (s : State) : Out :=
  .next (s.whenOn fun s => match s.power.tj with
    | none => s
    | some (t, i) =>
      if s.powered && s.flag PWR_STATUS_STOP && decide (t < 800) then (s.setFlag PWR_STATUS_STOP false).thermalNote false i t
      else s)

/-! ### Management ports (R519, R520, R524) -/

/-- The register fields of a port. -/
def mgtUp (port : Nat) : Fld := if port = 0 then MGT_STATUS_P0_UP else MGT_STATUS_P1_UP
def mgtFec (port : Nat) : Fld := if port = 0 then MGT_STATUS_P0_FEC else MGT_STATUS_P1_FEC
def mgtEn (port : Nat) : Fld := if port = 0 then MGT_CTRL_PORT0_EN else MGT_CTRL_PORT1_EN

/-- A port has been without block lock, or disabled, for 10 ms. -/
def execMgmtPortDown (port : Nat) (s : State) : Out :=
  .next (
    if !s.powered || decide (2 ≤ port) then s
    else ((s.setFlag (mgtUp port) false).setFlag (mgtFec port) false).condition (2 + port) MGMT_PORT_DOWN true)

/-- A port has had block lock for 1 s; `fec`: it runs clause 74 FEC (DEDUCED, log entry 75). -/
def execMgmtPortUp (port : Nat) (fec : Bool) (s : State) : Out :=
  .next (
    if !s.driven || decide (2 ≤ port) || !s.flag (mgtEn port) then s
    else ((s.setFlag (mgtUp port) true).setFlag (mgtFec port) fec).condition (2 + port) MGMT_PORT_DOWN false)

/-- The answer of a port to a frame for its address (R519): its address and MAC, or the echo; none to any other frame. -/
def State.netAnswer (s : State) (port : Nat) : NetFrame → Option NetAnswer
  | .arp t m | .neighbourSolicitation t m => if t = s.mgtAddr port then some (.here t (s.fld (MGT_MAC_MAC port)) m) else none
  | .echo t m d => if t = s.mgtAddr port then some (.echo t m d) else none
  | .other => none

/-- A frame at the network layer: answered, or discarded and counted. -/
def execMgmtNetworkFrame (port : Nat) (fr : NetFrame) (s : State) : Out :=
  .next (
    if !s.driven || decide (2 ≤ port) || !s.flag (mgtEn port) then s
    else match s.netAnswer port fr with
      | none => s.count MGT_COUNT_DROPPED 1
      | some x => s.modLid fun l => { l with answered := l.answered ++ [(port, x)] })

/-- TELEMETRY is sent; an interval of 0 disables it. -/
def execTelemetry (s : State) : Out :=
  .next (
    if !s.driven || s.fld MGT_CTRL_TELEM_MS = 0 then s
    else s.sendFm 0x21 (leBytes (s.fld PWR_STATUS_POWER_W) 2 ++ leBytes (s.fld PWR_STATUS_LEVEL) 1 ++
      leBytes (s.fld PWR_STATUS_STOP) 1 ++ leBytes (s.fld PWR_THERM_TJ_MAX) 2 ++ leBytes (s.fld PWR_THERM_DIODE) 2 ++
      leBytes (s.fld PWR_THERM_HOT_SENSOR) 1 ++ List.replicate 7 0))

/-! ### SMBus (R525, R526) -/

/-- SMBUS_STUCK is set. -/
def State.smbStuck (s : State) : Bool := bitOf (s.reg HLT_STATUS).toNat 7

/-- A regulator is polled: `ok` says whether it acknowledged (DEDUCED, log entry 75). -/
def execRegulatorPoll (i : Nat) (ok : Bool) (voutMv iout tempC : Nat) (s : State) : Out :=
  .next (
    if !s.driven || s.smbStuck || decide (9 ≤ i) || !s.flag (SMB_VR_EN i) then s
    else if !ok then s.count SMB_STATUS_NAKS 1
    else
      let s := ((s.setFld (SMB_VR_VOUT_MV i) voutMv).setFld (SMB_VR_IOUT i) iout).setFld (SMB_VR_TEMP_C i) tempC
      s.setFlag PWR_STATUS_CALIBRATED true)

/-- The target answers from the moment that VDD_IO is in range, even in reset; a transfer comes only then (DEDUCED, log entry 75). -/
def State.smbAnswers (s : State) (n : Nat) : State := s.modPower fun w => { w with smbAnswer := some n }

/-- The status word of command code 0x00. -/
def State.smbStatusWord (s : State) : Nat :=
  b2n s.ready + 2 * b2n (!s.power.pwrFaultN) + 4 * s.fld PWR_STATUS_STOP + 8 * b2n (!s.power.thermTripN) +
    16 * s.fld PWR_THERM_DIODE_OPEN + 32 * b2n s.smbStuck

def execSmbStatusRead (s : State) : Out := .next (s.smbAnswers s.smbStatusWord)
def execSmbTjRead (s : State) : Out := .next (s.smbAnswers (s.fld PWR_THERM_TJ_MAX))
def execSmbPowerRead (s : State) : Out := .next (s.smbAnswers (s.fld PWR_STATUS_POWER_W))
def execSmbFaultCauseRead (s : State) : Out := .next (s.smbAnswers s.power.faultCause)

/-- The board reads the Alert Response Address (DEDUCED, log entry 75). -/
def execAlertResponse (s : State) : Out :=
  .next (s.modPower fun w => { w with smbAlertN := true })

/-- A recovery of the bus has succeeded. -/
def State.smbRecovered (s : State) : State :=
  ((s.count SMB_STATUS_RECOVERIES 1).setFlag SMB_STATUS_DAT_STUCK false).setFlag SMB_STATUS_CLK_STUCK false

/-- A line has been held low for more than 35 ms; `recovered`: one of the three attempts on SMB_DAT succeeded. -/
def execSmbusStuck (clkLine recovered : Bool) (s : State) : Out :=
  .next (
    if !s.driven then s
    else if !clkLine && recovered then s.smbRecovered
    else
      let s := s.setFlag (if clkLine then SMB_STATUS_CLK_STUCK else SMB_STATUS_DAT_STUCK) true
      (s.setFlag PWR_STATUS_CALIBRATED false).condition 7 SMBUS_STUCK true)

/-- The recovery is tried again each second while the bus is stuck. -/
def execSmbusRecoveryRetry (recovered : Bool) (s : State) : Out :=
  .next (if s.driven && s.smbStuck && recovered then s.smbRecovered else s)

/-- Both lines have been high for 10 ms. -/
def execSmbusLinesHigh (s : State) : Out :=
  .next (
    if s.powered && s.smbStuck then
      ((s.setFlag SMB_STATUS_DAT_STUCK false).setFlag SMB_STATUS_CLK_STUCK false).condition 7 SMBUS_STUCK false
    else s)

/-- The clock has been held low for 25 ms: the target interface is reset (DEDUCED, log entry 75). -/
def execSmbTargetTimeout (s : State) : Out :=
  .next (s.modPower fun w => { w with smbAnswer := none })

end Sys2Proof.Machine
end

