-- ==== Sys2Proof/Machine/Xmss.lean ====
section
/-!
DEFINITION. The signatures of the lid (R479, R485): XMSS with SHAKE256, n = 32 and w = 16, as RFC 8391 and NIST SP 800-208 define
it. The specification names these texts and does not repeat them: PRESUMED (log entry 4).
-/

namespace Sys2Proof.Machine

/-- Big-endian bytes, the lowest `k` of them. -/
def beBytes (n k : Nat) : List Byte := (leBytes n k).reverse

/-- Exclusive or of two byte strings. -/
def xmssXor (a b : List Byte) : List Byte := List.zipWith (fun x y => x ^^^ y) a b

/-- The keyed hash functions: F, H, H_msg, PRF and PRF_keygen are told apart by `t`. -/
def xHash (t : Nat) (key m : List Byte) : List Byte := shake256 (beBytes t 32 ++ key ++ m) 32

/-- A hash address of layer 0, tree 0: type and the words after it. -/
def xAdrs (ty w4 w5 w6 km : Nat) : List Byte :=
  beBytes 0 12 ++ beBytes ty 4 ++ beBytes w4 4 ++ beBytes w5 4 ++ beBytes w6 4 ++ beBytes km 4

/-- `n` steps of a chain from step `i` on. -/
def wotsChain (seed : List Byte) (ots chain : Nat) : (i n : Nat) → List Byte → List Byte
  | _, 0, x => x
  | i, n + 1, x =>
    let key := xHash 3 seed (xAdrs 0 ots chain i 0)
    let mask := xHash 3 seed (xAdrs 0 ots chain i 1)
    wotsChain seed ots chain (i + 1) n (xHash 0 key (xmssXor x mask))

/-- The randomised hash of two nodes. -/
def randHash (seed : List Byte) (ty w4 h i : Nat) (l r : List Byte) : List Byte :=
  let key := xHash 3 seed (xAdrs ty w4 h i 0)
  let m0 := xHash 3 seed (xAdrs ty w4 h i 1)
  let m1 := xHash 3 seed (xAdrs ty w4 h i 2)
  xHash 1 key (xmssXor l m0 ++ xmssXor r m1)

/-- One level of an L-tree. -/
def ltreeLevel (seed : List Byte) (lt h : Nat) : Nat → List (List Byte) → List (List Byte)
  | i, x :: y :: rest => randHash seed 1 lt h i x y :: ltreeLevel seed lt h (i + 1) rest
  | _, l => l

/-- The root of an L-tree, within `n` levels from level `h` on. -/
def ltree (seed : List Byte) (lt : Nat) : (n h : Nat) → List (List Byte) → List Byte
  | 0, _, l => l.headD []
  | n + 1, h, l => ltree seed lt n (h + 1) (ltreeLevel seed lt h 0 l)

/-- The 67 digits of a message digest, its checksum among them. -/
def wotsDigits (m : List Byte) : List Nat :=
  let d := m.flatMap fun b => [b.toNat / 16, b.toNat % 16]
  let c := (d.map (15 - ·)).foldl (· + ·) 0
  d ++ [c / 256 % 16, c / 16 % 16, c % 16]

/-- A one-time secret. -/
def wotsSecret (sk seed : List Byte) (ots chain : Nat) : List Byte := xHash 4 sk (seed ++ xAdrs 0 ots chain 0 0)

/-- The leaf of an index: the root of the L-tree over its one-time public key (PRESUMED, log entry 4). -/
def xmssLeaf (sk seed : List Byte) (i : Nat) : List Byte :=
  ltree seed i 7 0 ((List.range 67).map fun c => wotsChain seed i c 0 15 (wotsSecret sk seed i c))

/-- Node `i` of height `h`. -/
def xmssNode (sk seed : List Byte) : (h i : Nat) → List Byte
  | 0, i => xmssLeaf sk seed i
  | h + 1, i => randHash seed 2 0 h i (xmssNode sk seed h (2 * i)) (xmssNode sk seed h (2 * i + 1))

/-- A key: OID, height and the three seeds. -/
structure XmssKey where
  oid : Nat
  height : Nat
  sk : List Byte
  prf : List Byte
  seed : List Byte

/-- A key from its 96 seed bytes. -/
def xmssKey (oid height : Nat) (seeds : List Byte) : XmssKey :=
  ⟨oid, height, seeds.take 32, (seeds.drop 32).take 32, (seeds.drop 64).take 32⟩

/-- The root of a key's tree. -/
def XmssKey.root (k : XmssKey) : List Byte := xmssNode k.sk k.seed k.height 0

/-- The public key, 68 bytes: OID, root, public seed. -/
def XmssKey.public (k : XmssKey) : List Byte := beBytes k.oid 4 ++ k.root ++ k.seed

/-- The digest that is signed. -/
def xmssDigest (r root : List Byte) (i : Nat) (m : List Byte) : List Byte := xHash 2 (r ++ root ++ beBytes i 32) m

/-- The signature of a message at an index (PRESUMED, log entry 4). -/
def XmssKey.sign (k : XmssKey) (i : Nat) (m : List Byte) : List Byte :=
  let r := xHash 3 k.prf (beBytes i 32)
  let d := wotsDigits (xmssDigest r k.root i m)
  let ots := d.zipIdx.flatMap fun (n, c) => wotsChain k.seed i c 0 n (wotsSecret k.sk k.seed i c)
  let auth := (List.range k.height).flatMap fun h => xmssNode k.sk k.seed h (i / 2 ^ h ^^^ 1)
  beBytes i 4 ++ r ++ ots ++ auth

/-- The number that big-endian bytes stand for. -/
def beNat (l : List Byte) : Nat := leNat l.reverse

/-- Does a signature verify a message under a public key of a tree height? (PRESUMED, log entry 4). -/
def xmssVerify (height : Nat) (pk m sig : List Byte) : Bool :=
  let root := (pk.drop 4).take 32
  let seed := (pk.drop 36).take 32
  let i := beNat (sig.take 4)
  let r := (sig.drop 4).take 32
  let part (j : Nat) : List Byte := (sig.drop (36 + 32 * j)).take 32
  let d := wotsDigits (xmssDigest r root i m)
  let ends := d.zipIdx.map fun (n, c) => wotsChain seed i c n (15 - n) (part c)
  let leaf := ltree seed i 7 0 ends
  let top := (List.range height).foldl (fun node h =>
    let l := if i / 2 ^ h % 2 = 1 then part (67 + h) else node
    let r := if i / 2 ^ h % 2 = 1 then node else part (67 + h)
    randHash seed 2 0 h (i / 2 ^ (h + 1)) l r) leaf
  decide (pk.length = 68) && decide (sig.length = 2180 + 32 * height) && decide (i < 2 ^ height) && decide (top = root)

/-- The seeds of a key of the device (R485). -/
def keySeeds (secret : Nat) (label : List Byte) (e : Nat) : List Byte := shake256 (bytes32 secret ++ label ++ leBytes e 4) 96

/-- The identity key: label "IDNT", height 12, the vendor's OID. -/
def identityKey (secret : Nat) : XmssKey := xmssKey 0x4C000C01 12 (keySeeds secret [0x49, 0x44, 0x4E, 0x54] 0)

/-- Epoch key e: label "EPCH", height 16, the OID of XMSS-SHAKE256_16_256. -/
def epochKey (secret e : Nat) : XmssKey := xmssKey 0x00000011 16 (keySeeds secret [0x45, 0x50, 0x43, 0x48] e)

end Sys2Proof.Machine
end

