-- ==== Sys2Proof/Machine/Upsett.lean ====
section
/-!
DEFINITION. The lid: upsett, the firmware image, the repair table, the epoch and attestation, the session key, and the messages
that concern them (R472 to R494).
-/

namespace Sys2Proof.Machine

/-! ### Notifications, mails and records of the lid (R495, R498, R499) -/

/-- Post a code of the lid. -/
def State.lidPost (s : State) (code : Nat) : State :=
  (s.lastCode LID_STATUS_LAST_CODE code).post
    ⟨none, code, 0x0900, s.fld LID_EPOCH_EPOCH + s.fld LID_EPOCH_BURNED * 2 ^ 16 + s.fld LID_STATUS_STEP * 2 ^ 32, s.journalSeq⟩

/-- The codes of R499. -/
def lidCodes : List Nat :=
  [BOOT_FETCH, BOOT_FORMAT, BOOT_KEY_REVOKED, BOOT_SIGNATURE, BOOT_ROLLBACK, BOOT_STEPPING, REPAIR_MISMATCH, REPAIR_FORMAT,
   HBM_TRAIN_FAILED, ATTEST_REFUSED, EPOCH_ADVANCED, EPOCH_BURN_RETRY, AUTH_REFUSED, DEBUG_ENABLED, KEY_INSTALLED, JOURNAL_GAP]

/-- What RESULT of LID_CMD can hold: 0 or a code of R499; which of them a number that the rules leave open stands for. -/
def lidCode (n : Nat) : Nat := (0 :: lidCodes).getD (n % 17) 0

/-- The record of a fuse burn or an image load: the specification gives it no code (DESIGN CHOICE, log entry 25). -/
def State.lidEvent (s : State) (what n : Nat) : State :=
  let fld := Config.lidEvent what n
  s.journal .device .internal jEvent (realCode (fld 0)) (BitVec.ofNat 64 (fld 1)) (BitVec.ofNat 64 (fld 2))

/-- The STEP mail (DEDUCED, log entry 81). -/
def State.mailStep (s : State) (code : Nat) : State :=
  s.sendMail 1 (leBytes (s.fld LID_STATUS_STEP) 1 ++ leBytes (s.fld LID_STATUS_HOLD) 1 ++ leBytes code 2)

/-- Upsett holds at its step (R476) (DEDUCED, log entry 81). -/
def State.holdStep (s : State) (code : Nat) : State := (s.setFlag LID_STATUS_HOLD true).mailStep code

/-- A command of the lid is complete. -/
def State.lidDone (s : State) (code : Nat) : State :=
  let s := if code = 0 then s else s.lastCode LID_STATUS_LAST_CODE code
  (s.setFld LID_CMD_RESULT code).setFlag LID_CMD_DONE true

/-- Write bytes to companion memory with WR_NC, cut at 4 KiB boundaries (R449). -/
def State.josilWrite : (fuel : Nat) → State → (addr : Nat) → List Byte → State
  | 0, s, _, _ => s
  | n + 1, s, addr, d =>
    let k := 4096 - addr % 4096
    if d.isEmpty then s
    else State.josilWrite n (s.lidWrite addr (d.take k)) (addr + k) (d.drop k)

/-! ### Step 1: the dimension table (R8, R9, R472, R473, R510) -/

/-- Ones in the low `n` bits. -/
def ones (n x : Nat) : Nat := (positions n (bitOf x)).length

/-- Grade A? Any other grade of the fuses is grade B. -/
def State.gradeA (s : State) : Bool := s.fuses.grade == 1

/-- The number of epoch positions up to the highest burned one (R487). -/
def burnedOf (l : List Nat) : Nat := l.foldl (fun m p => Nat.max m (p + 1)) 0

/-- The lowest `want` members of the positions from `base` up to `base + size` in a mask, made up with the lowest others. -/
def pickGroup (base size want mask : Nat) : List Nat :=
  let all := (List.range size).map (base + ·)
  (all.filter (mask / 2 ^ · % 2 == 1) ++ all.filter (mask / 2 ^ · % 2 == 0)).take want

/-- A mask with exactly `want` positions in each of `groups` groups of `size`: those of a mask that has so many. -/
def pickEach (groups size want mask : Nat) : Nat :=
  (List.range groups).foldl (fun m g => (pickGroup (g * size) size want mask).foldl (fun m i => m + 2 ^ i) m) 0

/-- Block positions that the fuses show as present: all of them, but in grade B exactly 28 of each region (R11), which are those that are
fused in; a set of another size is no grade B device, and the model then takes the lowest positions (DESIGN CHOICE, log entry 3). -/
def Fuses.blockMask (f : Fuses) : Nat := if f.grade = 1 then 2 ^ 128 - 1 else pickEach 4 32 28 f.blocks

/-- Rim links that the fuses show as present: all, but in grade B exactly 4 of each optical engine (R11). -/
def Fuses.linkMask (f : Fuses) : Nat := if f.grade = 1 then 2 ^ 36 - 1 else pickEach 6 6 4 f.links

/-- The fields that the lid fills from the fuses. -/
def State.fuseFields (s : State) : List (Fld × Nat) :=
  let f := s.fuses
  let a := s.gradeA
  let blocks := f.blockMask
  let links := f.linkMask
  let watts := if a then 1200 else 1050
  [(DIM_ID_GRADE, f.grade), (DIM_ID_STEPPING, f.stepping), (DIM_UNITS_ENVELOPE_W, watts),
   (DIM_UNITS_PARTITIONS_MAX, if a then 16 else 14), (DIM_UNITS_RIM_LINKS, ones 36 links),
   (DIM_UNITS_BLOCKS, ones 128 blocks), (DIM_UNITS_REGIONS, 4), (DIM_UNITS_FAR_MODE, b2n a),
   (DIM_UNITS_STEP_REPLAY, b2n a), (DIM_UNITS_COMPAT_4200, 1), (DIM_BLOCK_MASK_PRESENT 0, blocks),
   (DIM_BLOCK_MASK_PRESENT 1, blocks / 2 ^ 64), (DIM_RIM_MASK_PRESENT, links),
   (DIM_FABRIC_FAR_RTT_US, if a then 1500 else 0), (LID_EPOCH_BURNED, burnedOf f.epochs), (LID_EPOCH_FLOOR, f.floor),
   (LID_AUTH_REVOKED, f.revoked), (PWR_CTRL_LIMIT_W, watts), (MGT_MAC_MAC 0, f.mac0), (MGT_MAC_MAC 1, f.mac1),
   (DIM_UNITS_VALID, 1)]

/-- Step 1 reads the fuses and selects the reference clock, once PWR_GOOD is high and a clock is present. -/
def State.fillTable (s : State) : State :=
  let w := s.power
  if !s.lid.upsett || !s.powered || !w.pwrGood || !(w.refA || w.refB) || s.flag DIM_UNITS_VALID then s
  else
    let s := s.forEach s.fuseFields fun s e => s.setFld e.1 e.2
    let s := s.modPower fun w => { w with ctrl := s.reg PWR_CTRL }
    let s := (s.modPower fun w => { w with lExt := if w.throtReqN then 0 else w.extLevel }).setLevel
    let s := ((s.setFlag PWR_CLK_A_OK w.refA).setFlag PWR_CLK_B_OK w.refB).setFlag PWR_CLK_SEL (!w.refA)
    let s := if w.refA then s else s.condition 4 REFCLK_LOST true
    if w.refB then s else s.condition 5 REFCLK_LOST true

/-- JL_RESET_N is deasserted, at any time: upsett starts at step 1, which waits for PWR_GOOD (R472, R504). It ends the hold of an under
voltage, if the rails are in range, or of the loss of both clocks (R507) (DESIGN CHOICE, log entry 70) (DEDUCED, log entry 72). -/
def execUpsettStart (s : State) : Out :=
  .next (
    if s.power.resetN then s
    else
      let s := s.modPower fun w =>
        if (w.faultCause % 16 = 2 ∧ w.pwrGood = true) ∨ w.faultCause % 16 = 3 then
          { w with resetN := true, held := false, faultCause := 0, pwrFaultN := true }
        else { w with resetN := true }
      if s.power.held then s
      else
        let s := s.modLid fun l => { l with upsett := true, loc := 0 }
        let s := s.forEach (positions 36 (bitOf s.fuses.linkMask)) fun s k =>
          s.setFld (RIM_SESSION_TX_SESSION k) (Config.session k s.resets)
        s.fillTable)

/-- A clock has been good for 100 ms. At step 1 it can be the first that is present (R510); later the device runs on it if the selected one
is lost (R511) (DESIGN CHOICE, log entry 71). -/
def execRefclkRecover (clkB : Bool) (s : State) : Out :=
  .next (
    let s := s.modPower fun w => w.setRef clkB true
    if !s.powered then s
    else if !s.flag DIM_UNITS_VALID then s.fillTable
    else
      let s := s.setFlag (clkOk clkB) true
      let s := if s.flag PWR_CLK_SEL != clkB && !s.flag (clkOk !clkB) then s.switchClock else s
      s.condition (if clkB then 5 else 4) REFCLK_LOST false)

/-- PWR_GOOD is high, and the reference clocks given are present (DESIGN CHOICE, log entry 70) (DESIGN CHOICE, log entry 71). -/
def execPowerGood (refA refB : Bool) (s : State) : Out :=
  .next (
    if s.flag DIM_UNITS_VALID then s
    else (s.modPower fun w => { w with railsOn := true, pwrGood := true, refA := refA, refB := refB }).fillTable)

/-! ### Epochs (R487, R488, R490) -/

/-- Attestation is exhausted. -/
def State.exhaust (s : State) : State := (s.setFlag LID_STATUS_EXHAUSTED true).condition 9 ATTEST_EXHAUSTED true

/-- Burn a position, or up to `n` of them until one reads burned. -/
def State.burnFrom : (n : Nat) → State → (pos : Nat) → Option Nat × State
  | 0, s, _ => (none, s)
  | n + 1, s, pos =>
    if 4096 ≤ pos then (none, s)
    else
      let s := s.lidEvent 0 pos
      if s.fuses.weak.contains pos then State.burnFrom n (s.lidPost EPOCH_BURN_RETRY) (pos + 1)
      else (some pos, { s with fuses := { s.fuses with epochs := pos :: s.fuses.epochs } })

/-- R487, steps 1 and 2: the next position, which is the epoch (DEDUCED, log entry 80). -/
def State.nextEpoch (s : State) : Option Nat × State :=
  match State.burnFrom 3 s (s.fld LID_EPOCH_BURNED) with
  | (none, s) => (none, s.exhaust)
  | (some e, s) =>
    (some e, (((s.setFld LID_EPOCH_EPOCH e).setFlag LID_EPOCH_VALID true).setFld LID_EPOCH_USED 0).setFld LID_EPOCH_BURNED (e + 1))

/-- USED has reached 65,536: the epoch advances, or waits for the tree of the position that burned (DEDUCED, log entry 80). -/
def State.advanceEpoch (s : State) : State :=
  match s.nextEpoch with
  | (none, s) => s
  | (some e, s) =>
    if s.lid.trees.contains e then (s.modLid fun l => { l with trees := [] }).lidPost EPOCH_ADVANCED
    else s.modLid fun l => { l with advancing := true }

/-! ### Attestation (R489) -/

/-- The last scrub that covered a whole range: when it completed, or 0 where none has (DEDUCED, log entry 79). -/
def State.lastScrub (s : State) (base len : Nat) : Nat :=
  (s.scrubLog.filter fun e => decide (e.1 ≤ base) && decide (base + len ≤ e.1 + e.2.1)).foldl (fun m e => Nat.max m e.2.2) 0

/-- The report, 256 bytes. -/
def State.report (s : State) (nonce part : Nat) : List Byte :=
  let flags := s.fld LID_AUTH_DEBUG_EN + 2 * s.fld LID_STATUS_TIME_UNLOCKED + 4 * s.fld RST_STATUS_SELF_FENCED
  let base := s.fld (SCH_PART_HBM_BASE part) * 65536
  let len := s.fld (SCH_PART_HBM_SIZE part) * 65536
  leBytes 0x00010001 4 ++ leBytes (s.fld LID_EPOCH_EPOCH) 2 ++ leBytes (s.fld DIM_ID_FW_LEVEL) 2 ++
    leBytes (s.fld LID_EPOCH_USED) 4 ++ leBytes flags 4 ++ leBytes s.now 8 ++ bytes32 nonce ++ bytes32 s.ownDigest ++
    bytes32 s.lid.imageDigest ++ bytes32 s.lid.repairDigest ++ bytes32 s.lid.head ++ leBytes s.journalSeq 8 ++
    leBytes (s.reg DIM_ID).toNat 8 ++ leBytes (s.reg DIM_UNITS).toNat 8 ++ leBytes part 1 ++ List.replicate 7 0 ++
    (if part = 0xFF then List.replicate 32 0
     else leBytes (s.reg (SCH_PART_BLOCKS0 part)).toNat 8 ++ leBytes (s.reg (SCH_PART_BLOCKS1 part)).toNat 8 ++
       leBytes (s.reg (SCH_PART_HBM part)).toNat 8 ++ leBytes (s.lastScrub base len) 8) ++ List.replicate 8 0

/-- The bundle, 8,468 bytes. -/
def State.bundle (s : State) (nonce part : Nat) : List Byte :=
  let e := s.fld LID_EPOCH_EPOCH
  let id := identityKey s.fuses.secret
  let ek := epochKey s.fuses.secret e
  let r := s.report nonce part
  r ++ ek.sign (s.fld LID_EPOCH_USED) r ++ ek.public ++ id.sign e ek.public ++ id.public ++ Config.identityCert

/-- Answer a request with a code and the bundle, if there is one. -/
def State.attestAnswer (s : State) (asker : Asker) (code : Nat) (bundle : List Byte) : State :=
  match asker with
  | .message => s.sendFm 0x51 (leBytes code 2 ++ bundle)
  | .command dest =>
    let s := State.josilWrite 4 s dest bundle
    (s.lidDone code).sendMail 4 (leBytes code 2 ++ [0, 0] ++ leBytes bundle.length 4)

/-- Attest: refused when exhausted; queued while the epoch advances; else the bundle under the next index (DEDUCED, log entry 79). -/
def State.attest (s : State) (nonce part : Nat) (asker : Asker) : State :=
  if s.flag LID_STATUS_EXHAUSTED || !s.flag LID_EPOCH_VALID then
    (s.lastCode LID_STATUS_LAST_CODE ATTEST_REFUSED).attestAnswer asker ATTEST_REFUSED []
  else if s.lid.advancing then s.modLid fun l => { l with waiting := l.waiting ++ [(nonce, part, asker)] }
  else
    let used := s.fld LID_EPOCH_USED
    let b := s.bundle nonce part
    let s := (s.setFld LID_EPOCH_USED (used + 1)).attestAnswer asker 0 b
    if used + 1 = 65536 then s.advanceEpoch else s

/-- The driver's ATTEST command, once its request block has been read: of a partition it owns, or of the chip alone (DEDUCED, log entry 76)
(DEDUCED, log entry 79). -/
def execAttest (fetched : Bool) (request : List Byte) (s : State) : Out :=
  .next (
    if !s.powered || !s.lidFetched 3 fetched request then s
    else
    let s := s.modLid fun l => { l with fetch := none }
    if !fetched then s.attestAnswer (.command 0) (lidCode (Config.lidResult 1 3)) []
    else
      let nonce := leNat (request.take 32)
      let part := leNat ((request.drop 32).take 1)
      let dest := leNat ((request.drop 56).take 8)
      if part = 0xFF || s.driverOwns part then s.attest nonce part (.command dest)
      else (s.lastCode LID_STATUS_LAST_CODE ATTEST_REFUSED).attestAnswer (.command dest) ATTEST_REFUSED [])

/-- ATTEST_REQ of the fabric manager: of any partition, or of the chip alone. -/
def State.attestMsg (s : State) (p : Path) (nonce part : Nat) : State :=
  s.message p 0x50 (bytes32 nonce ++ leBytes part 1) (part % 256 == 0xFF || s.partExists (part % 256)) fun s =>
    s.attest (nonce % 2 ^ 256) (part % 256) .message

def execAttestReq (port nonce part : Nat) (s : State) : Out := .next (s.attestMsg (mgmtPath port) nonce part)

/-- The background computation of a tree has ended: those of the three next positions, in order; a waiting advance ends and the
requests that wait are served (DEDUCED, log entry 80). -/
def execEpochTreeDone (pos : Nat) (s : State) : Out :=
  .next (
    let b := s.fld LID_EPOCH_BURNED
    if !s.powered || s.flag LID_STATUS_EXHAUSTED then s
    else if s.lid.advancing then
      if pos ≠ s.fld LID_EPOCH_EPOCH then s
      else
        let w := s.lid.waiting
        let s := s.modLid fun l => { l with advancing := false, trees := [], waiting := [] }
        (s.lidPost EPOCH_ADVANCED).forEach w fun s q => s.attest q.1 q.2.1 q.2.2
    else if 49152 ≤ s.fld LID_EPOCH_USED && decide (s.lid.trees.length < 3) && decide (pos = b + s.lid.trees.length) then
      s.modLid fun l => { l with trees := l.trees ++ [pos] }
    else s)

/-! ### The firmware image (R478 to R481) -/

/-- `n` bytes of a list from offset `a`, and the number they hold. -/
def slice (l : List Byte) (a n : Nat) : List Byte := (l.drop a).take n
def leAt (l : List Byte) (a n : Nat) : Nat := leNat (slice l a n)

/-- Are `n` bytes from `a` zero? -/
def zeroAt (l : List Byte) (a n : Nat) : Bool := (slice l a n).all (· == 0)

/-- Do the header and the section table agree with R478? (DEDUCED, log entry 77). -/
def imageFormat (m : List Byte) : Bool :=
  let n := leAt m 13 1
  let total := leAt m 16 8
  let secs := (List.range n).map fun i => (leAt m (128 + 8 * i) 1, leAt m (129 + 8 * i) 3, leAt m (132 + 8 * i) 4)
  let types := secs.map (·.1)
  decide (256 ≤ m.length) && decide (m.length ≤ 16777216) && leAt m 0 4 == 0x4C545348 && leAt m 4 2 == 1 &&
    decide (leAt m 8 1 < 4) && decide (leAt m 9 1 ≤ 64) && zeroAt m 14 2 && zeroAt m 24 104 && decide (1 ≤ n) && decide (n ≤ 16) &&
    zeroAt m (128 + 8 * n) (128 - 8 * n) &&
    secs.all (fun e => decide (1 ≤ e.1) && decide (e.1 ≤ 7) && e.2.1 == 0 && decide (e.2.2 % 256 = 0)) &&
    decide types.Nodup && [1, 2, 3, 4, 5, 6].all types.contains &&
    total == 256 + secs.foldl (fun a e => a + e.2.2) 0 && decide (total + 2820 ≤ m.length)

/-- The checks of R480 in order: the code of the first that fails (DEDUCED, log entry 77). -/
def State.imageCheck (s : State) (fetched : Bool) (m : List Byte) : Option Nat :=
  let total := leAt m 16 8
  if !fetched then some BOOT_FETCH
  else if !imageFormat m then some BOOT_FORMAT
  else if bitOf s.fuses.revoked (leAt m 8 1) then some BOOT_KEY_REVOKED
  else if !xmssVerify 20 (Config.vendorKey (leAt m 8 1)) (m.take total) (slice m total 2820) then some BOOT_SIGNATURE
  else if leAt m 9 1 < s.fuses.floor then some BOOT_ROLLBACK
  else if s.fuses.stepping < leAt m 10 1 || leAt m 11 1 ≠ s.fld DIM_ID_ISA_LEVEL then some BOOT_STEPPING
  else none

/-- BOOT_RESULT (DEDUCED, log entry 81). -/
def State.mailBoot (s : State) (code : Nat) : State :=
  s.sendMail 2 (leBytes code 2 ++ leBytes (s.fld DIM_ID_FW_LEVEL) 2 ++ leBytes s.lid.imageDigest 16)

/-- Burn the revocation fuses that an image names, its own slot apart. -/
def State.revoke (s : State) (mask own : Nat) : State :=
  s.forEach ((List.range 4).filter fun i => bitOf mask i && i != own && !bitOf s.fuses.revoked i) fun s i =>
    let s : State := { s with fuses := { s.fuses with revoked := withBits s.fuses.revoked i i 1 } }
    (s.setFld LID_AUTH_REVOKED s.fuses.revoked).lidEvent 1 i

/-- Does the identity certificate verify against a vendor key that is not revoked (R486)? (DESIGN CHOICE, log entry 24). -/
def State.identityVerifies (s : State) : Bool :=
  (List.range 4).any fun i =>
    !bitOf s.fuses.revoked i && xmssVerify 20 (Config.vendorKey i) (identityKey s.fuses.secret).public Config.identityCert

/-- The sections of an image, as R478's table lays them out after the header: type and bytes. -/
def imageSections (m : List Byte) : List (Nat × List Byte) :=
  let n := leAt m 13 1
  let size (i : Nat) : Nat := leAt m (132 + 8 * i) 4
  (List.range n).map fun i => (leAt m (128 + 8 * i) 1, slice m (256 + sumNat ((List.range i).map size)) (size i))

/-- The image has been read into the buffer: it is checked and, if every check passes, its sections are placed, it runs, and the epoch begins;
if one fails the buffer is cleared (DEDUCED, log entry 76). -/
def execLoadImage (fetched : Bool) (image : List Byte) (s : State) : Out :=
  .next (
    if !s.powered || !s.lidFetched 1 fetched image then s
    else
    let s := s.modLid fun l => { l with fetch := none }
    match s.imageCheck fetched image with
      | some code =>
        let s := s.lidEvent 3 code
        let s := (s.count LID_STATUS_BOOT_TRIES 1).lidDone code
        (s.mailBoot code).holdStep code
      | none =>
        let total := leAt image 16 8
        let s := (s.lidEvent 3 0).revoke (leAt image 12 1) (leAt image 8 1)
        let s := s.setFld DIM_ID_FW_LEVEL (leAt image 6 2)
        let s := s.modLid fun l =>
          { l with imageOk := true, sections := imageSections image, imageDigest := leNat (shake256 (image.take total) 32), secLevel := leAt image 9 1,
                   identityOk := s.identityVerifies }
        let s := if s.lid.identityOk then s else s.exhaust
        let s := (s.nextEpoch).2
        (s.lidDone 0).mailBoot 0)

/-- RAISE_FLOOR burns rollback fuses up to the running image's SEC_LEVEL (R481). -/
def State.raiseFloorMsg (s : State) (p : Path) : State :=
  s.message p 0x53 [] s.lid.imageOk fun s =>
    let up := (List.range 65).filter fun i => decide (s.fuses.floor ≤ i) && decide (i < s.lid.secLevel)
    let s := s.forEach up fun s i => s.lidEvent 2 i
    let s : State := { s with fuses := { s.fuses with floor := Nat.max s.fuses.floor s.lid.secLevel } }
    s.setFld LID_EPOCH_FLOOR s.fuses.floor

def execRaiseFloor (port : Nat) (s : State) : Out := .next (s.raiseFloorMsg (mgmtPath port))

/-! ### The repair table (R482, R483) -/

/-- The record at an offset. -/
def repairAt (m : List Byte) (a : Nat) : Repair := ⟨leAt m a 1, leAt m (a + 2) 2, leAt m (a + 4) 4, leAt m (a + 8) 8⟩

/-- Is a record one of R482? (DEDUCED, log entry 77). -/
def repairOk (m : List Byte) (a : Nat) : Bool :=
  let r := repairAt m a
  leAt m (a + 1) 1 == 0 && match r.kind with
    | 1 => decide (r.unit < 128) && r.index == 0
    | 4 => decide (r.unit < 128) && r.index == 0 && outCauses.contains r.value
    | 2 => decide (r.unit < 8) && decide (r.index < 2 ^ 23) && decide (r.value < 1024)
    | 3 => decide (r.unit < 128) && decide (r.value < 4) &&
        (decide (r.index < 16 * 256) || (decide (r.index / 256 = 16 ∨ r.index / 256 = 17) && decide (r.index % 256 < 128)))
    | _ => false

/-- The records in force: a later one of a kind for the same unit and index replaces an earlier one (R483). -/
def lastOfEach : List Repair → List Repair
  | [] => []
  | r :: l => if l.any fun x => x.kind == r.kind && x.unit == r.unit && x.index == r.index then lastOfEach l else r :: lastOfEach l

/-- The checks of R483: the digest, then the rest (DEDUCED, log entry 77). -/
def State.repairCheck (s : State) (fetched : Bool) (m : List Byte) : Option Nat :=
  let n := leAt m 4 4
  if !fetched || decide (m.length < 64) then some REPAIR_FORMAT
  else if leAt m 32 32 ≠ s.ownDigest then some REPAIR_MISMATCH
  else if leAt m 0 4 ≠ 0x52504154 || decide (65536 < n) || !zeroAt m 8 24 || decide (m.length < 64 + 16 * n) ||
      !((List.range n).all fun i => repairOk m (64 + 16 * i)) then some REPAIR_FORMAT
  else none

/-- The repair table has been read: HBM frames are remapped and blocks leave service at once; the rest is loaded at step 5 (DEDUCED, log entry 76)
(DEDUCED, log entry 78). -/
def execLoadRepair (fetched : Bool) (table : List Byte) (s : State) : Out :=
  .next (
    if !s.powered || !s.lidFetched 2 fetched table then s
    else
    let s := s.modLid fun l => { l with fetch := none }
    match s.repairCheck fetched table with
      | some code => (s.lidDone code).holdStep code
      | none =>
        let n := leAt table 4 4
        let rs := (List.range n).map fun i => repairAt table (64 + 16 * i)
        let s := s.modLid fun l =>
          { l with repairOk := true, repairs := rs, repairDigest := leNat (shake256 (table.take (64 + 16 * n)) 32) }
        let s := s.forEach (lastOfEach (rs.filter (·.kind == 2))) fun s r => s.remapFrame r.unit r.index r.value
        let s := s.forEach (lastOfEach (rs.filter (·.kind == 4))) fun s r =>
          if s.blockPresent r.unit then s.blockLeaves r.unit r.value else s
        s.lidDone 0)

/-- The records that step 5 loads: ARR_REMAP and the SRAM spare rows (DEDUCED, log entry 78). -/
def State.loadRepairs (s : State) : State :=
  s.forEach (lastOfEach (s.lid.repairs.filter fun r => s.blockPresent r.unit)) fun s r =>
    if r.kind = 1 then
      let ok := (s.reg (BLK_ARR_REMAP r.unit)).toNat &&& 0x20100
      s.setReg (BLK_ARR_REMAP r.unit) (BitVec.ofNat 64 (r.value % 2 ^ 18 &&& 0x1FEFF ||| ok))
    else if r.kind = 3 then
      s.modBlk r.unit fun x => { x with rowSpares := SMap.set (fun _ => 4) x.rowSpares r.index r.value }
    else s

/-! ### The commands of LID_CMD (R480, R489, R493) -/

/-- INSTALL_KEY: the key that LID_KEY holds is installed, and applies from the next clk on (R493). -/
def State.installKey (s : State) : State :=
  let k := s.digest LID_KEY
  let s := (s.setFlag LID_STATUS_SESSION true).modLid fun l => { l with newKey := some k }
  let s := s.journal .device .internal jEvent KEY_INSTALLED 0 0
  (s.lidPost KEY_INSTALLED).lidDone 0

/-- Where a command of the lid reads: the address that its register gives, and how many bytes; the request block is of 64 (R480, R483, R489). -/
def State.lidSource (s : State) (op : Nat) : Nat × Nat :=
  match op with
  | 1 => (s.fld LID_BOOT_ADDR * 256, s.fld LID_CMD_LEN * 256)
  | 2 => (s.fld LID_REPAIR_ADDR * 256, s.fld LID_CMD_LEN * 256)
  | _ => (s.fld LID_ATTEST_ADDR * 256, 64)

/-- A command of the lid starts to fetch what it reads: DONE is 0 until it is complete. -/
def State.lidFetch (s : State) (op : Nat) : State :=
  let x := s.lidSource op
  let s := (s.setFlag LID_CMD_DONE false).setFld LID_CMD_RESULT 0
  (s.modLid fun l => { l with fetch := some ⟨op, x.1, x.2, [], true⟩ }).lidAsk

/-- May a command of the lid run: LOAD_IMAGE at step 3, LOAD_REPAIR at step 4, ATTEST and INSTALL_KEY (DESIGN CHOICE, log entry 25)? -/
def State.lidAllows (s : State) (op : Nat) : Bool :=
  let step := if s.lid.upsett then s.fld LID_STATUS_STEP else 8
  (op == 1 && step == 3 && !s.lid.imageOk) || (op == 2 && step == 4 && !s.lid.repairOk) || op == 3 || op == 4

/-- A write of LID_CMD. START gives its COMMAND record or, where the lid refuses the command, a REFUSED one; it is ignored while DONE is 0 and
from another class than the driver's (R495, R541) (DESIGN CHOICE, log entry 25) (DEDUCED, log entry 35). A new LOAD_IMAGE or LOAD_REPAIR ends the
hold of the one that failed, but not that of a stack that failed to train (R476). -/
def State.writeLidCmd (s : State) (a : Auth) (p : Path) (v : Word) : State :=
  let old := s.reg LID_CMD
  let busy := !s.flag LID_CMD_DONE
  let s := s.store a p LID_CMD v
  let new := BitVec.ofNat 64 ((s.reg LID_CMD).toNat ||| 2 ^ 62)
  let op := s.fld LID_CMD_OP
  if !bitOf v.toNat 62 then s
  else if busy || a ≠ .driver then s.commandRecord a p LID_CMD old new
  else if !s.lidAllows op then
    (s.setFld LID_CMD_RESULT (lidCode (Config.lidResult 0 op))).journal a p jRefused LID_CMD old new
  else
    let s := s.commandRecord a p LID_CMD old new
    if op = 4 then s.installKey
    else if op = 3 then s.lidFetch 3
    else (s.setFlag LID_STATUS_HOLD s.lid.trainFailed).lidFetch op

/-- INSTALL_KEY, a write of LID_CMD. -/
def execInstallKey (a : Auth) (p : Path) (v : Word) (s : State) : Out :=
  .next (s.arrives a p LID_CMD v fun s => s.writeLidCmd a p v)

/-- DEBUG_ENABLE (R494). -/
def State.debugEnableMsg (s : State) (p : Path) : State :=
  s.message p 0x52 [] true fun s => (s.setFlag LID_AUTH_DEBUG_EN true).lidPost DEBUG_ENABLED

def execDebugEnable (port : Nat) (s : State) : Out := .next (s.debugEnableMsg (mgmtPath port))

/-! ### The steps (R472, R475, R476) -/

/-- HBM stack `k` fails to train at step 4. -/
def execHbmTrainFailed (k : Nat) (s : State) : Out :=
  .next (
    if !s.powered || !s.lid.upsett || s.fld LID_STATUS_STEP ≠ 4 || decide (8 ≤ k) then s
    else ((s.modLid fun l => { l with trainFailed := true }).lidPost HBM_TRAIN_FAILED).holdStep HBM_TRAIN_FAILED)

/-- Has a link reached a state that step 6 waits for? -/
def State.linkSettled (s : State) (k : Nat) : Bool :=
  let st := s.linkState k
  [rsUp, rsMiswired, rsLooped, rsOpen, rsIncompatible].contains st ||
    (st == rsCheck && decide (s.fld (RIM_STATUS_REASON k) = 8)) ||
    (st == rsDown && decide (0 < s.fld (RIM_COUNT1_TRAIN_FAILS k)))

/-- The end condition of a step; step 4 ends when every stack has trained, which the command brings. -/
def State.stepMet (s : State) : Bool :=
  match s.fld LID_STATUS_STEP with
  | 1 => s.flag DIM_UNITS_VALID
  | 2 => s.jslState == jsActive
  | 3 => s.lid.imageOk && s.flag LID_CMD_DONE
  | 4 => s.lid.repairOk && !s.lid.trainFailed
  | 6 => s.linkList.all s.linkSettled && s.flag FTU_STATUS_LOCKED
  | _ => true

/-- The next step starts (DEDUCED, log entry 81). -/
def State.enterStep (s : State) (n : Nat) : State := ((s.setFld LID_STATUS_STEP n).setFlag LID_STATUS_HOLD false).mailStep 0

/-- The end of step 4: the stacks read TRAINED, and a gap in the journal is recorded (R497). -/
def State.endStep4 (s : State) : State :=
  let s := s.forEach (List.range 8) fun s k => s.setFlag (HBM_STATUS_TRAINED k) true
  if s.lid.gap = 0 then s
  else
    let n := s.lid.gap
    ((s.modLid fun l => { l with gap := 0 }).journalEvent JOURNAL_GAP (BitVec.ofNat 64 n)).lastCode LID_STATUS_LAST_CODE JOURNAL_GAP

/-- The end of step 5: tested spares read OK, the repairs are loaded, what else the tests found is repaired, and blocks that failed leave
service; a block that the repair table names is not tested (R483). Firmware then enables every present link (DEDUCED, log entry 78). -/
def State.endStep5 (s : State) (found : List BlockFound) : State :=
  let tested := found.filter fun x => s.blockPresent x.block && !s.blockOut x.block
  let s := s.forEach ((List.range 128).filter fun b => s.blockPresent b && !s.blockOut b) fun s b =>
    let bad (p : Nat) : Bool := tested.any fun x => x.block == b && x.columns.contains p
    (s.setFlag (BLK_ARR_REMAP_SPARE0_OK b) (!bad 128)).setFlag (BLK_ARR_REMAP_SPARE1_OK b) (!bad 129)
  let s := (s.loadRepairs.patternTests tested).2.enterStep 6
  let s := s.modLid fun l => { l with step6At := s.local, step6Due := if s.servo.everLocked then some (s.now + 900000000) else none }
  s.forEach s.linkList fun s k => s.writeRimCtrl .firmware .internal k (s.reg (RIM_CTRL k) ||| 1)

/-- The default watchdogs (R422): slot, TARGET, PERIOD_NS (DESIGN CHOICE, log entry 26). -/
def defaultWatchdogs : List (Option Nat × Nat × Nat × Nat) :=
  (List.range 4).map (fun r => (some r, 239, 0x0FF, 50000000)) ++
    (List.range 4).map (fun r => (none, 250 + r, 0x100 + r, 10000000)) ++
    [(none, 254, 0x200, 1000000000), (none, 255, 0x201, 100000000)]

/-- Firmware arms a default watchdog (DEDUCED, log entry 82). -/
def State.armWatchdog (s : State) (e : Option Nat × Nat × Nat × Nat) : State :=
  let (region, i, target, period) := e
  let key := match region with | none => i | some r => 256 * (r + 1) + i
  let s := s.writeTrigTime .firmware .internal region i (BitVec.ofNat 64 (s.now + 1 + Config.wdPhase key % period))
  s.writeTrigCtrl .firmware .internal region i (BitVec.ofNat 64 (period * 2 ^ 32 + target * 2 ^ 12 + 8 * 2 ^ 8 + 1))

/-- Step 7: the watchdogs are armed, READY is set, and the fabric manager is told (DESIGN CHOICE, log entry 26) (DEDUCED, log entry 82). -/
def State.endStep7 (s : State) : State :=
  let s := s.forEach defaultWatchdogs State.armWatchdog
  let s := (s.setFlag LID_STATUS_READY true).modLid fun l => { l with upsett := false }
  let s := s.sendFm 0x45 (bytes32 s.ownDigest ++ leBytes (s.fld DIM_ID_FW_LEVEL) 2 ++ leBytes (s.fld RPT_GLOBAL_SELF) 2)
  s.sendFm 0x41 ([2, 0, 0, 0] ++ leBytes (Config.reportTime s.resets) 8)

/-- The end condition of the step that runs is met and the next step starts. At step 5 the command brings what the pattern tests found
(DESIGN CHOICE, log entry 70). -/
def execUpsettStepEnd (step : Nat) (found : List BlockFound) (s : State) : Out :=
  .next (
    if !s.powered || !s.lid.upsett || s.fld LID_STATUS_STEP ≠ step || !s.stepMet then s
    else match s.fld LID_STATUS_STEP with
      | 1 => (s.setFld JSL_STATUS_STATE jsDetect).enterStep 2
      | 2 => (s.setDigest LID_IDENT (leNat (shake256 (identityKey s.fuses.secret).public 32))).enterStep 3
      | 3 => s.enterStep 4
      | 4 => s.endStep4.enterStep 5
      | 5 => s.endStep5 found
      | 6 => s.enterStep 7
      | _ => s.endStep7)

/-- Is step 6 900 ms old: in the lid's counter before fabric time locks, and in fabric time after (R474)? -/
def State.step6Over (s : State) : Bool :=
  match s.lid.step6Due with
  | some t => decide (t ≤ s.now)
  | none => decide (s.lid.step6At + 900000000 ≤ s.local)

/-- 900 ms into step 6 it ends anyway, and TIME_UNLOCKED reads 1 (R475) (DEDUCED, log entry 82). -/
def execStep6Limit (s : State) : Out :=
  .next (
    if !s.powered || !s.lid.upsett || s.fld LID_STATUS_STEP ≠ 6 || !s.step6Over then s
    else (s.setFlag LID_STATUS_TIME_UNLOCKED true).enterStep 7)

end Sys2Proof.Machine
end

