-- ==== Sys2Proof/Machine/Registers.lean ====
section
/-!
DEFINITION. The control aperture as a whole: what each register reads, what a write of each offset does, and the paths that
accesses come in on: the Josil link's apertures (R453 to R456), the management messages (R521 to R524, R435) and the debug
port (R542).
-/

namespace Sys2Proof.Machine

/-! ### Reading a register (R3, R5, R8, R9, R493) -/

/-- BLK[b].CORE_STATUS as it reads (DESIGN CHOICE, log entry 29). -/
def State.coreStatus (s : State) (b : Nat) : Nat :=
  let x := s.bst b
  let w := (x.set x.fill.placed).wait
  let waiting := match w with | .tickets _ _ | .deadline _ _ _ | .time _ _ => true | _ => false
  let n := withBits (s.reg (BLK_CORE_STATUS b)).toNat 8 8 (b2n x.fill.placed)
  let n := withBits n 4 4 (b2n x.parked)
  let n := withBits n 2 2 (b2n waiting)
  withBits (withBits n 1 1 (b2n (w == .stall))) 0 0 (b2n (x.main.placed || x.fill.placed))

/-- BLK[b].ARR_STATUS as it reads. BUSY counts the entries of the stake queue too: "an instruction is queued or running" does not say at
which queue (DESIGN CHOICE, log entry 91). -/
def State.arrStatus (s : State) (b : Nat) : Nat :=
  let x := s.bst b
  let n := withBits (s.reg (BLK_ARR_STATUS b)).toNat 3 3 (b2n (decide (0 < (s.blk b).debt)))
  withBits (withBits n 1 1 (b2n (s.flag PWR_STATUS_STOP))) 0 0 (b2n (x.run.isSome || !x.aq.isEmpty || !x.sq.isEmpty))

/-- Does a context run on block `b`, so that the registers that show its state read it? -/
def State.contextHere (s : State) (b : Nat) : Bool :=
  (s.blk b).ctx.isSome && decide ((s.blk b).phase ≠ .scrubbing) && decide ((s.blk b).phase ≠ .restoring)

/-- BLK[b].VEC_STATUS as it reads. -/
def State.vecStatus (s : State) (b : Nat) : Nat :=
  let q := (s.bst b).vq
  let n := withBits (s.reg (BLK_VEC_STATUS b)).toNat 47 44 q.length
  withBits (withBits n 1 1 (b2n ((q.head?.map (·.twine)).getD false))) 0 0 (b2n !q.isEmpty)

/-- A mask of the positions below `n` at which `p` holds. -/
def maskOf (n : Nat) (p : Nat → Bool) : Nat := (List.range n).foldl (fun m i => m + b2n (p i) * 2 ^ i) 0

/-- A register that is not read as it is stored: what it reads, from its array indices. -/
structure View where
  base : Nat
  read : State → Nat → Nat → Nat

/-- The registers whose fields, or some of them, show what the units hold now. -/
def regViews : List View := [
  ⟨FTU_NOW, fun s _ _ => s.now⟩,
  ⟨FTU_STATUS, fun s _ _ => withBits (s.reg FTU_STATUS).toNat 31 16 s.errBound⟩,
  ⟨LID_JHEAD 0, fun s i _ => bits s.lid.head (64 * i + 63) (64 * i)⟩,
  ⟨LID_KEY 0, fun _ _ _ => 0⟩,
  ⟨RST_STATUS, fun s _ _ => s.rstStatus⟩,
  ⟨RST_PEER_DATA, fun s _ _ => s.peerData.toNat⟩,
  ⟨PWR_STATUS, fun s _ _ => s.pwrStatus⟩,
  ⟨SCH_STATUS, fun s _ _ =>
    withBits (withBits (s.reg SCH_STATUS).toNat 47 32 ((s.ctxs.filter fun e => e.2.st != .free).length)) 31 16 (maskOf 16 s.partExists)⟩,
  ⟨SCH_ARB_CFG 0, fun s a _ => s.arbCfg (.chip a)⟩,
  ⟨RGN_ARB_CFG 0 0, fun s r a => s.arbCfg (.region r a)⟩,
  ⟨BLK_ARB_CFG 0 0, fun s b a => s.arbCfg (arbOfIndex b a)⟩,
  ⟨RGN_SCH_STATUS 0, fun s r _ => s.scoreboardUsed r * 2 ^ 48 + s.readyCount r % 2 ^ 16 * 2 ^ 32 + s.placedCount r % 2 ^ 16 * 2 ^ 16⟩,
  ⟨BLK_CORE_STATUS 0, fun s b _ => s.coreStatus b⟩,
  ⟨BLK_ARR_STATUS 0, fun s b _ => s.arrStatus b⟩,
  ⟨BLK_VEC_STATUS 0, fun s b _ => s.vecStatus b⟩,
  ⟨BLK_VEC_FLAGS 0, fun s b _ => if s.contextHere b then bits (SMap.get (fun _ => 0) (s.bst b).cfg 4).toNat 5 0 else 0⟩,
  ⟨BLK_NUM_PENDING 0, fun s b _ => if s.contextHere b then (s.bst b).pending % 2 ^ 32 else 0⟩,
  ⟨RPT_GLOBAL, fun s _ _ => s.rptGlobal⟩,
  ⟨RPT_RT_DATA, fun s _ _ => s.rtData⟩,
  ⟨PLT_STATUS, fun s _ _ =>
    let n := (s.plait.filter fun e => e.2.isSome).length
    withBits (withBits (withBits (s.reg PLT_STATUS).toNat 47 32 n) 31 16 s.carryUsed) 0 0 (b2n (n != 0))⟩,
  ⟨PLT_TRACKER, fun s _ _ => withBits (s.reg PLT_TRACKER).toNat 31 0 s.trackerUsed⟩,
  ⟨JSL_CACHE, fun s _ _ => s.jslCache⟩,
  ⟨DB_TAIL 0, fun s q _ => (s.queueOf q).st.code * 2 ^ 32 + (s.queueOf q).tail % 2 ^ 32⟩,
  ⟨DB_STATE 0, fun s q _ => (s.queueOf q).head % 2 ^ 32 * 2 ^ 32 + (s.queueOf q).done % 2 ^ 32⟩]

/-- Fields that read 0: write-only and reserved ones (DESIGN CHOICE, log entry 36). -/
def hideWo (fields : List FieldSpec) (n : Nat) : Nat :=
  fields.foldl (fun n f => if f.acc == .wo || f.acc == .rsv then withBits n f.hi f.lo 0 else n) n

/-- What a register reads: 0 where no register is, where its unit is absent, and in the dimension table until VALID. -/
def State.readReg (s : State) (off : Nat) : Word :=
  match findReg regTable off with
  | none => 0
  | some (r, ix) =>
    if s.unitAbsent off || (decide (off < 0x50) && !s.flag DIM_UNITS_VALID) then 0
    else
      let n := match regViews.find? (·.base == r.base) with
        | some x => x.read s (ix.headD 0) ((ix.drop 1).headD 0)
        | none => (s.reg off).toNat
      BitVec.ofNat 64 (hideWo r.fields n)

/-! ### Writing a register -/

/-- What a row's meaning leaves, where it answers a next state; it always does. -/
def State.after (s : State) (o : Out) : State :=
  match o with
  | .next t => t
  | _ => s

/-- A write of CORE_CTRL: RESUME, written by the debug authority, lets a halted core go on (R184). -/
def State.writeCoreCtrl (s : State) (a : Auth) (p : Path) (b : Nat) (v : Word) : State :=
  let s := s.store a p (BLK_CORE_CTRL b) v
  if a = .debug && bitOf v.toNat 1 then s.setFlag (BLK_CORE_STATUS_HALTED b) false else s

def execCoreResume (a : Auth) (p : Path) (b : Nat) (v : Word) (s : State) : Out :=
  .next (s.arrives a p (BLK_CORE_CTRL b) v fun s => s.writeCoreCtrl a p b v)

/-- A register of partition `i`: locked while the partition exists (R275). -/
def State.writePartReg (s : State) (a : Auth) (p : Path) (off i : Nat) (v : Word) : State := s.store a p off v (s.partExists i)

/-- A table's base: locked while a partition exists. -/
def State.writeTableBase (s : State) (a : Auth) (p : Path) (off : Nat) (v : Word) : State :=
  s.store a p off v (!s.partList.isEmpty)

/-- A write with its class and path. -/
structure RegWrite where
  a : Auth
  p : Path
  off : Nat
  v : Word

/-- A register whose write does more than store: what a write does, from the register's array indices. -/
structure Action where
  base : Nat
  write : State → RegWrite → Nat → Nat → State

/-- The registers whose write does more than store. -/
def regActions : List Action := [
  ⟨FTU_CTRL, fun s w _ _ => s.writeFtuCtrl w.a w.p w.v⟩,
  ⟨FTU_EPOCH, fun s w _ _ => s.after (execFtuEpochWrite w.a w.p w.v s)⟩,
  ⟨FTU_TRIG_TIME 0, fun s w i _ => s.writeTrigTime w.a w.p none i w.v⟩,
  ⟨FTU_TRIG_CTRL 0, fun s w i _ => s.writeTrigCtrl w.a w.p none i w.v⟩,
  ⟨RGN_TRIG_TIME 0 0, fun s w r i => s.writeTrigTime w.a w.p (some r) i w.v⟩,
  ⟨RGN_TRIG_CTRL 0 0, fun s w r i => s.writeTrigCtrl w.a w.p (some r) i w.v⟩,
  ⟨LID_CMD, fun s w _ _ => s.writeLidCmd w.a w.p w.v⟩,
  ⟨RST_PART_CMD, fun s w _ _ => s.writePartCmd w.a w.p w.v⟩,
  ⟨RST_HEARTBEAT, fun s w _ _ => s.after (execHeartbeatWrite w.a w.p w.v s)⟩,
  ⟨RST_PEER_DATA, fun s w _ _ => s.after (execPeerFenceWrite w.a w.p w.v s)⟩,
  ⟨HLT_RTS, fun s w _ _ => s.writeRts w.a w.p w.v⟩,
  ⟨HLT_PRIOR, fun s w _ _ => s.writeHltPrior w.a w.p w.v⟩,
  ⟨PWR_CLK, fun s w _ _ => s.writePwrClk w.a w.p w.v⟩,
  ⟨PTB_CTRL, fun s w _ _ => s.writePtbCtrl w.a w.p w.v⟩,
  ⟨PTB_SEED, fun s w _ _ => s.storePtb w.a w.p w.off w.v⟩,
  ⟨PTB_STALL 0, fun s w _ _ => s.storePtb w.a w.p w.off w.v⟩,
  ⟨PTB_CRED 0, fun s w _ _ => s.storePtb w.a w.p w.off w.v⟩,
  ⟨PTB_DELAY, fun s w _ _ => s.storePtb w.a w.p w.off w.v⟩,
  ⟨PTB_INJ, fun s w _ _ => s.storePtb w.a w.p w.off w.v⟩,
  ⟨PTB_GEN, fun s w _ _ => s.storePtb w.a w.p w.off w.v⟩,
  ⟨PTB_SKEW, fun s w _ _ => s.storePtb w.a w.p w.off w.v⟩,
  ⟨SCH_QTABLE, fun s w _ _ => s.writeTableBase w.a w.p w.off w.v⟩,
  ⟨SCH_CTABLE, fun s w _ _ => s.writeTableBase w.a w.p w.off w.v⟩,
  ⟨SCH_PART_BLOCKS0 0, fun s w i _ => s.writePartReg w.a w.p w.off i w.v⟩,
  ⟨SCH_PART_BLOCKS1 0, fun s w i _ => s.writePartReg w.a w.p w.off i w.v⟩,
  ⟨SCH_PART_HBM 0, fun s w i _ => s.writePartReg w.a w.p w.off i w.v⟩,
  ⟨SCH_PART_CTRL 0, fun s w i _ => s.writePartReg w.a w.p w.off i w.v⟩,
  ⟨SCH_CMD, fun s w _ _ => s.writeSchCmd w.a w.p w.v⟩,
  ⟨SCH_ARB_CFG 0, fun s w a _ => s.writeArbCfg w.a w.p (.chip a) w.v⟩,
  ⟨SCH_ARB_PRIO 0, fun s w a _ => s.writeArbPrio w.a w.p (.chip a) w.v⟩,
  ⟨RGN_ARB_CFG 0 0, fun s w r a => s.writeArbCfg w.a w.p (.region r a) w.v⟩,
  ⟨RGN_ARB_PRIO 0 0, fun s w r a => s.writeArbPrio w.a w.p (.region r a) w.v⟩,
  ⟨BLK_ARB_CFG 0 0, fun s w b a => s.writeArbCfg w.a w.p (arbOfIndex b a) w.v⟩,
  ⟨BLK_ARB_PRIO 0 0, fun s w b a => s.writeArbPrio w.a w.p (arbOfIndex b a) w.v⟩,
  ⟨BLK_CORE_CTRL 0, fun s w b _ => s.writeCoreCtrl w.a w.p b w.v⟩,
  ⟨HBM_ILV, fun s w _ _ => s.after (execHbmIlvWrite w.a w.p w.v s)⟩,
  ⟨HBM_TLBI_ADDR, fun s w _ _ => s.writeTlbiAddr w.a w.p w.v⟩,
  ⟨HBM_TLBI_CTRL, fun s w _ _ => s.after (execTlbiStart w.a w.p w.v s)⟩,
  ⟨HBM_DIRTY_CTRL, fun s w _ _ => s.after (execDirtySwap w.a w.p w.v s)⟩,
  ⟨HBM_DIRTY 0 0, fun s w bank i => s.after (execDirtyClear w.a w.p bank i w.v s)⟩,
  ⟨HBM_SCRUB_BASE, fun s w _ _ => s.writeScrubBase w.a w.p w.v⟩,
  ⟨HBM_SCRUB_CTRL, fun s w _ _ => s.after (execScrubStart w.a w.p w.v s)⟩,
  ⟨RIM_CTRL 0, fun s w k _ => s.writeRimCtrl w.a w.p k w.v⟩,
  ⟨RIM_WIRE 0, fun s w k _ => s.after (execWireWrite w.a w.p k w.v s)⟩,
  ⟨RIM_GLOBAL, fun s w _ _ => s.writeRimGlobal w.a w.p w.v⟩,
  ⟨RPT_GLOBAL, fun s w _ _ => s.writeRptGlobal w.a w.p w.v⟩,
  ⟨RPT_RT_DATA, fun s w _ _ => s.after (execRtDataWrite w.a w.p w.v s)⟩,
  ⟨RPT_MAP_PORT 0 0, fun s w m port => s.after (execPortMapWrite w.a w.p m port w.v s)⟩,
  ⟨COL_CTRL 0, fun s w e _ => s.writeColCtrl w.a w.p e w.v⟩,
  ⟨COL_CMD 0, fun s w e _ => s.writeColCmd w.a w.p e w.v⟩,
  ⟨COL_MEMBERS 0, fun s w e _ => s.writeColReg w.a w.p e w.off w.v⟩,
  ⟨COL_IMAGE 0, fun s w e _ => s.writeColReg w.a w.p e w.off w.v⟩,
  ⟨COL_MIRROR 0, fun s w e _ => s.writeColReg w.a w.p e w.off w.v⟩,
  ⟨COL_PARITY 0, fun s w e _ => s.writeColReg w.a w.p e w.off w.v⟩,
  ⟨COL_STAGE 0, fun s w e _ => s.writeColReg w.a w.p e w.off w.v⟩,
  ⟨COL_CONTROL 0, fun s w e _ => s.writeColReg w.a w.p e w.off w.v⟩,
  ⟨COL_SEQ 0, fun s w e _ => s.writeColReg w.a w.p e w.off w.v⟩,
  ⟨COL_STEP 0, fun s w e _ => s.writeColReg w.a w.p e w.off w.v⟩,
  ⟨RPL_CTRL, fun s w _ _ => s.writeRplCtrl w.a w.p w.v⟩,
  ⟨JSL_CTRL, fun s w _ _ => s.writeJslCtrl w.a w.p w.v⟩,
  ⟨DB_TAIL 0, fun s w q _ => s.writeDoorbell w.a w.p q w.v⟩]

/-- A write of the register at an offset, by a class on a path (R3, R5, R453, R492, R541). -/
def State.writeReg (s : State) (a : Auth) (p : Path) (off : Nat) (v : Word) : State :=
  s.arrives a p off v fun s =>
    match findReg regTable off with
    | none => s
    | some (r, ix) =>
      match regActions.find? (·.base == r.base) with
      | some x => x.write s ⟨a, p, off, v⟩ (ix.headD 0) ((ix.drop 1).headD 0)
      | none => s.store a p off v

def execRegisterWrite (a : Auth) (p : Path) (off : Nat) (v : Word) (s : State) : Out := .next (s.writeReg a p off v)

/-! ### The Josil link's apertures (R453 to R456) -/

/-- STATUS of an uncached request of the companion (R449, R453, R455, R456): 0 OK, 1 PROTECTED, 2 UNSUPPORTED, 4 NOT_READY (DEDUCED, log entry 38). -/
def State.apertureStatus (s : State) (h : JHdr) : Nat :=
  let ap := bits h.addr 55 52
  let off := h.addr % 2 ^ 39
  if 1 < ap || bits h.addr 51 39 != 0 then 2
  else if ap = 0 then
    if h.len ≠ 8 || h.addr % 8 != 0 || decide (2 ^ 26 ≤ off) then 2 else if s.served off then 0 else 4
  else if !s.hbmTrained then 4
  else if decide (usableEnd < off + h.len) || s.quarantined off || s.scrubbing off then 1
  else 0

/-- Does a request of the companion that arrived earlier go first? Arrival order holds as far as it affects visibility (R454): a read waits
for every earlier write, a write of the control aperture for every earlier write, and a write for any earlier access of its own bytes. -/
def goesBehind (h e : JHdr) : Bool :=
  let write := e.opc == opcWrNc
  (write && (h.opc == opcRdNc || bits h.addr 55 52 == 0)) ||
    ((write || e.opc == opcRdNc) && h.opc == opcWrNc && overlaps e.addr e.len h.addr h.len)

/-- Does a request wait: for one that arrived earlier, for a frame under test, or, unless it is a write of HBM, for the companion's own held
writes (R454)? -/
def State.accessWaits (s : State) (h : JHdr) : Bool :=
  let ap := bits h.addr 55 52
  ((s.josil.inbox.takeWhile fun m => m.hdr != h).any fun m => goesBehind h m.hdr) ||
    ((h.opc == opcRdNc || ap == 0) && s.heldWrites.any fun x => x.2.2.2.isSome) ||
    (ap == 1 && (unitsOf (h.addr % 2 ^ 39) h.len).any fun u => s.frameBusy (u * 256))

/-- Answer a request that is not performed. R453's refusals, those of the device reserve among them, are counted and journaled
(DEDUCED, log entry 38). -/
def State.refuseAccess (s : State) (h : JHdr) (data : List Byte) (status : Nat) : State :=
  let counted := status = 2 || (status = 1 && decide (usableEnd < h.addr % 2 ^ 39 + h.len))
  let control := decide (bits h.addr 55 52 = 0)
  let off := h.addr % 2 ^ 39
  let s := if counted then
      let fld := Config.msgRecord h.opc (leBytes h.addr 7)
      let old := if control && off % 8 == 0 && decide (off < 2 ^ 26) && s.served off then s.readReg off else BitVec.ofNat 64 (fld 2)
      let new := if control && h.opc == opcWrNc then leNat (data.take 8) else fld 3
      (s.count JSL_COUNT1_ACCESS_REFUSED 1).journal .driver .josil jRefused ((if control then off else fld 1) % 2 ^ 32) old (BitVec.ofNat 64 new)
    else s
  s.sendJosil ⟨1, response opcCmp h false status 0, 0, []⟩

/-- Answer a read with data. -/
def State.answerData (s : State) (h : JHdr) (poison : Bool) (d : List Byte) : State :=
  s.sendJosil ⟨1, response opcCmpData h poison 0 d.length, 0, d⟩

/-- The companion's read (R453 to R456). -/
def execRdNc (h : JHdr) (s : State) : Out :=
  .next (s.whenOn fun s =>
    if h.opc ≠ opcRdNc || !s.powered then s
    else match s.takeMsg fun m => m.hdr == h with
      | (none, _) => s
      | (some m, s1) =>
        let st := s.apertureStatus h
        let s2 := s1.oweCredits m
        if st ≠ 0 then s2.refuseAccess h [] st
        else if s.accessWaits h then s
        else
          let off := h.addr % 2 ^ 39
          if bits h.addr 55 52 = 0 then s2.answerData h false (leBytes (s.readReg off).toNat 8)
          else
            let s3 := s2.checkHbmRead off h.len
            s3.answerData h (s.hbmPoisonedRange off h.len) (s.hbmBytes off h.len))

/-- The companion's write, under driver authority (R454); of HBM it is answered when it is visible, after any hold (R392, R455),
and POISON poisons the units that it writes (R463). -/
def execWrNc (h : JHdr) (data : List Byte) (s : State) : Out :=
  .next (s.whenOn fun s =>
    if h.opc ≠ opcWrNc || !s.powered then s
    else match s.takeMsg fun m => m.hdr == h && m.data == data with
      | (none, _) => s
      | (some m, s1) =>
        let st := s.apertureStatus h
        let s2 := s1.oweCredits m
        if st ≠ 0 then s2.refuseAccess h data st
        else if s.accessWaits h then s
        else
          let off := h.addr % 2 ^ 39
          let rsp := response opcCmp h false 0 0
          if bits h.addr 55 52 = 0 then
            (s2.writeReg .driver .josil off (BitVec.ofNat 64 (leNat (data.take 8)))).sendJosil ⟨1, rsp, 0, []⟩
          else s2.writeHbmFull off data (if h.poison then List.range data.length else []) (some rsp))

/-! ### Register accesses by message (R524, R542) -/

/-- STATUS of a register access by message. -/
def State.regStatus (s : State) (off : Nat) : Nat :=
  if off % 8 ≠ 0 || decide (2 ^ 26 ≤ off) then 2 else if s.served off then 0 else 4

/-- REG_RSP: the value that the register reads, or an open value where the access is not performed (DESIGN CHOICE, log entry 23); PROTECTED
comes with the value in force, if the offset names a register (R542). -/
def State.regRsp (s : State) (off status : Nat) : State :=
  let open_ := s.regStatus off = 2 || (status ≠ 1 && s.regStatus off ≠ 0)
  let v := if open_ then Config.rspValue status off % 2 ^ 64 else (s.readReg off).toNat
  s.sendFm 0x24 (leBytes off 4 ++ leBytes status 2 ++ leBytes v 8)

/-- A register write by message under a class, and its answer. -/
def State.regWriteBy (s : State) (a : Auth) (p : Path) (off : Nat) (v : Word) : State :=
  let st := s.regStatus off
  (if st = 0 then s.writeReg a p off v else s).regRsp off st

/-- REG_READ (DEDUCED, log entry 39). -/
def State.regReadMsg (s : State) (p : Path) (off : Nat) : State :=
  s.message p 0x22 (leBytes off 4) true fun s => s.regRsp off (s.regStatus off)

/-- REG_WRITE: operator authority (DEDUCED, log entry 39). -/
def State.regWriteMsg (s : State) (p : Path) (off : Nat) (v : Word) : State :=
  s.message p 0x23 (leBytes off 4 ++ leBytes v.toNat 8) true fun s => s.regWriteBy .operator p off v

/-- The REFUSED record of a debug access without authority (R541, R542): nothing changes (DESIGN CHOICE, log entry 40). -/
def State.debugRefused (s : State) (p : Path) (off : Nat) (v : Word) : State :=
  s.refuseAuth .debug p off (s.readReg off) v

/-- DEBUG_WRITE: debug authority, while it exists (DEDUCED, log entry 39). -/
def State.debugWriteMsg (s : State) (p : Path) (off : Nat) (v : Word) : State :=
  s.message p 0x54 (leBytes off 4 ++ leBytes v.toNat 8) true fun s =>
    if s.flag LID_AUTH_DEBUG_EN then s.regWriteBy .debug p off v else (s.debugRefused p off v).regRsp off 1

def execRegRead (port off : Nat) (s : State) : Out := .next (s.regReadMsg (mgmtPath port) (off % 2 ^ 32))
def execRegWrite (port off : Nat) (v : Word) (s : State) : Out := .next (s.regWriteMsg (mgmtPath port) (off % 2 ^ 32) v)
def execDebugWrite (port off : Nat) (v : Word) (s : State) : Out := .next (s.debugWriteMsg (mgmtPath port) (off % 2 ^ 32) v)

/-- An access of the debug port (R542): a read's value is kept for the pins (DESIGN CHOICE, log entry 40). -/
def execDebugPortAccess (write : Bool) (off : Nat) (v : Word) (s : State) : Out :=
  .next (
    if !s.powered then s
    else if !s.flag LID_AUTH_DEBUG_EN then s.debugRefused .debugPort off (if write then v else s.readReg off)
    else if write then s.writeReg .debug .debugPort off v
    else
      let x := if s.served off then s.readReg off else BitVec.ofNat 64 (Config.rspValue 4 off)
      s.modLid fun l => { l with debugOut := l.debugOut ++ [x] })

/-! ### The management protocol (R521 to R524, R435) -/

/-- A number in a datagram. -/
def dgAt (l : List Byte) (a n : Nat) : Nat := leNat ((l.drop a).take n)

/-- Payload bytes that each message type of the fabric manager needs; a type that is not here is unknown. -/
def msgLen (type : Nat) : Option Nat :=
  [(0x22, 4), (0x23, 12), (0x48, 1), (0x49, 12), (0x4A, 34), (0x4B, 34), (0x4C, 0), (0x4D, 0), (0x4E, 0), (0x50, 33),
    (0x52, 0), (0x53, 0), (0x54, 12)].lookup type

/-- An accepted message acts (DEDUCED, log entry 39). -/
def State.actMsg (s : State) (p : Path) (type : Nat) (l : List Byte) : State :=
  match type with
  | 0x22 => s.regReadMsg p (dgAt l 0 4)
  | 0x23 => s.regWriteMsg p (dgAt l 0 4) (BitVec.ofNat 64 (dgAt l 4 8))
  | 0x48 => s.partResetMsg p (dgAt l 0 1) l
  | 0x49 => s.peerResetMsg p (dgAt l 3 1) l
  | 0x4A => s.fencePeerMsg p (dgAt l 0 2) (dgAt l 2 32)
  | 0x4B => s.readmitPeerMsg p (dgAt l 0 2) (dgAt l 2 32)
  | 0x4C => s.message p 0x4C [] true State.fenceSelf
  | 0x4D => s.message p 0x4D [] true State.readmitSelf
  | 0x4E => s.rtsMsg p
  | 0x50 => s.attestMsg p (dgAt l 0 32) (dgAt l 32 1)
  | 0x52 => s.debugEnableMsg p
  | 0x53 => s.raiseFloorMsg p
  | 0x54 => s.debugWriteMsg p (dgAt l 0 4) (BitVec.ofNat 64 (dgAt l 4 8))
  | _ => s.message p type l false id

/-- Is a frame a datagram of the management protocol (R521)? -/
def isDatagram (l : List Byte) : Bool :=
  decide (64 ≤ l.length) && dgAt l 0 2 == 0x484D && dgAt l 2 1 == 1 && decide (dgAt l 4 2 ≤ 1380) && l.length == 64 + dgAt l 4 2

/-- Does the TAG verify under the installed key (R522)? -/
def State.tagVerifies (s : State) (l : List Byte) : Bool :=
  match s.lid.key with
  | none => false
  | some k =>
    let n := 32 + dgAt l 4 2
    kmac256 (bytes32 k) (l.take n) ("Izzia mgmt".toUTF8.toList.map fun u => BitVec.ofNat 8 u.toNat) == l.drop n

/-- Is a sequence number new (R523)? (DEDUCED, log entry 39). -/
def State.seqFresh (s : State) (seq : Nat) : Bool :=
  let high := s.fld MGT_RX_HIGH_SEQ
  decide (high < seq) || (decide (seq < high) && decide (high - seq < 1024) && !s.lid.rxSeen.contains seq)

/-- A sequence number is accepted. -/
def State.seqAccept (s : State) (seq : Nat) : State :=
  let high := Nat.max (s.fld MGT_RX_HIGH_SEQ) seq
  (s.setFld MGT_RX_HIGH_SEQ high).modLid fun l => { l with rxSeen := (seq :: l.rxSeen).filter fun x => decide (high < x + 1024) }

/-- A datagram arrives at a management port: it is taken on the port's own address and the UDP port of the protocol (R519). -/
def execMgmtDatagram (port : Nat) (d : Datagram) (s : State) : Out :=
  .next (
    let l := d.bytes
    if !s.driven || decide (2 ≤ port) || !s.flag (mgtEn port) then s
    else if d.dest ≠ s.mgtAddr port || d.udpPort ≠ s.fld MGT_CTRL_UDP_PORT || !isDatagram l then s.count MGT_COUNT_DROPPED 1
    else if !s.tagVerifies l || dgAt l 26 2 ≠ s.fld MGT_STATUS_KEY_ID then s.count MGT_COUNT_AUTH_FAIL 1
    else if !s.seqFresh (dgAt l 8 8) then s.count MGT_COUNT_DUPLICATE 1
    else
      let s := s.seqAccept (dgAt l 8 8)
      let type := dgAt l 3 1
      let payload := (l.drop 32).take (dgAt l 4 2)
      let whole := dgAt l 6 1 == 0 && dgAt l 7 1 == 1
      match msgLen type with
      | some n => if whole && decide (n ≤ payload.length) then s.actMsg (mgmtPath port) type payload
                  else s.message (mgmtPath port) type payload false id
      | none => s.message (mgmtPath port) type payload false id)

end Sys2Proof.Machine
end

