-- ==== Sys2Proof/Machine/Tick.lean ====
section
/-!
DEFINITION. One clk tick: what passes with time alone, and so what a step does while no command waits (log entry 7). Counters that
count work rise with the commands that do the work.
-/

namespace Sys2Proof.Machine

/-- One clk at 2.7 GHz in units of 2^-32 ns, rounded down (DESIGN CHOICE, log entry 7). -/
def clkUnits : Nat := 1590728628

/-- The slew of one clk (R21): against the offset that is left, at most that offset, within SLEW_PPM of which at most 500 ppm count. How
much of this the servo takes is free (DESIGN CHOICE, log entry 13). -/
def State.slewNow (s : State) : Int :=
  let rate := clkUnits * Nat.min 500 (s.fld FTU_SERVO_SLEW_PPM) / 1000000
  let m : Int := Nat.min s.servo.slew.natAbs (Nat.min rate (Config.servoSlew (s.fld FTU_SERVO_BANDWIDTH) s.servo.draws))
  if 0 < s.servo.slew then -m else m

/-- Fabric time goes on from the first lock (R17, R21, R23): by a clk at the rate that the frequency correction gives the reference, in
which it never decreases (R15), and by the slew, which moves it against the sources (DESIGN CHOICE, log entry 7). -/
def State.advanceTime (s : State) : State :=
  if !s.servo.everLocked then s
  else
    let d := s.slewNow
    let run : Int := max (-d) (clkUnits + s.servo.freq)
    ((s.correctEstimate d).moveEstimate run).modServo fun v => { v with slew := v.slew + d, draws := v.draws + 1 }

/-- The lid's local counter runs from the deassertion of JL_RESET_N (R474): a clk is 10/27 ns (DESIGN CHOICE, log entry 7). -/
def State.advanceLocal (s : State) : State :=
  if s.lid.upsett || s.ready then s.modLid fun l => { l with loc := l.loc + 10 } else s

/-- The heartbeats of the schedulers that lead a partition (R420). -/
def State.beatSchedulers (s : State) : State :=
  s.forEach ((List.range 4).filter fun r => s.partList.any fun p => s.leadRegion p == r) State.beat

/-- A command that has waited for a frame under test runs if nothing keeps it any longer (R247). -/
def State.retryCommand (s : State) (x : WaitCmd) : State :=
  let go : State := s.modLid fun l => { l with waits := l.waits.erase x }
  if x.off = SCH_CMD then if s.schWaits x then s else go.schFinish x
  else match (List.range 16).find? fun e => x.off == COL_CMD e || x.off == COL_CTRL e with
    | some e =>
      if x.off = COL_CTRL e then go.writeColCtrl x.auth x.path e x.new
      else if s.coilWaits e x then s
      else go.coilFinish e x
    | none => go

/-- One clk: what met on plait operations in the clk that ends acts in its order (R382), PTB writes and a key installed before apply, the coil senders send, time advances, a core that stalls counts the clk, the
faults that the cores have seen start their teardowns, and then the trigger slots that are due fire, before any command of the clk
(R25, R29, R32, R185, R188) (DESIGN CHOICE, log entry 7) (DESIGN CHOICE, log entry 84). -/
def State.tick (s : State) : State :=
  if !s.powered then s
  else
    let s := (s.plaitEvents.refreshRunnable.noteStalls.takeHolds.rplTick).beatSchedulers
    let s : State := { s with clk := s.clk + 1 }
    (s.forEach s.lid.waits State.retryCommand).ptbApplies.takeKey.coilSenders.advanceTime.advanceLocal.stallClks.reportDue.fireDue

end Sys2Proof.Machine
end

