-- ==== Sys2Proof/Machine/Vector.lean ====
section
/-!
DEFINITION. The vector engine's element instructions: configuration, arithmetic, fused multiply-add, compare and mask, integer,
conversion, transcendental, permute, load and store (R117 to R134, R156), and the queue's completions (R123, R158).
-/

namespace Sys2Proof.Machine

/-! ### Configuration (major 0x18) -/

/-- VSETVL takes effect at issue and takes no queue entry (R120). -/
def execVsetvl (b : Nat) (f : Bool) (w : Word) (s : State) : Out :=
  .next (s.issue b f w fun s =>
    match vecCheck w 0 anyType 0 (if wTk w || wTicket w ≠ 0 then some VEC_FIELD_INVALID else none) with
    | some e => .fault (s.vecLast b e) e
    | none =>
      let vl := Nat.min (s.sreg b f (wSa w)).toNat (vlMax (wType w))
      let s := s.modBst b fun x => { x with vl := vl, vtype := wType w }
      .retire (s.setSreg b f (wDst w) (BitVec.ofNat 64 vl)))

/-- VMV.S: zero-extended, or sign-extended for integer types. -/
def execVmvS (b : Nat) (f : Bool) (w : Word) (s : State) : Out :=
  .next (s.vecSync b f w (bitMask 9 0) anyType
    (fun _ => if vlMax (wType w) ≤ wBits w 9 0 then some VEC_FIELD_INVALID else none) true fun s =>
      let raw := (s.bst b).velem (wSa w) (typeBytes (wType w)) (wBits w 9 0)
      if typeFloat (wType w) then BitVec.ofNat 64 raw else BitVec.ofInt 64 (signed (8 * typeBytes (wType w)) raw))

/-- The check of a configuration item number (R156). -/
def itemCheck (w : Word) : Option Nat := if 4 < wBits w 7 0 then some VEC_FIELD_INVALID else none

/-- VCFG has TK = 0 and takes effect in issue order. With vl = 0 it changes no flag (R119), so item 4 keeps its value; the other items are
no register, memory, counter or flag (DEDUCED, log entry 95). -/
def execVcfg (b : Nat) (f : Bool) (w : Word) (s : State) : Out :=
  .next (s.issue b f w fun s =>
    match vecCheck w (bitMask 7 0) [] 0 (if wTk w then some VEC_FIELD_INVALID else itemCheck w) with
    | some e => .fault (s.vecLast b e) e
    | none =>
      if 8 ≤ (s.bst b).vq.length || (s.blk b).vregTest then .hold s .stall
      else if (s.bst b).vl = 0 && wBits w 7 0 == 4 then .retire (s.pushVec b f w 0 false)
      else
        let v := s.sreg b f (wSa w)
        let s := s.modBst b fun x => { x with cfg := SMap.set (fun _ => 0) x.cfg (wBits w 7 0) v }
        let s := s.pushVec b f w 0 false
        .retire (match (s.blk b).ctx with
          | some c => s.rplConfigWrite c b (wBits w 7 0) v
          | none => s))

/-- VCFG.RD. -/
def execVcfgRd (b : Nat) (f : Bool) (w : Word) (s : State) : Out :=
  .next (s.vecSync b f w (bitMask 7 0) [] (fun _ => itemCheck w) false fun s => (s.bst b).cfgItem (wBits w 7 0))

/-- MPOP: ones among bits 0 to vl - 1 of m[SA]. -/
def execMpop (b : Nat) (f : Bool) (w : Word) (s : State) : Out :=
  .next (s.vecSync b f w 0 [] (fun _ => if maskField (wSa w) then none else some VEC_FIELD_INVALID) true fun s =>
    BitVec.ofNat 64 ((List.range (s.bst b).vl).filter fun i => (s.bst b).mbit (wSa w) i).length)

/-- VMV.V. -/
def execVmvV (b : Nat) (f : Bool) (w : Word) (s : State) : Out :=
  .next (s.vecReg b f w 0 anyType noCheck (wMen w) false fun s x =>
    let wd := typeBytes (wType w)
    x.writeElems w wd fun _ => ((s.sreg b f (wSa w)).toNat % 2 ^ (8 * wd), false, false))

/-! ### Floating-point arithmetic (majors 0x19, 0x1A, 0x1E) -/

/-- A floating-point operation on va, operand b and vd: `op` gives the pattern. -/
def State.vecFp (s : State) (b : Nat) (f : Bool) (w : Word) (low : Nat) (arity : Nat)
    (op : Fmt → Nat → Nat → Nat → Nat) : State :=
  s.vecReg b f w low floatTypes noCheck true false fun s x =>
    let t := wType w
    let k := typeFmt t
    let wd := typeBytes t
    x.writeElems w wd fun i =>
      let a := x.velem (wSa w) wd i
      let bb := s.opB b f w x i
      let d := x.velem (wDst w) wd i
      let r := op k a bb d
      let ops := ([k.decode a, k.decode bb, k.decode d]).take arity
      (r, resultFlags ops (k.decode r))

/-- An operation that changes only the sign bit (R130). -/
def State.vecSign (s : State) (b : Nat) (f : Bool) (w : Word) (g : Bool → Bool) : State :=
  s.vecReg b f w (bitMask 23 23) floatTypes noCheck true false fun _ x =>
    let k := typeFmt (wType w)
    let wd := typeBytes (wType w)
    x.writeElems w wd fun i =>
      let a := x.velem (wSa w) wd i
      ((if (k.decode a).isNan then a else k.signed (g (decide (k.signBit ≤ a))) (a % k.signBit)), false, false)

def vopAdd (k : Fmt) (x y _z : Nat) : Nat := k.encode ((k.decode x).add (k.decode y))
def vopSub (k : Fmt) (x y _z : Nat) : Nat := k.encode ((k.decode x).add (k.decode y).neg)
def vopMul (k : Fmt) (x y _z : Nat) : Nat := k.encode ((k.decode x).mul (k.decode y))
def vopDiv (k : Fmt) (x y _z : Nat) : Nat := k.div (k.decode x) (k.decode y)
def vopMin (k : Fmt) (x y _z : Nat) : Nat := k.encode ((k.decode x).minimum (k.decode y))
def vopMax (k : Fmt) (x y _z : Nat) : Nat := k.encode ((k.decode x).maximum (k.decode y))
def vopFma (k : Fmt) (x y z : Nat) : Nat := k.encode ((k.decode x).fma (k.decode y) (k.decode z))
def vopFms (k : Fmt) (x y z : Nat) : Nat := k.encode ((k.decode x).fma (k.decode y) (k.decode z).neg)
def vopFnma (k : Fmt) (x y z : Nat) : Nat := k.encode ((k.decode x).neg.fma (k.decode y) (k.decode z))
def vopFn (fn : Fn) (k : Fmt) (x _y _z : Nat) : Nat := k.fn fn (k.decode x)
def vopRcp (k : Fmt) (x _y _z : Nat) : Nat := k.rcp (k.decode x)
def vopSqrt (k : Fmt) (x _y _z : Nat) : Nat := k.sqrt (k.decode x)
def vopRsqrt (k : Fmt) (x _y _z : Nat) : Nat := k.rsqrt (k.decode x)

def execVadd (b : Nat) (f : Bool) (w : Word) (s : State) : Out := .next (s.vecFp b f w (bitMask 23 23) 2 vopAdd)
def execVsub (b : Nat) (f : Bool) (w : Word) (s : State) : Out := .next (s.vecFp b f w (bitMask 23 23) 2 vopSub)
def execVmul (b : Nat) (f : Bool) (w : Word) (s : State) : Out := .next (s.vecFp b f w (bitMask 23 23) 2 vopMul)
def execVdiv (b : Nat) (f : Bool) (w : Word) (s : State) : Out := .next (s.vecFp b f w (bitMask 23 23) 2 vopDiv)
def execVmin (b : Nat) (f : Bool) (w : Word) (s : State) : Out := .next (s.vecFp b f w (bitMask 23 23) 2 vopMin)
def execVmax (b : Nat) (f : Bool) (w : Word) (s : State) : Out := .next (s.vecFp b f w (bitMask 23 23) 2 vopMax)
def execVabs (b : Nat) (f : Bool) (w : Word) (s : State) : Out := .next (s.vecSign b f w fun _ => false)
def execVneg (b : Nat) (f : Bool) (w : Word) (s : State) : Out := .next (s.vecSign b f w not)
def execVfma (b : Nat) (f : Bool) (w : Word) (s : State) : Out := .next (s.vecFp b f w (bitMask 23 23) 3 vopFma)
def execVfms (b : Nat) (f : Bool) (w : Word) (s : State) : Out := .next (s.vecFp b f w (bitMask 23 23) 3 vopFms)
def execVfnma (b : Nat) (f : Bool) (w : Word) (s : State) : Out := .next (s.vecFp b f w (bitMask 23 23) 3 vopFnma)
def execVexp (b : Nat) (f : Bool) (w : Word) (s : State) : Out := .next (s.vecFp b f w 0 1 (vopFn .exp))
def execVexp2 (b : Nat) (f : Bool) (w : Word) (s : State) : Out := .next (s.vecFp b f w 0 1 (vopFn .exp2))
def execVlog (b : Nat) (f : Bool) (w : Word) (s : State) : Out := .next (s.vecFp b f w 0 1 (vopFn .log))
def execVlog2 (b : Nat) (f : Bool) (w : Word) (s : State) : Out := .next (s.vecFp b f w 0 1 (vopFn .log2))
def execVrcp (b : Nat) (f : Bool) (w : Word) (s : State) : Out := .next (s.vecFp b f w 0 1 vopRcp)
def execVsqrt (b : Nat) (f : Bool) (w : Word) (s : State) : Out := .next (s.vecFp b f w 0 1 vopSqrt)
def execVrsqrt (b : Nat) (f : Bool) (w : Word) (s : State) : Out := .next (s.vecFp b f w 0 1 vopRsqrt)
def execVtanh (b : Nat) (f : Bool) (w : Word) (s : State) : Out := .next (s.vecFp b f w 0 1 (vopFn .tanh))
def execVsigmoid (b : Nat) (f : Bool) (w : Word) (s : State) : Out := .next (s.vecFp b f w 0 1 (vopFn .sigmoid))
def execVerf (b : Nat) (f : Bool) (w : Word) (s : State) : Out := .next (s.vecFp b f w 0 1 (vopFn .erf))
def execVsin (b : Nat) (f : Bool) (w : Word) (s : State) : Out := .next (s.vecFp b f w 0 1 (vopFn .sin))
def execVcos (b : Nat) (f : Bool) (w : Word) (s : State) : Out := .next (s.vecFp b f w 0 1 (vopFn .cos))

/-! ### Compare and mask (major 0x1B) -/

/-- A compare: the relation on the two values. -/
def State.vecCmp (s : State) (b : Nat) (f : Bool) (w : Word) (rel : FVal → FVal → Bool) : State :=
  s.vecReg b f w (bitMask 23 23) anyType (fun _ => if maskField (wDst w) then none else some VEC_FIELD_INVALID) true false
    fun s x =>
      let t := wType w
      x.writeMask (wDst w) (x.active w) fun i =>
        rel (typeVal t (x.velem (wSa w) (typeBytes t) i)) (typeVal t (s.opB b f w x i))

def execVcmpEq (b : Nat) (f : Bool) (w : Word) (s : State) : Out := .next (s.vecCmp b f w FVal.eq)
def execVcmpLt (b : Nat) (f : Bool) (w : Word) (s : State) : Out := .next (s.vecCmp b f w FVal.lt)
def execVcmpLe (b : Nat) (f : Bool) (w : Word) (s : State) : Out := .next (s.vecCmp b f w fun x y => x.lt y || x.eq y)
def execVcmpUn (b : Nat) (f : Bool) (w : Word) (s : State) : Out := .next (s.vecCmp b f w fun x y => x.isNan || y.isNan)

/-- A mask operation. -/
def State.vecMask (s : State) (b : Nat) (f : Bool) (w : Word) (unary : Bool) (op : Bool → Bool → Bool) : State :=
  s.vecReg b f w (bitMask 23 23) []
    (fun _ => if maskField (wDst w) && maskField (wSa w) && (unary || maskField (wSb w)) then none else some VEC_FIELD_INVALID)
    true false fun _ x =>
      x.writeMask (wDst w) (x.active w) fun i => op (x.mbit (wSa w) i) (x.mbit (wSb w) i)

def execMand (b : Nat) (f : Bool) (w : Word) (s : State) : Out := .next (s.vecMask b f w false and)
def execMor (b : Nat) (f : Bool) (w : Word) (s : State) : Out := .next (s.vecMask b f w false or)
def execMxor (b : Nat) (f : Bool) (w : Word) (s : State) : Out := .next (s.vecMask b f w false bne)
/-- MNOT is the complement of m[SA]: it reads no m[SB], and SB is not held to name a mask register. R127 says only that it combines the two
(DESIGN CHOICE, log entry 104). -/
def execMnot (b : Nat) (f : Bool) (w : Word) (s : State) : Out := .next (s.vecMask b f w true fun x _ => !x)

/-! ### Integer and bits (major 0x1C) -/

/-- An integer operation on patterns of `n` bits. -/
def State.vecInt (s : State) (b : Nat) (f : Bool) (w : Word) (op : (n x y : Nat) → Nat) : State :=
  s.vecReg b f w (bitMask 23 23) intTypes noCheck true false fun s x =>
    let wd := typeBytes (wType w)
    x.writeElems w wd fun i =>
      (op (8 * wd) (x.velem (wSa w) wd i) (s.opB b f w x i) % 2 ^ (8 * wd), false, false)

def vintSub (n x y : Nat) : Nat := x + (2 ^ n - y)
def vintSll (n x y : Nat) : Nat := x * 2 ^ (y % n)
def vintSrl (n x y : Nat) : Nat := x / 2 ^ (y % n)
def vintSra (n x y : Nat) : Nat := wrap n (signed n x / (2 ^ (y % n) : Nat))

def execViadd (b : Nat) (f : Bool) (w : Word) (s : State) : Out := .next (s.vecInt b f w fun _ x y => x + y)
def execVisub (b : Nat) (f : Bool) (w : Word) (s : State) : Out := .next (s.vecInt b f w vintSub)
def execVimul (b : Nat) (f : Bool) (w : Word) (s : State) : Out := .next (s.vecInt b f w fun _ x y => x * y)
def execVand (b : Nat) (f : Bool) (w : Word) (s : State) : Out := .next (s.vecInt b f w fun _ x y => x &&& y)
def execVor (b : Nat) (f : Bool) (w : Word) (s : State) : Out := .next (s.vecInt b f w fun _ x y => x ||| y)
def execVxor (b : Nat) (f : Bool) (w : Word) (s : State) : Out := .next (s.vecInt b f w fun _ x y => x ^^^ y)
def execVsll (b : Nat) (f : Bool) (w : Word) (s : State) : Out := .next (s.vecInt b f w vintSll)
def execVsrl (b : Nat) (f : Bool) (w : Word) (s : State) : Out := .next (s.vecInt b f w vintSrl)
def execVsra (b : Nat) (f : Bool) (w : Word) (s : State) : Out := .next (s.vecInt b f w vintSra)

/-! ### Conversion (major 0x1D) -/

/-- A conversion of one element (R131): the pattern and the flags of R157. From an integer type to a narrower one it wraps, as R131 has it of
integer operations: the rule states no saturation for it (DESIGN CHOICE, log entry 104). -/
def convert (src dst raw : Nat) : Nat × Bool × Bool :=
  let v := typeVal src raw
  if typeFloat dst then
    let k := typeFmt dst
    let r := k.encode v
    (r, resultFlags [v] (k.decode r))
  else if typeFloat src then (v.toInt (8 * typeBytes dst), false, false)
  else (wrap (8 * typeBytes dst) (signed (8 * typeBytes src) raw), false, false)

/-- VCVT: the source type is in [23:21]; both types bound vl. -/
def execVcvt (b : Nat) (f : Bool) (w : Word) (s : State) : Out :=
  let src := wBits w 23 21
  .next (s.vecReg b f w (bitMask 23 21) anyType
    (fun s => if src = 7 then some VEC_FORMAT_INVALID
      else if vlMax src < (s.bst b).vl then some VL_RANGE else none) true false fun _ x =>
      x.writeElems w (typeBytes (wType w)) fun i => convert src (wType w) (x.velem (wSa w) (typeBytes src) i))

/-! ### Permute (major 0x1F) -/

/-- Element `j` of a register, or 0 at or above VLMAX. -/
def BlkState.source (x : BlkState) (w : Word) (r j : Nat) : Nat :=
  if j < vlMax (wType w) then x.velem r (typeBytes (wType w)) j else 0

def execVslidedn (b : Nat) (f : Bool) (w : Word) (s : State) : Out :=
  .next (s.vecReg b f w 0 anyType noCheck true false fun s x =>
    x.writeElems w (typeBytes (wType w)) fun i => (x.source w (wSa w) (i + (s.sreg b f (wSb w)).toNat), false, false))

def execVslideup (b : Nat) (f : Bool) (w : Word) (s : State) : Out :=
  .next (s.vecReg b f w 0 anyType noCheck true false fun s x =>
    let k := (s.sreg b f (wSb w)).toNat
    x.writeElems w (typeBytes (wType w)) fun i =>
      (if i < k then x.velem (wDst w) (typeBytes (wType w)) i else x.source w (wSa w) (i - k), false, false))

def execVperm (b : Nat) (f : Bool) (w : Word) (s : State) : Out :=
  .next (s.vecReg b f w 0 anyType noCheck true false fun _ x =>
    x.writeElems w (typeBytes (wType w)) fun i =>
      (x.source w (wSa w) (x.velem (wSb w) (typeBytes (wType w)) i), false, false))

/-- VMERGE requires MEN and writes every element below vl (R119, R127). -/
def execVmerge (b : Nat) (f : Bool) (w : Word) (s : State) : Out :=
  .next (s.vecReg b f w 0 anyType (fun _ => if wMen w then none else some VEC_FIELD_INVALID) true false fun _ x =>
    let wd := typeBytes (wType w)
    x.setVelems (wDst w) wd ((List.range x.vl).map fun i =>
      if x.mbit (wMsk w) i then x.velem (wSa w) wd i else x.velem (wSb w) wd i))

/-! ### Load and store (major 0x20, R132 to R134) -/

/-- The address of element `i`. -/
def State.vecAddr (s : State) (b : Nat) (f : Bool) (w : Word) (i : Nat) : Nat :=
  let step := if wVs w then (s.sreg b f (wSb w)).toNat else typeBytes (wType w)
  ((s.sreg b f (wSa w)).toNat + i * step) % 2 ^ 64

/-- The elements that a load or store moves. -/
def BlkState.moved (x : BlkState) (w : Word) : List Nat := (List.range x.vl).filter (x.active w)

/-- The check of every address: alignment first, then the two spaces. -/
def State.vecAddrFault (s : State) (b : Nat) (f : Bool) (w : Word) : Option Nat :=
  let wd := typeBytes (wType w)
  let l := ((s.bst b).moved w).map (s.vecAddr b f w)
  if l.any fun a => a % wd != 0 then some VEC_ADDR_ALIGN
  else if l.any fun a => decide (accEnd < a + wd) then some VEC_ADDR_RANGE else none

/-- Byte of the register where element 0 lies (R133). -/
def upperOff (w : Word) : Nat := if bitOf w.toNat 22 then 2048 else 0

/-- UPPER only for 16-bit types, AMX only for VST. -/
def ldstCheck (w : Word) (load : Bool) : Option Nat :=
  if (bitOf w.toNat 22 && typeBytes (wType w) ≠ 2) || (load && bitOf w.toNat 21) then some VEC_FIELD_INVALID else none

/-- Read the moved elements one after another: their numbers, or the first fault. -/
def State.readElems (s : State) (b : Nat) (f : Bool) (w : Word) : List Nat → Except Nat (List (Nat × Nat)) × State
  | [] => (.ok [], s)
  | i :: l =>
    match s.readLocal b (s.vecAddr b f w i) (typeBytes (wType w)) with
    | (.error e, s) => (.error e, s)
    | (.ok d, s) =>
      match s.readElems b f w l with
      | (.ok r, s) => (.ok ((i, leNat d) :: r), s)
      | (.error e, s) => (.error e, s)

/-- Read all elements: a contiguous unmasked load is one read. -/
def State.loadElems (s : State) (b : Nat) (f : Bool) (w : Word) : Except Nat (List (Nat × Nat)) × State :=
  let wd := typeBytes (wType w)
  let l := (s.bst b).moved w
  if wVs w || wMen w then s.readElems b f w l
  else match s.readLocal b (s.vecAddr b f w 0) (wd * l.length) with
    | (.error e, s) => (.error e, s)
    | (.ok d, s) => (.ok (l.map fun i => (i, leNat ((d.drop (wd * i)).take wd))), s)

/-- VLD. -/
def execVld (b : Nat) (f : Bool) (w : Word) (s : State) : Out :=
  .next (s.vec b f w (bitMask 23 18) anyType (fun _ => ldstCheck w true) (wMen w) false fun s =>
    match s.vecAddrFault b f w with
    | some e => (.fault e, s)
    | none =>
      match s.loadElems b f w with
      | (.error e, s) => (.fault e, s)
      | (.ok r, s) =>
        let wd := typeBytes (wType w)
        (.ok (), s.modBst b fun x =>
          x.setVelems (wDst w) wd ((List.range x.vl).map fun i =>
            match r.find? fun p => p.1 == i with
            | some p => p.2
            | none => x.velem (wDst w) wd i (upperOff w)) (upperOff w)))

/-- VST: with STRIDED the data register is DST. -/
def execVst (b : Nat) (f : Bool) (w : Word) (s : State) : Out :=
  .next (s.vec b f w (bitMask 23 18) anyType (fun _ => ldstCheck w false) true false fun s =>
    match s.vecAddrFault b f w with
    | some e => (.fault e, s)
    | none =>
      let wd := typeBytes (wType w)
      let r := if wVs w then wDst w else wSb w
      let x0 := s.bst b
      let l := (x0.moved w).map fun i => (s.vecAddr b f w i, x0.velem r wd i (upperOff w))
      let s := if wVs w || wMen w then s.modBst b fun x => l.foldl (fun x (a, v) => x.write a (leBytes v wd)) x
        else s.writeLocal b (s.vecAddr b f w 0) (l.flatMap fun p => leBytes p.2 wd)
      (.ok (), if bitOf w.toNat 21 then
          s.modBst b fun x => x.setBank (wBits w 20 18) (l.foldl (fun k p => k.takeAmax (typeVal (wType w) p.2)) (x.bank (wBits w 20 18)))
        else s))

/-! ### Completion -/

/-- The oldest entry of the vector queue completes (R121, R123, R187) (DEDUCED, log entry 30). -/
def execVectorInstructionComplete (b : Nat) (s : State) : Out :=
  .next (s.whenOn fun s => match (s.bst b).vq with
    | [] => s
    | e :: rest =>
      if !s.powered || (s.blk b).discard then s
      else
        let s := s.modBst b fun x => { x with vq := rest }
        match e.ticket with
        | some t => s.completeHere b e.f t unitVector 0 e.code
        | none => if e.code = 0 then s else s.faultNoTicket b e.f e.pc e.code)

/-- The register file's self-test ends (R158, R431). -/
def execVregSelftestDone (b : Nat) (pass : Bool) (s : State) : Out :=
  .next (s.whenOn fun s =>
    if !(s.blk b).vregTest then s
    else
      let inj := (s.blk b).vregTestInjected
      let s := s.modBlk b fun x => { x with vregTest := false, vregTestInjected := false }
      if pass then
        if inj then s
        else (s.lastCode RST_STATUS_LAST_CODE VREG_TRANSIENT).health .transient ⟨none, VREG_TRANSIENT, 0x0AFF, b, 0⟩
      else s.blockLeaves b VREG_PARITY)

end Sys2Proof.Machine
end

