-- ==== Sys2Proof/Machine/Dispatch.lean ====
section
/-!
DEFINITION. The meaning of every command: one arm per constructor, one call per arm.
-/

namespace Sys2Proof.Machine

/-- The effect of a command on everything but the queue. -/
def exec (i : Instr) (s : State) : Host.Outcome State Fault Refusal :=
  match i with
  | .ftuEpochWrite a p v => Sys2Proof.Machine.execFtuEpochWrite a p v s
  | .ptpMessage port seqId slave offset pathDelay => Sys2Proof.Machine.execPtpMessage port seqId slave offset pathDelay s
  | .holdoverLimit => Sys2Proof.Machine.execHoldoverLimit s
  | .timeRelock => Sys2Proof.Machine.execTimeRelock s
  | .triggerArm a p region i1 v => Sys2Proof.Machine.execTriggerArm a p region i1 v s
  | .triggerFire region i1 => Sys2Proof.Machine.execTriggerFire region i1 s
  | .mapSwitch a p v => Sys2Proof.Machine.execMapSwitch a p v s
  | .mapSwitchDrained => Sys2Proof.Machine.execMapSwitchDrained s
  | .weave b f w => Sys2Proof.Machine.execWeave b f w s
  | .weaveAccept b => Sys2Proof.Machine.execWeaveAccept b s
  | .weaverRowArrive b => Sys2Proof.Machine.execWeaverRowArrive b s
  | .randBoundary b => Sys2Proof.Machine.execRandBoundary b s
  | .originReloadDone b => Sys2Proof.Machine.execOriginReloadDone b s
  | .arrSelftestDone b pass => Sys2Proof.Machine.execArrSelftestDone b pass s
  | .replayLimitReached b => Sys2Proof.Machine.execReplayLimitReached b s
  | .spareFillDone b => Sys2Proof.Machine.execSpareFillDone b s
  | .stakeLd b f w => Sys2Proof.Machine.execStakeLd b f w s
  | .stakeQueueStart b => Sys2Proof.Machine.execStakeQueueStart b s
  | .stakeLdDone b => Sys2Proof.Machine.execStakeLdDone b s
  | .stakeInv b f w => Sys2Proof.Machine.execStakeInv b f w s
  | .stakeStat b f w => Sys2Proof.Machine.execStakeStat b f w s
  | .vsetvl b f w => Sys2Proof.Machine.execVsetvl b f w s
  | .vmvS b f w => Sys2Proof.Machine.execVmvS b f w s
  | .vcfg b f w => Sys2Proof.Machine.execVcfg b f w s
  | .vcfgRd b f w => Sys2Proof.Machine.execVcfgRd b f w s
  | .mpop b f w => Sys2Proof.Machine.execMpop b f w s
  | .vmvV b f w => Sys2Proof.Machine.execVmvV b f w s
  | .vadd b f w => Sys2Proof.Machine.execVadd b f w s
  | .vsub b f w => Sys2Proof.Machine.execVsub b f w s
  | .vmul b f w => Sys2Proof.Machine.execVmul b f w s
  | .vdiv b f w => Sys2Proof.Machine.execVdiv b f w s
  | .vmin b f w => Sys2Proof.Machine.execVmin b f w s
  | .vmax b f w => Sys2Proof.Machine.execVmax b f w s
  | .vabs b f w => Sys2Proof.Machine.execVabs b f w s
  | .vneg b f w => Sys2Proof.Machine.execVneg b f w s
  | .vfma b f w => Sys2Proof.Machine.execVfma b f w s
  | .vfms b f w => Sys2Proof.Machine.execVfms b f w s
  | .vfnma b f w => Sys2Proof.Machine.execVfnma b f w s
  | .vcmpEq b f w => Sys2Proof.Machine.execVcmpEq b f w s
  | .vcmpLt b f w => Sys2Proof.Machine.execVcmpLt b f w s
  | .vcmpLe b f w => Sys2Proof.Machine.execVcmpLe b f w s
  | .vcmpUn b f w => Sys2Proof.Machine.execVcmpUn b f w s
  | .mand b f w => Sys2Proof.Machine.execMand b f w s
  | .mor b f w => Sys2Proof.Machine.execMor b f w s
  | .mxor b f w => Sys2Proof.Machine.execMxor b f w s
  | .mnot b f w => Sys2Proof.Machine.execMnot b f w s
  | .viadd b f w => Sys2Proof.Machine.execViadd b f w s
  | .visub b f w => Sys2Proof.Machine.execVisub b f w s
  | .vimul b f w => Sys2Proof.Machine.execVimul b f w s
  | .vand b f w => Sys2Proof.Machine.execVand b f w s
  | .vor b f w => Sys2Proof.Machine.execVor b f w s
  | .vxor b f w => Sys2Proof.Machine.execVxor b f w s
  | .vsll b f w => Sys2Proof.Machine.execVsll b f w s
  | .vsrl b f w => Sys2Proof.Machine.execVsrl b f w s
  | .vsra b f w => Sys2Proof.Machine.execVsra b f w s
  | .vcvt b f w => Sys2Proof.Machine.execVcvt b f w s
  | .vexp b f w => Sys2Proof.Machine.execVexp b f w s
  | .vexp2 b f w => Sys2Proof.Machine.execVexp2 b f w s
  | .vlog b f w => Sys2Proof.Machine.execVlog b f w s
  | .vlog2 b f w => Sys2Proof.Machine.execVlog2 b f w s
  | .vrcp b f w => Sys2Proof.Machine.execVrcp b f w s
  | .vsqrt b f w => Sys2Proof.Machine.execVsqrt b f w s
  | .vrsqrt b f w => Sys2Proof.Machine.execVrsqrt b f w s
  | .vtanh b f w => Sys2Proof.Machine.execVtanh b f w s
  | .vsigmoid b f w => Sys2Proof.Machine.execVsigmoid b f w s
  | .verf b f w => Sys2Proof.Machine.execVerf b f w s
  | .vsin b f w => Sys2Proof.Machine.execVsin b f w s
  | .vcos b f w => Sys2Proof.Machine.execVcos b f w s
  | .vslidedn b f w => Sys2Proof.Machine.execVslidedn b f w s
  | .vslideup b f w => Sys2Proof.Machine.execVslideup b f w s
  | .vperm b f w => Sys2Proof.Machine.execVperm b f w s
  | .vmerge b f w => Sys2Proof.Machine.execVmerge b f w s
  | .vld b f w => Sys2Proof.Machine.execVld b f w s
  | .vst b f w => Sys2Proof.Machine.execVst b f w s
  | .vstSp b f w => Sys2Proof.Machine.execVstSp b f w s
  | .vrb b f w => Sys2Proof.Machine.execVrb b f w s
  | .vldSp b f w => Sys2Proof.Machine.execVldSp b f w s
  | .vsmxStat b f w => Sys2Proof.Machine.execVsmxStat b f w s
  | .vsmxMerge b f w => Sys2Proof.Machine.execVsmxMerge b f w s
  | .vsmxWgt b f w => Sys2Proof.Machine.execVsmxWgt b f w s
  | .vsmxNorm b f w => Sys2Proof.Machine.execVsmxNorm b f w s
  | .voptApply b f w => Sys2Proof.Machine.execVoptApply b f w s
  | .voptRd b f w => Sys2Proof.Machine.execVoptRd b f w s
  | .vrngU32 b f w => Sys2Proof.Machine.execVrngU32 b f w s
  | .vrngUnif b f w => Sys2Proof.Machine.execVrngUnif b f w s
  | .vrngKeep b f w => Sys2Proof.Machine.execVrngKeep b f w s
  | .twSum b f w => Sys2Proof.Machine.execTwSum b f w s
  | .twSumsq b f w => Sys2Proof.Machine.execTwSumsq b f w s
  | .twMax b f w => Sys2Proof.Machine.execTwMax b f w s
  | .twMin b f w => Sys2Proof.Machine.execTwMin b f w s
  | .twAmax b f w => Sys2Proof.Machine.execTwAmax b f w s
  | .twArgmax b f w => Sys2Proof.Machine.execTwArgmax b f w s
  | .twCountNonfinite b f w => Sys2Proof.Machine.execTwCountNonfinite b f w s
  | .twCrd b f w => Sys2Proof.Machine.execTwCrd b f w s
  | .twCclr b f w => Sys2Proof.Machine.execTwCclr b f w s
  | .vregSelftestDone b pass => Sys2Proof.Machine.execVregSelftestDone b pass s
  | .add b f w => Sys2Proof.Machine.execAdd b f w s
  | .sub b f w => Sys2Proof.Machine.execSub b f w s
  | .and b f w => Sys2Proof.Machine.execAnd b f w s
  | .or b f w => Sys2Proof.Machine.execOr b f w s
  | .xor b f w => Sys2Proof.Machine.execXor b f w s
  | .sll b f w => Sys2Proof.Machine.execSll b f w s
  | .srl b f w => Sys2Proof.Machine.execSrl b f w s
  | .sra b f w => Sys2Proof.Machine.execSra b f w s
  | .slt b f w => Sys2Proof.Machine.execSlt b f w s
  | .sltu b f w => Sys2Proof.Machine.execSltu b f w s
  | .mul b f w => Sys2Proof.Machine.execMul b f w s
  | .mulh b f w => Sys2Proof.Machine.execMulh b f w s
  | .mulhu b f w => Sys2Proof.Machine.execMulhu b f w s
  | .div b f w => Sys2Proof.Machine.execDiv b f w s
  | .divu b f w => Sys2Proof.Machine.execDivu b f w s
  | .rem b f w => Sys2Proof.Machine.execRem b f w s
  | .remu b f w => Sys2Proof.Machine.execRemu b f w s
  | .min b f w => Sys2Proof.Machine.execMin b f w s
  | .max b f w => Sys2Proof.Machine.execMax b f w s
  | .minu b f w => Sys2Proof.Machine.execMinu b f w s
  | .maxu b f w => Sys2Proof.Machine.execMaxu b f w s
  | .clz b f w => Sys2Proof.Machine.execClz b f w s
  | .ctz b f w => Sys2Proof.Machine.execCtz b f w s
  | .popc b f w => Sys2Proof.Machine.execPopc b f w s
  | .addi b f w => Sys2Proof.Machine.execAddi b f w s
  | .andi b f w => Sys2Proof.Machine.execAndi b f w s
  | .ori b f w => Sys2Proof.Machine.execOri b f w s
  | .xori b f w => Sys2Proof.Machine.execXori b f w s
  | .slli b f w => Sys2Proof.Machine.execSlli b f w s
  | .srli b f w => Sys2Proof.Machine.execSrli b f w s
  | .srai b f w => Sys2Proof.Machine.execSrai b f w s
  | .slti b f w => Sys2Proof.Machine.execSlti b f w s
  | .sltiu b f w => Sys2Proof.Machine.execSltiu b f w s
  | .movi b f w => Sys2Proof.Machine.execMovi b f w s
  | .movhi b f w => Sys2Proof.Machine.execMovhi b f w s
  | .fadd b f w => Sys2Proof.Machine.execFadd b f w s
  | .fsub b f w => Sys2Proof.Machine.execFsub b f w s
  | .fmul b f w => Sys2Proof.Machine.execFmul b f w s
  | .fdiv b f w => Sys2Proof.Machine.execFdiv b f w s
  | .fsqrt b f w => Sys2Proof.Machine.execFsqrt b f w s
  | .fmin b f w => Sys2Proof.Machine.execFmin b f w s
  | .fmax b f w => Sys2Proof.Machine.execFmax b f w s
  | .fma b f w => Sys2Proof.Machine.execFma b f w s
  | .fcmpEq b f w => Sys2Proof.Machine.execFcmpEq b f w s
  | .fcmpLt b f w => Sys2Proof.Machine.execFcmpLt b f w s
  | .fcmpLe b f w => Sys2Proof.Machine.execFcmpLe b f w s
  | .fcvtI b f w => Sys2Proof.Machine.execFcvtI b f w s
  | .fcvtF b f w => Sys2Proof.Machine.execFcvtF b f w s
  | .fcvtP b f w => Sys2Proof.Machine.execFcvtP b f w s
  | .ldlB b f w => Sys2Proof.Machine.execLdlB b f w s
  | .ldlBu b f w => Sys2Proof.Machine.execLdlBu b f w s
  | .ldlH b f w => Sys2Proof.Machine.execLdlH b f w s
  | .ldlHu b f w => Sys2Proof.Machine.execLdlHu b f w s
  | .ldlW b f w => Sys2Proof.Machine.execLdlW b f w s
  | .ldlWu b f w => Sys2Proof.Machine.execLdlWu b f w s
  | .ldlD b f w => Sys2Proof.Machine.execLdlD b f w s
  | .stlB b f w => Sys2Proof.Machine.execStlB b f w s
  | .stlH b f w => Sys2Proof.Machine.execStlH b f w s
  | .stlW b f w => Sys2Proof.Machine.execStlW b f w s
  | .stlD b f w => Sys2Proof.Machine.execStlD b f w s
  | .ldv b f w => Sys2Proof.Machine.execLdv b f w s
  | .stv b f w => Sys2Proof.Machine.execStv b f w s
  | .amoadd b f w => Sys2Proof.Machine.execAmoadd b f w s
  | .amoswap b f w => Sys2Proof.Machine.execAmoswap b f w s
  | .amocas b f w => Sys2Proof.Machine.execAmocas b f w s
  | .beq b f w => Sys2Proof.Machine.execBeq b f w s
  | .bne b f w => Sys2Proof.Machine.execBne b f w s
  | .blt b f w => Sys2Proof.Machine.execBlt b f w s
  | .bge b f w => Sys2Proof.Machine.execBge b f w s
  | .bltu b f w => Sys2Proof.Machine.execBltu b f w s
  | .bgeu b f w => Sys2Proof.Machine.execBgeu b f w s
  | .jal b f w => Sys2Proof.Machine.execJal b f w s
  | .jalr b f w => Sys2Proof.Machine.execJalr b f w s
  | .wait b f w => Sys2Proof.Machine.execWait b f w s
  | .waitany b f w => Sys2Proof.Machine.execWaitany b f w s
  | .waitT b f w => Sys2Proof.Machine.execWaitT b f w s
  | .tkst b f w => Sys2Proof.Machine.execTkst b f w s
  | .ftnow b f w => Sys2Proof.Machine.execFtnow b f w s
  | .ftwait b f w => Sys2Proof.Machine.execFtwait b f w s
  | .ftstat b f w => Sys2Proof.Machine.execFtstat b f w s
  | .exit b f w => Sys2Proof.Machine.execExit b f w s
  | .fence b f w => Sys2Proof.Machine.execFence b f w s
  | .csrr b f w => Sys2Proof.Machine.execCsrr b f w s
  | .csrw b f w => Sys2Proof.Machine.execCsrw b f w s
  | .nop b f w => Sys2Proof.Machine.execNop b f w s
  | .brk b f w => Sys2Proof.Machine.execBrk b f w s
  | .coreResume a p b v => Sys2Proof.Machine.execCoreResume a p b v s
  | .coreSelftestDone b pass => Sys2Proof.Machine.execCoreSelftestDone b pass s
  | .coreReplayLimit b => Sys2Proof.Machine.execCoreReplayLimit b s
  | .move b f w => Sys2Proof.Machine.execMove b f w s
  | .moveFill b f w => Sys2Proof.Machine.execMoveFill b f w s
  | .moveNc b f w => Sys2Proof.Machine.execMoveNc b f w s
  | .plait b f w => Sys2Proof.Machine.execPlait b f w s
  | .plaitFence b f w => Sys2Proof.Machine.execPlaitFence b f w s
  | .plaitHrel b f w => Sys2Proof.Machine.execPlaitHrel b f w s
  | .illegalInstruction b f w => Sys2Proof.Machine.execIllegalInstruction b f w s
  | .moveBurst id => Sys2Proof.Machine.execMoveBurst id s
  | .pageWalk tag va req => Sys2Proof.Machine.execPageWalk tag va req s
  | .hbmReread dpa fails req => Sys2Proof.Machine.execHbmReread dpa fails req s
  | .frameTestDone k pass channelOk => Sys2Proof.Machine.execFrameTestDone k pass channelOk s
  | .sramRowTestDone b pass => Sys2Proof.Machine.execSramRowTestDone b pass s
  | .tlbiStart a p v => Sys2Proof.Machine.execTlbiStart a p v s
  | .tlbiDone => Sys2Proof.Machine.execTlbiDone s
  | .dirtySwap a p v => Sys2Proof.Machine.execDirtySwap a p v s
  | .dirtyClear a p bank idx v => Sys2Proof.Machine.execDirtyClear a p bank idx v s
  | .hbmIlvWrite a p v => Sys2Proof.Machine.execHbmIlvWrite a p v s
  | .scrubStart a p v => Sys2Proof.Machine.execScrubStart a p v s
  | .scrubDone => Sys2Proof.Machine.execScrubDone s
  | .arbDecision id new => Sys2Proof.Machine.execArbDecision id new s
  | .burstLimitExpire id => Sys2Proof.Machine.execBurstLimitExpire id s
  | .quotaExhausted id req => Sys2Proof.Machine.execQuotaExhausted id req s
  | .arbStatClear a p id v => Sys2Proof.Machine.execArbStatClear a p id v s
  | .makePart a p v => Sys2Proof.Machine.execMakePart a p v s
  | .freePart a p v => Sys2Proof.Machine.execFreePart a p v s
  | .admitCtx a p v => Sys2Proof.Machine.execAdmitCtx a p v s
  | .release a p v => Sys2Proof.Machine.execRelease a p v s
  | .bindQ a p v => Sys2Proof.Machine.execBindQ a p v s
  | .unbindQ a p v => Sys2Proof.Machine.execUnbindQ a p v s
  | .stopQ a p v => Sys2Proof.Machine.execStopQ a p v s
  | .startQ a p v => Sys2Proof.Machine.execStartQ a p v s
  | .doorbellWrite a p q v => Sys2Proof.Machine.execDoorbellWrite a p q v s
  | .entryRead q => Sys2Proof.Machine.execEntryRead q s
  | .taskStart q => Sys2Proof.Machine.execTaskStart q s
  | .fillTaskStart q => Sys2Proof.Machine.execFillTaskStart q s
  | .taskExit b f => Sys2Proof.Machine.execTaskExit b f s
  | .chooseIdle part => Sys2Proof.Machine.execChooseIdle part s
  | .latencySwitchIn part => Sys2Proof.Machine.execLatencySwitchIn part s
  | .contextBlocked c => Sys2Proof.Machine.execContextBlocked c s
  | .debtExpire c => Sys2Proof.Machine.execDebtExpire c s
  | .blockStopped b => Sys2Proof.Machine.execBlockStopped b s
  | .saveDone b ok code => Sys2Proof.Machine.execSaveDone b ok code s
  | .blockScrubDone b => Sys2Proof.Machine.execBlockScrubDone b s
  | .restoreDone b ok code => Sys2Proof.Machine.execRestoreDone b ok code s
  | .dataFrame k fr => Sys2Proof.Machine.execDataFrame k fr s
  | .idleFrame k fr => Sys2Proof.Machine.execIdleFrame k fr s
  | .hello k m => Sys2Proof.Machine.execHello k m s
  | .beacon k hd hops locked epoch time => Sys2Proof.Machine.execBeacon k hd hops locked epoch time s
  | .probe k hd t1 => Sys2Proof.Machine.execProbe k hd t1 s
  | .probeReply k hd times => Sys2Proof.Machine.execProbeReply k hd times s
  | .helloSend k => Sys2Proof.Machine.execHelloSend k s
  | .probeSend k => Sys2Proof.Machine.execProbeSend k s
  | .beaconSend k => Sys2Proof.Machine.execBeaconSend k s
  | .ackTimeout k => Sys2Proof.Machine.execAckTimeout k s
  | .errorRate k => Sys2Proof.Machine.execErrorRate k s
  | .alignmentLost k => Sys2Proof.Machine.execAlignmentLost k s
  | .linkLightDelay k => Sys2Proof.Machine.execLinkLightDelay k s
  | .lightReceived k => Sys2Proof.Machine.execLightReceived k s
  | .lightLost k => Sys2Proof.Machine.execLightLost k s
  | .linkOpen k => Sys2Proof.Machine.execLinkOpen k s
  | .pcsLock k => Sys2Proof.Machine.execPcsLock k s
  | .lockTimeout k => Sys2Proof.Machine.execLockTimeout k s
  | .helloTimeout k => Sys2Proof.Machine.execHelloTimeout k s
  | .probeTimeout k => Sys2Proof.Machine.execProbeTimeout k s
  | .halfTimeout k => Sys2Proof.Machine.execHalfTimeout k s
  | .holdExpire k => Sys2Proof.Machine.execHoldExpire k s
  | .linkEnable a p k v => Sys2Proof.Machine.execLinkEnable a p k v s
  | .linkDisable a p k v => Sys2Proof.Machine.execLinkDisable a p k v s
  | .linkFence a p k v => Sys2Proof.Machine.execLinkFence a p k v s
  | .linkUnfence a p k v => Sys2Proof.Machine.execLinkUnfence a p k v s
  | .linkRetrain a p k v => Sys2Proof.Machine.execLinkRetrain a p k v s
  | .wireWrite a p k v => Sys2Proof.Machine.execWireWrite a p k v s
  | .peerOpenWrite a p k v => Sys2Proof.Machine.execPeerOpenWrite a p k v s
  | .creditReturn k => Sys2Proof.Machine.execCreditReturn k s
  | .plaitAccept b => Sys2Proof.Machine.execPlaitAccept b s
  | .writePacket k pk => Sys2Proof.Machine.execWritePacket k pk s
  | .resultPacket k pk => Sys2Proof.Machine.execResultPacket k pk s
  | .summaryPacket k pk => Sys2Proof.Machine.execSummaryPacket k pk s
  | .versionPacket k pk => Sys2Proof.Machine.execVersionPacket k pk s
  | .creditPacket k pk => Sys2Proof.Machine.execCreditPacket k pk s
  | .doorbellPacket k pk => Sys2Proof.Machine.execDoorbellPacket k pk s
  | .earlyTimeout i1 => Sys2Proof.Machine.execEarlyTimeout i1 s
  | .plaitWaitEnd slot => Sys2Proof.Machine.execPlaitWaitEnd slot s
  | .plaitSummaryTimeout slot => Sys2Proof.Machine.execPlaitSummaryTimeout slot s
  | .portMapWrite a p m port v => Sys2Proof.Machine.execPortMapWrite a p m port v s
  | .rtDataWrite a p v => Sys2Proof.Machine.execRtDataWrite a p v s
  | .coilEnable a p e v => Sys2Proof.Machine.execCoilEnable a p e v s
  | .coilOpen a p e v => Sys2Proof.Machine.execCoilOpen a p e v s
  | .coilCommit a p e v => Sys2Proof.Machine.execCoilCommit a p e v s
  | .coilDiscard a p e v => Sys2Proof.Machine.execCoilDiscard a p e v s
  | .coilRestore a p e v => Sys2Proof.Machine.execCoilRestore a p e v s
  | .coilPark a p e v => Sys2Proof.Machine.execCoilPark a p e v s
  | .coilDissolve a p e v => Sys2Proof.Machine.execCoilDissolve a p e v s
  | .coilPage k pk => Sys2Proof.Machine.execCoilPage k pk s
  | .coilDelta k pk => Sys2Proof.Machine.execCoilDelta k pk s
  | .coilAck k pk => Sys2Proof.Machine.execCoilAck k pk s
  | .coilReady k pk => Sys2Proof.Machine.execCoilReady k pk s
  | .coilEnd k pk => Sys2Proof.Machine.execCoilEnd k pk s
  | .coilRestoreReq k pk => Sys2Proof.Machine.execCoilRestoreReq k pk s
  | .coilRestorePage k pk => Sys2Proof.Machine.execCoilRestorePage k pk s
  | .rplModeWrite a p v => Sys2Proof.Machine.execRplModeWrite a p v s
  | .wdNoRetire b => Sys2Proof.Machine.execWdNoRetire b s
  | .wdSchedHeartbeat r => Sys2Proof.Machine.execWdSchedHeartbeat r s
  | .wdPlaitOverrun => Sys2Proof.Machine.execWdPlaitOverrun s
  | .wdCompanionLost => Sys2Proof.Machine.execWdCompanionLost s
  | .wdLid => Sys2Proof.Machine.execWdLid s
  | .heartbeatWrite a p v => Sys2Proof.Machine.execHeartbeatWrite a p v s
  | .blockHung b => Sys2Proof.Machine.execBlockHung b s
  | .fullResetNeeded part => Sys2Proof.Machine.execFullResetNeeded part s
  | .partReset a p part => Sys2Proof.Machine.execPartReset a p part s
  | .partResetDone part found => Sys2Proof.Machine.execPartResetDone part found s
  | .drainEnd c => Sys2Proof.Machine.execDrainEnd c s
  | .fullReset => Sys2Proof.Machine.execFullReset s
  | .peerReset port addr kind part step => Sys2Proof.Machine.execPeerReset port addr kind part step s
  | .fencePeer port addr digest => Sys2Proof.Machine.execFencePeer port addr digest s
  | .readmitPeer port addr digest => Sys2Proof.Machine.execReadmitPeer port addr digest s
  | .fenceSelf port => Sys2Proof.Machine.execFenceSelf port s
  | .readmitSelf port => Sys2Proof.Machine.execReadmitSelf port s
  | .peerFenceWrite a p v => Sys2Proof.Machine.execPeerFenceWrite a p v s
  | .rtsStart a p => Sys2Proof.Machine.execRtsStart a p s
  | .rtsResult elapsedS found hbm => Sys2Proof.Machine.execRtsResult elapsedS found hbm s
  | .alive => Sys2Proof.Machine.execAlive s
  | .jslDetectEnd signal => Sys2Proof.Machine.execJslDetectEnd signal s
  | .jslEqualiseDone => Sys2Proof.Machine.execJslEqualiseDone s
  | .jslAlignDone low high crReq crData crMsg => Sys2Proof.Machine.execJslAlignDone low high crReq crData crMsg s
  | .flitReceive fl => Sys2Proof.Machine.execFlitReceive fl s
  | .flitAckTimeout => Sys2Proof.Machine.execFlitAckTimeout s
  | .jslLaneFecLoss lane => Sys2Proof.Machine.execJslLaneFecLoss lane s
  | .jslRetrainWrite a p v => Sys2Proof.Machine.execJslRetrainWrite a p v s
  | .jslRetrainDone low high => Sys2Proof.Machine.execJslRetrainDone low high s
  | .rdNc h => Sys2Proof.Machine.execRdNc h s
  | .wrNc h data => Sys2Proof.Machine.execWrNc h data s
  | .snpInv h => Sys2Proof.Machine.execSnpInv h s
  | .snpData h => Sys2Proof.Machine.execSnpData h s
  | .cmp h => Sys2Proof.Machine.execCmp h s
  | .cmpData h data => Sys2Proof.Machine.execCmpData h data s
  | .grantS h data => Sys2Proof.Machine.execGrantS h data s
  | .grantE h data => Sys2Proof.Machine.execGrantE h data s
  | .jslTimeout tid => Sys2Proof.Machine.execJslTimeout tid s
  | .flush a p v => Sys2Proof.Machine.execFlush a p v s
  | .flushDone => Sys2Proof.Machine.execFlushDone s
  | .upsettStart => Sys2Proof.Machine.execUpsettStart s
  | .powerGood refA refB => Sys2Proof.Machine.execPowerGood refA refB s
  | .upsettStepEnd step found => Sys2Proof.Machine.execUpsettStepEnd step found s
  | .step6Limit => Sys2Proof.Machine.execStep6Limit s
  | .loadImage fetched image => Sys2Proof.Machine.execLoadImage fetched image s
  | .loadRepair fetched table => Sys2Proof.Machine.execLoadRepair fetched table s
  | .attest fetched request => Sys2Proof.Machine.execAttest fetched request s
  | .epochTreeDone pos => Sys2Proof.Machine.execEpochTreeDone pos s
  | .installKey a p v => Sys2Proof.Machine.execInstallKey a p v s
  | .attestReq port nonce part => Sys2Proof.Machine.execAttestReq port nonce part s
  | .debugEnable port => Sys2Proof.Machine.execDebugEnable port s
  | .raiseFloor port => Sys2Proof.Machine.execRaiseFloor port s
  | .debugWrite port off v => Sys2Proof.Machine.execDebugWrite port off v s
  | .debugPortAccess write off v => Sys2Proof.Machine.execDebugPortAccess write off v s
  | .echo body => Sys2Proof.Machine.execEcho body s
  | .registerWrite a p off v => Sys2Proof.Machine.execRegisterWrite a p off v s
  | .railOrderFault rail => Sys2Proof.Machine.execRailOrderFault rail s
  | .underVoltage rail => Sys2Proof.Machine.execUnderVoltage rail s
  | .refclkLoss clkB => Sys2Proof.Machine.execRefclkLoss clkB s
  | .refclkBothLost => Sys2Proof.Machine.execRefclkBothLost s
  | .refclkRecover clkB => Sys2Proof.Machine.execRefclkRecover clkB s
  | .clockSelect a p v => Sys2Proof.Machine.execClockSelect a p v s
  | .thermalSample temps => Sys2Proof.Machine.execThermalSample temps s
  | .thermalStopRelease => Sys2Proof.Machine.execThermalStopRelease s
  | .diodeSample milliVolt temp => Sys2Proof.Machine.execDiodeSample milliVolt temp s
  | .powerWindowEnd estimateW => Sys2Proof.Machine.execPowerWindowEnd estimateW s
  | .regulatorPoll i1 ok voutMv iout tempC => Sys2Proof.Machine.execRegulatorPoll i1 ok voutMv iout tempC s
  | .throtReqAssert => Sys2Proof.Machine.execThrotReqAssert s
  | .throtReqDeassert => Sys2Proof.Machine.execThrotReqDeassert s
  | .mgmtPortDown port => Sys2Proof.Machine.execMgmtPortDown port s
  | .mgmtPortUp port fec => Sys2Proof.Machine.execMgmtPortUp port fec s
  | .mgmtDatagram port d => Sys2Proof.Machine.execMgmtDatagram port d s
  | .mgmtNetworkFrame port fr => Sys2Proof.Machine.execMgmtNetworkFrame port fr s
  | .regRead port off => Sys2Proof.Machine.execRegRead port off s
  | .regWrite port off v => Sys2Proof.Machine.execRegWrite port off v s
  | .telemetry => Sys2Proof.Machine.execTelemetry s
  | .smbStatusRead => Sys2Proof.Machine.execSmbStatusRead s
  | .smbTjRead => Sys2Proof.Machine.execSmbTjRead s
  | .smbPowerRead => Sys2Proof.Machine.execSmbPowerRead s
  | .smbFaultCauseRead => Sys2Proof.Machine.execSmbFaultCauseRead s
  | .alertResponse => Sys2Proof.Machine.execAlertResponse s
  | .smbusStuck clkLine recovered => Sys2Proof.Machine.execSmbusStuck clkLine recovered s
  | .smbusRecoveryRetry recovered => Sys2Proof.Machine.execSmbusRecoveryRetry recovered s
  | .smbTargetTimeout => Sys2Proof.Machine.execSmbTargetTimeout s
  | .ptbEnable a p v => Sys2Proof.Machine.execPtbEnable a p v s
  | .ptbClear a p v => Sys2Proof.Machine.execPtbClear a p v s
  | .ptbSeedWrite a p v => Sys2Proof.Machine.execPtbSeedWrite a p v s
  | .ptbInjWrite a p v => Sys2Proof.Machine.execPtbInjWrite a p v s
  | .ptbGenWrite a p v => Sys2Proof.Machine.execPtbGenWrite a p v s
  | .ptbSkewWrite a p v => Sys2Proof.Machine.execPtbSkewWrite a p v s
  | .ptbDelayedCompletion i1 => Sys2Proof.Machine.execPtbDelayedCompletion i1 s
  | .ptbCreditRelease i1 => Sys2Proof.Machine.execPtbCreditRelease i1 s
  | .holdover source => Sys2Proof.Machine.execHoldover source s
  | .frameCrcFail k why => Sys2Proof.Machine.execFrameCrcFail k why s
  | .frameSlot k => Sys2Proof.Machine.execFrameSlot k s
  | .flitSlot => Sys2Proof.Machine.execFlitSlot s
  | .vectorInstructionComplete b => Sys2Proof.Machine.execVectorInstructionComplete b s
  | .timedWaitDeadline b f => Sys2Proof.Machine.execTimedWaitDeadline b f s
  | .hbmTrainFailed k => Sys2Proof.Machine.execHbmTrainFailed k s
  | .powerOff => Sys2Proof.Machine.execPowerOff s
  | .smbusLinesHigh => Sys2Proof.Machine.execSmbusLinesHigh s

end Sys2Proof.Machine
end

