-- ==== Sys2Proof/Machine/Step.lean ====
section
/-!
DEFINITION. One step: the command at the front of the queue acts on the device with the rest of the queue; on an empty queue
one clk passes (log entry 7).
-/

namespace Sys2Proof.Machine

/-- One step (DESIGN CHOICE, log entry 7) (DEDUCED, log entry 88) (DESIGN CHOICE, log entry 89). -/
def step (s : State) : Host.Outcome State Fault Refusal :=
  match s.pending with
  | [] => .next s.tick
  | c :: rest => exec c { s with pending := rest }

/-- The state with the command that a word spells at the front of its queue; no word of the table spells one (DESIGN CHOICE, log entry 70). -/
def State.withFetchWord (s : State) (nbits w : Nat) : State :=
  match decodeTableWord nbits w with
  | some i => { s with pending := i :: s.pending }
  | none => s

end Sys2Proof.Machine
end

