-- ==== Sys2Proof/Safety.lean ====
section
/-!
DEFINITION. What counts as a safe run, and the terms that the claims use: canonical tables, a device on which nothing disturbs a
check, an instruction that issues, and what an instruction that retires leaves.
-/

namespace Sys2Proof.Machine

/-! ### Runs -/

/-- HBM is in canonical form: addresses rise and no listed byte is 0. -/
def State.hbmOk (s : State) : Prop := SMap.wf (fun _ => (0 : Byte)) s.hbm = true

/-- The register file is in canonical form: offsets rise and no listed register holds its reset value. -/
def State.regsOk (s : State) : Prop := SMap.wf regReset s.regs = true

/-- A step that neither faults nor is refused. -/
def State.stepsOn (s : State) : Prop := ∃ t, step s = .next t

/-- A run of `n` steps in which every step answers a next state. -/
def State.runsOn : Nat → State → Prop
  | 0, _ => True
  | n + 1, s => ∃ t, step s = .next t ∧ t.runsOn n

/-! ### An instruction that issues -/

/-- Nothing disturbs a check: no upset waits to be found, and PTB injects nothing (R535). -/
def State.quiet (s : State) : Prop := s.upsets = [] ∧ s.ptb.flag PTB_CTRL_EN = false

/-- The recorder neither records nor replays: the device has none, or its mode is OFF (R405). -/
def State.recorderOff (s : State) : Prop := s.flag DIM_UNITS_STEP_REPLAY = false ∨ s.fld RPL_CTRL_MODE = 0

/-- A set of block `b` issues its instruction: it can issue (R166, R177), the fetch succeeds and waits for no frame test (R182, R247),
nothing disturbs a check, and no re-execution is under way (R197). -/
def State.issues (s : State) (b : Nat) (f : Bool) : Prop :=
  s.canIssue b f = true ∧ (s.fetchWaits b f = false ∧ s.fetchFault b f = none) ∧ s.quiet ∧ (s.blk b).coreFails = 0

/-- The clk of an instruction at issue is counted, unless its stall has counted it (R185). -/
def State.clocked (s : State) (b : Nat) (f : Bool) : State := s.modSet b f fun x => { x with cycles := x.cycles + x.issueClk }

/-- An instruction retires: its clk and the instruction are counted, and the pc is `pc` (R166, R185, R199). -/
def State.retired (s : State) (b : Nat) (f : Bool) (pc : Word) : State :=
  (s.modSet b f fun x => { x with pc := pc, retired := x.retired + 1, wait := .none }).count (BLK_CORE_RETIRED_COUNT b) 1

/-- An instruction retires to the next pc with `v` written to scalar register `d`, and does nothing else. -/
def State.wrote (s : State) (b : Nat) (f : Bool) (d : Nat) (v : Word) : State :=
  ((s.clocked b f).setSreg b f d v).retired b f ((s.cset b f).pc + 8)

/-- An instruction raises a precise fault at issue: its code is reported with the pc and the word, and it does nothing else
(R186, R189). -/
def State.faulted (s : State) (b : Nat) (f : Bool) (w : Word) (code : Nat) : State :=
  (s.clocked b f).coreFault b f kindIssue code (s.cset b f).pc.toNat w.toNat

/-- An instruction that cannot go on is issued again: it waits as `k` says (R174, R199). -/
def State.held (s : State) (b : Nat) (f : Bool) (k : Wait) : State :=
  (s.clocked b f).modSet b f fun x => { x with wait := k }

/-- HBM reads the same in two states: every byte and every poison. -/
def State.sameHbm (s t : State) : Prop := (∀ a, t.hbmByte a = s.hbmByte a) ∧ ∀ a, t.hbmPoisoned a = s.hbmPoisoned a

/-- Block-local memory reads the same in two states, on every block. -/
def State.sameLocal (s t : State) : Prop :=
  ∀ b a, (t.bst b).byte a = (s.bst b).byte a ∧ (t.bst b).linePoisoned a = (s.bst b).linePoisoned a

/-- The vector engine's and the twine unit's registers read the same in two states, on every block. -/
def State.sameVector (s t : State) : Prop :=
  ∀ b, (t.bst b).vregs = (s.bst b).vregs ∧ (t.bst b).mregs = (s.bst b).mregs ∧ (t.bst b).vl = (s.bst b).vl ∧
    (t.bst b).vtype = (s.bst b).vtype ∧ (t.bst b).cfg = (s.bst b).cfg ∧ (t.bst b).banks = (s.bst b).banks

/-! ### Frames -/

/-- Two states of a register set differ at most in the pc, the scalar registers, the two counters and the wait. -/
def CoreSet.sameTask (x y : CoreSet) : Prop :=
  ({ x with pc := 0, s := [], cycles := 0, retired := 0, wait := .none } : CoreSet) =
    { y with pc := 0, s := [], cycles := 0, retired := 0, wait := .none }

/-- What no scalar instruction of block `b`'s set changes: every other set and every other block, the rest of its own block's core
and units, its tickets and USER registers, and all of the device but registers, bytes and cached translations. -/
def State.sameElsewhere (s t : State) (b : Nat) (f : Bool) : Prop :=
  (∀ b' f', b' ≠ b ∨ f' ≠ f → t.cset b' f' = s.cset b' f') ∧ (t.cset b f).sameTask (s.cset b f) ∧
    (∀ b', b' ≠ b → t.blk b' = s.blk b') ∧ ({ t.blk b with st := BlkState.reset } : Blk) = { s.blk b with st := BlkState.reset } ∧
    ({ t.bst b with main := CoreSet.reset, fill := CoreSet.reset, mem := [], poison := [] } : BlkState) =
      { s.bst b with main := CoreSet.reset, fill := CoreSet.reset, mem := [], poison := [] } ∧
    ({ t with blks := [], regs := [], hbm := [], hbmPoison := [], tlb := [] } : State) =
      { s with blks := [], regs := [], hbm := [], hbmPoison := [], tlb := [] }

/-- No register of the control aperture changes but the block's count of instructions. -/
def State.sameRegs (s t : State) (b : Nat) : Prop := ∀ o, o ≠ BLK_CORE_RETIRED b → t.reg o = s.reg o

/-! ### A register command that reaches its register -/

/-- A write reaches the register at an offset: the device is powered, the class comes on the path (R492), the operator has a session key
installed (R493), debug authority exists where it is used (R542), the range is served to a writer outside the device (R456), and the unit is
present (R3). -/
def State.reaches (s : State) (a : Auth) (p : Path) (off : Nat) : Prop :=
  s.powered = true ∧ (comesOn a p = true ∧ (a = .operator → s.lid.key.isSome = true)) ∧ (a = .debug → s.flag LID_AUTH_DEBUG_EN = true) ∧ (p = .internal ∨ p = .trigger ∨ s.served off = true) ∧
    s.unitAbsent off = false

/-! ### The units of a block -/

/-- An asynchronous instruction retires with its ticket BUSY under its unit, and `g` is done to its block (R173, R174). -/
def State.queued (s : State) (b : Nat) (f : Bool) (w : Word) (unit : Nat) (g : BlkState → BlkState) : State :=
  (((s.clocked b f).takeTicket b f (wTicket w) unit).modBst b g).retired b f ((s.cset b f).pc + 8)

/-- A vector or twine instruction issues, passes its checks and finds room in the vector queue. -/
def State.vecRoom (s : State) (b : Nat) (f : Bool) (w : Word) (check : Option Nat) : Prop :=
  s.issues b f ∧ check = none ∧ (s.bst b).vq.length < 8 ∧ (s.blk b).vregTest = false ∧
    (wTk w = true → s.ticketBusy b f (wTicket w) = false)

/-- It also has elements to work on. -/
def State.vecReady (s : State) (b : Nat) (f : Bool) (w : Word) (check : Option Nat) : Prop :=
  s.vecRoom b f w check ∧ (s.bst b).vl ≠ 0

/-- What a vector or twine instruction that works on registers alone may change, from its word and its block before it: which elements of
v[DST], of what width in bytes; which bits of the mask registers; which counter banks; and which flags of configuration item 4 it may
set. -/
structure VecDest where
  width : Word → Nat
  elem : Word → BlkState → Nat → Bool
  mask : Word → BlkState → Nat → Nat → Bool
  bank : Word → Nat → Bool
  flags : List Nat

/-- The active elements of v[DST] (R119). -/
def destElems (flags : List Nat) : VecDest :=
  ⟨fun w => typeBytes (wType w), fun w x i => x.active w i, fun _ _ _ _ => false, fun _ _ => false, flags⟩

/-- The first elements of v[DST], as many as `n` says. -/
def destFirst (width : Word → Nat) (n : Word → Nat → Nat) (flags : List Nat) : VecDest :=
  ⟨width, fun w x i => decide (i < n w x.vl), fun _ _ _ _ => false, fun _ _ => false, flags⟩

/-- The active bits of m[DST] (R119). -/
def destMask : VecDest :=
  ⟨fun _ => 1, fun _ _ _ => false, fun w x r i => r == wDst w && x.active w i, fun _ _ => false, []⟩

/-- Heads and remainders of the active elements: the halves of a split parameter register (R151). -/
def destSplit : VecDest :=
  ⟨fun _ => 2, fun w x i => x.active w (i % 1024), fun _ _ _ _ => false, fun _ _ => false, [0, 1, 4, 5]⟩

/-- The elements below vl, and with MFE the bits below vl of m[MF] (R149, R150). -/
def destNorm : VecDest :=
  ⟨fun w => typeBytes (wType w), fun _ x i => decide (i < x.vl),
    fun w x r i => w.getLsbD 18 && r == wBits w 17 15 && decide (i < x.vl), fun _ _ => false, [0, 1, 2, 3]⟩

/-- The counter banks that TW.CCLR names (R143). -/
def destBanks : VecDest := ⟨fun _ => 1, fun _ _ _ => false, fun _ _ _ _ => false, fun w k => w.getLsbD k, []⟩

/-- The vector and twine instructions that work on registers alone: each with the bits of [23:0] that its table uses, the element types
that it takes, its own issue check from its word and vl, whether it belongs to the twine unit, and what it may change (R127, R140, R147, R151,
R154, R544). -/
def vecForms : List ((Nat → Bool → Word → Instr) × Nat × List Nat × (Word → Nat → Option Nat) × Bool × VecDest) := [
  (Instr.vadd, bitMask 23 23, floatTypes, fun _ _ => none, false, destElems [0, 1]),
  (Instr.vsub, bitMask 23 23, floatTypes, fun _ _ => none, false, destElems [0, 1]),
  (Instr.vmul, bitMask 23 23, floatTypes, fun _ _ => none, false, destElems [0, 1]),
  (Instr.vdiv, bitMask 23 23, floatTypes, fun _ _ => none, false, destElems [0, 1]),
  (Instr.vmin, bitMask 23 23, floatTypes, fun _ _ => none, false, destElems [0, 1]),
  (Instr.vmax, bitMask 23 23, floatTypes, fun _ _ => none, false, destElems [0, 1]),
  (Instr.vabs, bitMask 23 23, floatTypes, fun _ _ => none, false, destElems []),
  (Instr.vneg, bitMask 23 23, floatTypes, fun _ _ => none, false, destElems []),
  (Instr.vfma, bitMask 23 23, floatTypes, fun _ _ => none, false, destElems [0, 1]),
  (Instr.vfms, bitMask 23 23, floatTypes, fun _ _ => none, false, destElems [0, 1]),
  (Instr.vfnma, bitMask 23 23, floatTypes, fun _ _ => none, false, destElems [0, 1]),
  (Instr.vexp, 0, floatTypes, fun _ _ => none, false, destElems [0, 1]),
  (Instr.vexp2, 0, floatTypes, fun _ _ => none, false, destElems [0, 1]),
  (Instr.vlog, 0, floatTypes, fun _ _ => none, false, destElems [0, 1]),
  (Instr.vlog2, 0, floatTypes, fun _ _ => none, false, destElems [0, 1]),
  (Instr.vrcp, 0, floatTypes, fun _ _ => none, false, destElems [0, 1]),
  (Instr.vsqrt, 0, floatTypes, fun _ _ => none, false, destElems [0, 1]),
  (Instr.vrsqrt, 0, floatTypes, fun _ _ => none, false, destElems [0, 1]),
  (Instr.vtanh, 0, floatTypes, fun _ _ => none, false, destElems [0, 1]),
  (Instr.vsigmoid, 0, floatTypes, fun _ _ => none, false, destElems [0, 1]),
  (Instr.verf, 0, floatTypes, fun _ _ => none, false, destElems [0, 1]),
  (Instr.vsin, 0, floatTypes, fun _ _ => none, false, destElems [0, 1]),
  (Instr.vcos, 0, floatTypes, fun _ _ => none, false, destElems [0, 1]),
  (Instr.viadd, bitMask 23 23, intTypes, fun _ _ => none, false, destElems []),
  (Instr.visub, bitMask 23 23, intTypes, fun _ _ => none, false, destElems []),
  (Instr.vimul, bitMask 23 23, intTypes, fun _ _ => none, false, destElems []),
  (Instr.vand, bitMask 23 23, intTypes, fun _ _ => none, false, destElems []),
  (Instr.vor, bitMask 23 23, intTypes, fun _ _ => none, false, destElems []),
  (Instr.vxor, bitMask 23 23, intTypes, fun _ _ => none, false, destElems []),
  (Instr.vsll, bitMask 23 23, intTypes, fun _ _ => none, false, destElems []),
  (Instr.vsrl, bitMask 23 23, intTypes, fun _ _ => none, false, destElems []),
  (Instr.vsra, bitMask 23 23, intTypes, fun _ _ => none, false, destElems []),
  (Instr.vcmpEq, bitMask 23 23, anyType, fun w _ => if wDst w < 8 then none else some VEC_FIELD_INVALID, false, destMask),
  (Instr.vcmpLt, bitMask 23 23, anyType, fun w _ => if wDst w < 8 then none else some VEC_FIELD_INVALID, false, destMask),
  (Instr.vcmpLe, bitMask 23 23, anyType, fun w _ => if wDst w < 8 then none else some VEC_FIELD_INVALID, false, destMask),
  (Instr.vcmpUn, bitMask 23 23, anyType, fun w _ => if wDst w < 8 then none else some VEC_FIELD_INVALID, false, destMask),
  (Instr.mand, bitMask 23 23, [], fun w _ => if wDst w < 8 ∧ wSa w < 8 ∧ wSb w < 8 then none else some VEC_FIELD_INVALID, false, destMask),
  (Instr.mor, bitMask 23 23, [], fun w _ => if wDst w < 8 ∧ wSa w < 8 ∧ wSb w < 8 then none else some VEC_FIELD_INVALID, false, destMask),
  (Instr.mxor, bitMask 23 23, [], fun w _ => if wDst w < 8 ∧ wSa w < 8 ∧ wSb w < 8 then none else some VEC_FIELD_INVALID, false, destMask),
  (Instr.mnot, bitMask 23 23, [], fun w _ => if wDst w < 8 ∧ wSa w < 8 then none else some VEC_FIELD_INVALID, false, destMask),
  (Instr.vcvt, bitMask 23 21, anyType, fun w vl => if wBits w 23 21 = 7 then some VEC_FORMAT_INVALID else if vlMax (wBits w 23 21) < vl then some VL_RANGE else none,
    false, destElems [0, 1]),
  (Instr.vslidedn, 0, anyType, fun _ _ => none, false, destElems []),
  (Instr.vslideup, 0, anyType, fun _ _ => none, false, destElems []),
  (Instr.vperm, 0, anyType, fun _ _ => none, false, destElems []),
  (Instr.vmvV, 0, anyType, fun _ _ => none, false, destElems []),
  (Instr.vmerge, 0, anyType, fun w _ => if wMen w then none else some VEC_FIELD_INVALID,
    false, destFirst (fun w => typeBytes (wType w)) (fun _ vl => vl) []),
  (Instr.vsmxStat, bitMask 23 19, [0, 2], fun w vl => smxCheck w vl,
    false, destFirst (fun _ => 16) (fun w vl => segCount vl (wBits w 22 19)) [0, 1]),
  (Instr.vsmxMerge, bitMask 23 22, [0, 2], fun w vl => if wBits w 23 22 = 3 ∨ 32 < vl then some VEC_FIELD_INVALID else none,
    false, destFirst (fun w => if wBits w 23 22 = 0 then 16 else 4) (fun _ vl => vl) [0, 1]),
  (Instr.vsmxWgt, bitMask 22 19, [0, 2], fun w vl => smxCheck w vl,
    false, destFirst (fun w => typeBytes (wType w)) (fun _ vl => vl) [0, 1]),
  (Instr.vsmxNorm, bitMask 22 15, [0, 2], fun w vl => smxCheck w vl, false, destNorm),
  (Instr.voptApply, 0, [0], fun _ _ => none, false, destSplit),
  (Instr.voptRd, 0, [2], fun _ _ => none, false, destElems []),
  (Instr.vrngU32, bitMask 22 18, [5], fun _ _ => none, false, destElems []),
  (Instr.vrngUnif, bitMask 22 18, [2], fun _ _ => none, false, destElems []),
  (Instr.vrngKeep, bitMask 22 18, [], fun w _ => if wDst w < 8 then none else some VEC_FIELD_INVALID, false, destMask),
  (Instr.twSum, bitMask 23 17, anyType, fun w vl => twineCheck w false false vl,
    true, destFirst (fun _ => 8) (fun w vl => segCount vl (wBits w 22 19)) [0, 1]),
  (Instr.twMax, bitMask 23 17, anyType, fun w vl => twineCheck w false false vl,
    true, destFirst (fun _ => 8) (fun w vl => segCount vl (wBits w 22 19)) []),
  (Instr.twMin, bitMask 23 17, anyType, fun w vl => twineCheck w false false vl,
    true, destFirst (fun _ => 8) (fun w vl => segCount vl (wBits w 22 19)) []),
  (Instr.twAmax, bitMask 23 17, anyType, fun w vl => twineCheck w false false vl,
    true, destFirst (fun _ => 8) (fun w vl => segCount vl (wBits w 22 19)) []),
  (Instr.twCountNonfinite, bitMask 23 17, anyType, fun w vl => twineCheck w false false vl,
    true, destFirst (fun _ => 8) (fun w vl => segCount vl (wBits w 22 19)) []),
  (Instr.twArgmax, bitMask 23 17, anyType, fun w vl => twineCheck w false true vl,
    true, destFirst (fun _ => 8) (fun w vl => 2 * segCount vl (wBits w 22 19)) []),
  (Instr.twCrd, bitMask 2 0, [], fun _ _ => none, true, destFirst (fun _ => 8) (fun _ _ => 5) []),
  (Instr.twCclr, bitMask 7 0, [], fun _ _ => none, true, destBanks)]

/-- It retires: `g` is done to its block, and its entry stands in the vector queue (R121, R123). -/
def State.vecDone (s : State) (b : Nat) (f : Bool) (w : Word) (twine : Bool) (g : BlkState → BlkState) : State :=
  (((s.clocked b f).modBst b g).pushVec b f w 0 twine).retired b f ((s.cset b f).pc + 8)

/-- The array of a block is between rands of a WEAVE whose next row can be fetched, has not failed, and comes before the boundary at which a
stop request holds the array (R63, R82). -/
def State.randReady (s : State) (b : Nat) (r : WeaveRun) : Prop :=
  s.quiet ∧ s.arrayRuns b = true ∧ (s.bst b).run = some r ∧ r.rowWait = false ∧ r.closed = false ∧ r.fails < s.arrLimit b ∧
    r.stale = false ∧ s.fetchLost b = false ∧ (s.blk b).rowTests = [] ∧ s.localPoisoned b (r.op.sigSpan r.next).1 (r.op.sigSpan r.next).2 = false ∧
    s.localPoisoned b (r.op.expSpan r.next).1 (r.op.expSpan r.next).2 = false

end Sys2Proof.Machine
end

