-- ==== Sys2Proof/WellFormed.lean ====
section
/-!
DEFINITION. Which commands are well formed: every number is one that its field, or the set of units, can hold, and the word of
a core instruction has its row's major and minor opcode.
-/

namespace Sys2Proof

open Sys2Proof.Machine (wMajor wMinor)

/-- An arbiter that some device has (R258). -/
def ArbId.ok : ArbId → Bool
  | .chip a => decide (a < 17)
  | .region r a => decide (r < 4) && decide (a < 4)
  | .block b a wr => decide (b < 128) && decide (a < 20) && (!wr || a == 16 || a == 17)
  | .cell b row _ => decide (b < 128) && decide (row < 16)

/-- A hop of a request: a requester index of an arbiter that some device has, and a length (R258, R259). -/
def Hop.ok (h : Hop) : Bool := h.arb.ok && decide (h.idx < 64) && decide (0 < h.len)

/-- A reader of HBM. -/
def Reader.ok : Reader → Bool
  | .fetch b _ | .core b _ _ | .stake b | .vector b | .issue b => decide (b < 128)
  | .plait slot => decide (slot < 4096)
  | .move _ | .context | .companion => true

/-- What a pattern test can find: columns and bank rows that a block has (R248). -/
def BlockFound.ok (x : BlockFound) : Bool :=
  decide (x.block < 128) && (x.columns.all fun c => decide (c < 130)) &&
    x.rows.all fun r => decide (r / 256 < 16) || (decide (r / 256 < 18) && decide (r % 256 < 128))

/-- What eight physical lanes of the Josil link receive: a training set of 64 bytes each, or nothing (R440). -/
def trainSetsOk (l : List (List Byte)) : Bool := decide (l.length = 8) && l.all fun x => x.isEmpty || x.length == 64

/-- A packet whose fields fit their widths (R350). -/
def Pkt.ok (p : Pkt) : Bool :=
  decide (p.ptype < 256) && decide (p.hops < 256) && decide (p.dst < 65536) && decide (p.src < 65536) && decide (p.tag < 2 ^ 31) &&
    decide (p.opid < 2 ^ 32) && decide (p.stamp < 2 ^ 64) && decide (p.offset < 2 ^ 32) && decide (p.aux < 2 ^ 32) && decide (p.data.length ≤ 256)

/-- A frame whose fields fit their widths (R319). -/
def Frame.ok (f : Frame) : Bool :=
  decide (f.seq < 2 ^ 24) && decide (f.ack < 2 ^ 24) && decide (f.map < 256) && decide (f.srcLink < 256) && decide (f.txTime < 2 ^ 64) &&
    f.pkts.all Pkt.ok

/-- The header of a CTRL frame whose ACK fits its width (R319). -/
def CtrlHdr.ok (h : CtrlHdr) : Bool := decide (h.ack < 2 ^ 24)

/-- A frame that is to be discarded: a CTYPE of R327 is no reason. -/
def BadFrame.ok : BadFrame → Bool
  | .ctype c hd => decide (c < 256) && !(decide (1 ≤ c) && decide (c ≤ 4)) && hd.ok
  | _ => true

/-- A HELLO whose fields fit their widths (R327). -/
def Hello.ok (h : Hello) : Bool :=
  decide (h.link < 256) && decide (h.digest < 2 ^ 256) && decide (h.echoDigest < 2 ^ 256) && decide (h.session < 2 ^ 32) &&
    decide (h.rxSession < 2 ^ 32) && decide (h.fwLevel < 65536)

/-- A Josil header whose fields fit their widths (R448). -/
def JHdr.ok (h : JHdr) : Bool :=
  decide (h.opc < 256) && decide (h.len < 2 ^ 13) && decide (h.tid < 65536) && decide (h.tag < 2 ^ 20) && decide (h.addr < 2 ^ 56) &&
    decide (h.status < 256)

/-- A flit is 256 bytes (R442). -/
def Flit.ok (f : Flit) : Bool := decide (f.bytes.length = 256)

/-- A frame whose addresses are ones of IPv6 (R519). -/
def NetFrame.ok : NetFrame → Bool
  | .arp t m | .neighbourSolicitation t m | .echo t m _ => decide (t < 2 ^ 128) && decide (m < 2 ^ 128)
  | .other => true

/-- A core instruction on a block of the device whose word has the opcode of the row. -/
def coreOk (b : Nat) (w : Word) (major minor : Nat) : Bool := decide (b < 128) && wMajor w == major && wMinor w == minor

/-- Is a command well formed? (DESIGN CHOICE, log entry 10). -/
def Instr.wf : Instr → Bool
  | .ftuEpochWrite a p _ => Machine.comesOn a p
  | .ptpMessage port seqId _ _ _ => decide (port < 2) && decide (seqId < 65536)
  | .holdoverLimit => true
  | .timeRelock => true
  | .triggerArm a p region i _ => Machine.comesOn a p && (region.all (decide <| · < 4)) && decide (i < 256)
  | .triggerFire region i => (region.all (decide <| · < 4)) && decide (i < 256)
  | .mapSwitch a p _ => Machine.comesOn a p
  | .mapSwitchDrained => true
  | .weave b _ w => coreOk b w 0x10 0x00
  | .weaveAccept b => decide (b < 128)
  | .weaverRowArrive b => decide (b < 128)
  | .randBoundary b => decide (b < 128)
  | .originReloadDone b => decide (b < 128)
  | .arrSelftestDone b _ => decide (b < 128)
  | .replayLimitReached b => decide (b < 128)
  | .spareFillDone b => decide (b < 128)
  | .stakeLd b _ w => coreOk b w 0x11 0x00
  | .stakeQueueStart b => decide (b < 128)
  | .stakeLdDone b => decide (b < 128)
  | .stakeInv b _ w => coreOk b w 0x11 0x01
  | .stakeStat b _ w => coreOk b w 0x11 0x02
  | .vsetvl b _ w => coreOk b w 0x18 0x00
  | .vmvS b _ w => coreOk b w 0x18 0x01
  | .vcfg b _ w => coreOk b w 0x18 0x02
  | .vcfgRd b _ w => coreOk b w 0x18 0x03
  | .mpop b _ w => coreOk b w 0x18 0x04
  | .vmvV b _ w => coreOk b w 0x18 0x05
  | .vadd b _ w => coreOk b w 0x19 0x00
  | .vsub b _ w => coreOk b w 0x19 0x01
  | .vmul b _ w => coreOk b w 0x19 0x02
  | .vdiv b _ w => coreOk b w 0x19 0x03
  | .vmin b _ w => coreOk b w 0x19 0x04
  | .vmax b _ w => coreOk b w 0x19 0x05
  | .vabs b _ w => coreOk b w 0x19 0x06
  | .vneg b _ w => coreOk b w 0x19 0x07
  | .vfma b _ w => coreOk b w 0x1A 0x00
  | .vfms b _ w => coreOk b w 0x1A 0x01
  | .vfnma b _ w => coreOk b w 0x1A 0x02
  | .vcmpEq b _ w => coreOk b w 0x1B 0x00
  | .vcmpLt b _ w => coreOk b w 0x1B 0x01
  | .vcmpLe b _ w => coreOk b w 0x1B 0x02
  | .vcmpUn b _ w => coreOk b w 0x1B 0x03
  | .mand b _ w => coreOk b w 0x1B 0x04
  | .mor b _ w => coreOk b w 0x1B 0x05
  | .mxor b _ w => coreOk b w 0x1B 0x06
  | .mnot b _ w => coreOk b w 0x1B 0x07
  | .viadd b _ w => coreOk b w 0x1C 0x00
  | .visub b _ w => coreOk b w 0x1C 0x01
  | .vimul b _ w => coreOk b w 0x1C 0x02
  | .vand b _ w => coreOk b w 0x1C 0x03
  | .vor b _ w => coreOk b w 0x1C 0x04
  | .vxor b _ w => coreOk b w 0x1C 0x05
  | .vsll b _ w => coreOk b w 0x1C 0x06
  | .vsrl b _ w => coreOk b w 0x1C 0x07
  | .vsra b _ w => coreOk b w 0x1C 0x08
  | .vcvt b _ w => coreOk b w 0x1D 0x00
  | .vexp b _ w => coreOk b w 0x1E 0x00
  | .vexp2 b _ w => coreOk b w 0x1E 0x01
  | .vlog b _ w => coreOk b w 0x1E 0x02
  | .vlog2 b _ w => coreOk b w 0x1E 0x03
  | .vrcp b _ w => coreOk b w 0x1E 0x04
  | .vsqrt b _ w => coreOk b w 0x1E 0x05
  | .vrsqrt b _ w => coreOk b w 0x1E 0x06
  | .vtanh b _ w => coreOk b w 0x1E 0x07
  | .vsigmoid b _ w => coreOk b w 0x1E 0x08
  | .verf b _ w => coreOk b w 0x1E 0x09
  | .vsin b _ w => coreOk b w 0x1E 0x0A
  | .vcos b _ w => coreOk b w 0x1E 0x0B
  | .vslidedn b _ w => coreOk b w 0x1F 0x00
  | .vslideup b _ w => coreOk b w 0x1F 0x01
  | .vperm b _ w => coreOk b w 0x1F 0x02
  | .vmerge b _ w => coreOk b w 0x1F 0x03
  | .vld b _ w => coreOk b w 0x20 0x00
  | .vst b _ w => coreOk b w 0x20 0x01
  | .vstSp b _ w => coreOk b w 0x21 0x00
  | .vrb b _ w => coreOk b w 0x21 0x01
  | .vldSp b _ w => coreOk b w 0x21 0x02
  | .vsmxStat b _ w => coreOk b w 0x22 0x00
  | .vsmxMerge b _ w => coreOk b w 0x22 0x01
  | .vsmxWgt b _ w => coreOk b w 0x22 0x02
  | .vsmxNorm b _ w => coreOk b w 0x22 0x03
  | .voptApply b _ w => coreOk b w 0x23 0x00
  | .voptRd b _ w => coreOk b w 0x23 0x01
  | .vrngU32 b _ w => coreOk b w 0x24 0x00
  | .vrngUnif b _ w => coreOk b w 0x24 0x01
  | .vrngKeep b _ w => coreOk b w 0x24 0x02
  | .twSum b _ w => coreOk b w 0x28 0x00
  | .twSumsq b _ w => coreOk b w 0x28 0x01
  | .twMax b _ w => coreOk b w 0x28 0x02
  | .twMin b _ w => coreOk b w 0x28 0x03
  | .twAmax b _ w => coreOk b w 0x28 0x04
  | .twArgmax b _ w => coreOk b w 0x28 0x05
  | .twCountNonfinite b _ w => coreOk b w 0x28 0x06
  | .twCrd b _ w => coreOk b w 0x29 0x00
  | .twCclr b _ w => coreOk b w 0x29 0x01
  | .vregSelftestDone b _ => decide (b < 128)
  | .add b _ w => coreOk b w 0x00 0x00
  | .sub b _ w => coreOk b w 0x00 0x01
  | .and b _ w => coreOk b w 0x00 0x02
  | .or b _ w => coreOk b w 0x00 0x03
  | .xor b _ w => coreOk b w 0x00 0x04
  | .sll b _ w => coreOk b w 0x00 0x05
  | .srl b _ w => coreOk b w 0x00 0x06
  | .sra b _ w => coreOk b w 0x00 0x07
  | .slt b _ w => coreOk b w 0x00 0x08
  | .sltu b _ w => coreOk b w 0x00 0x09
  | .mul b _ w => coreOk b w 0x00 0x0A
  | .mulh b _ w => coreOk b w 0x00 0x0B
  | .mulhu b _ w => coreOk b w 0x00 0x0C
  | .div b _ w => coreOk b w 0x00 0x0D
  | .divu b _ w => coreOk b w 0x00 0x0E
  | .rem b _ w => coreOk b w 0x00 0x0F
  | .remu b _ w => coreOk b w 0x00 0x10
  | .min b _ w => coreOk b w 0x00 0x11
  | .max b _ w => coreOk b w 0x00 0x12
  | .minu b _ w => coreOk b w 0x00 0x13
  | .maxu b _ w => coreOk b w 0x00 0x14
  | .clz b _ w => coreOk b w 0x00 0x15
  | .ctz b _ w => coreOk b w 0x00 0x16
  | .popc b _ w => coreOk b w 0x00 0x17
  | .addi b _ w => coreOk b w 0x01 0x00
  | .andi b _ w => coreOk b w 0x01 0x02
  | .ori b _ w => coreOk b w 0x01 0x03
  | .xori b _ w => coreOk b w 0x01 0x04
  | .slli b _ w => coreOk b w 0x01 0x05
  | .srli b _ w => coreOk b w 0x01 0x06
  | .srai b _ w => coreOk b w 0x01 0x07
  | .slti b _ w => coreOk b w 0x01 0x08
  | .sltiu b _ w => coreOk b w 0x01 0x09
  | .movi b _ w => coreOk b w 0x02 0x00
  | .movhi b _ w => coreOk b w 0x02 0x01
  | .fadd b _ w => coreOk b w 0x03 0x00
  | .fsub b _ w => coreOk b w 0x03 0x01
  | .fmul b _ w => coreOk b w 0x03 0x02
  | .fdiv b _ w => coreOk b w 0x03 0x03
  | .fsqrt b _ w => coreOk b w 0x03 0x04
  | .fmin b _ w => coreOk b w 0x03 0x05
  | .fmax b _ w => coreOk b w 0x03 0x06
  | .fma b _ w => coreOk b w 0x03 0x07
  | .fcmpEq b _ w => coreOk b w 0x03 0x08
  | .fcmpLt b _ w => coreOk b w 0x03 0x09
  | .fcmpLe b _ w => coreOk b w 0x03 0x0A
  | .fcvtI b _ w => coreOk b w 0x03 0x0B
  | .fcvtF b _ w => coreOk b w 0x03 0x0C
  | .fcvtP b _ w => coreOk b w 0x03 0x0D
  | .ldlB b _ w => coreOk b w 0x04 0x00
  | .ldlBu b _ w => coreOk b w 0x04 0x01
  | .ldlH b _ w => coreOk b w 0x04 0x02
  | .ldlHu b _ w => coreOk b w 0x04 0x03
  | .ldlW b _ w => coreOk b w 0x04 0x04
  | .ldlWu b _ w => coreOk b w 0x04 0x05
  | .ldlD b _ w => coreOk b w 0x04 0x06
  | .stlB b _ w => coreOk b w 0x04 0x08
  | .stlH b _ w => coreOk b w 0x04 0x09
  | .stlW b _ w => coreOk b w 0x04 0x0A
  | .stlD b _ w => coreOk b w 0x04 0x0B
  | .ldv b _ w => coreOk b w 0x05 0x00
  | .stv b _ w => coreOk b w 0x05 0x01
  | .amoadd b _ w => coreOk b w 0x05 0x02
  | .amoswap b _ w => coreOk b w 0x05 0x03
  | .amocas b _ w => coreOk b w 0x05 0x04
  | .beq b _ w => coreOk b w 0x08 0x00
  | .bne b _ w => coreOk b w 0x08 0x01
  | .blt b _ w => coreOk b w 0x08 0x02
  | .bge b _ w => coreOk b w 0x08 0x03
  | .bltu b _ w => coreOk b w 0x08 0x04
  | .bgeu b _ w => coreOk b w 0x08 0x05
  | .jal b _ w => coreOk b w 0x08 0x06
  | .jalr b _ w => coreOk b w 0x08 0x07
  | .wait b _ w => coreOk b w 0x34 0x00
  | .waitany b _ w => coreOk b w 0x34 0x01
  | .waitT b _ w => coreOk b w 0x34 0x02
  | .tkst b _ w => coreOk b w 0x34 0x03
  | .ftnow b _ w => coreOk b w 0x34 0x08
  | .ftwait b _ w => coreOk b w 0x34 0x09
  | .ftstat b _ w => coreOk b w 0x34 0x0A
  | .exit b _ w => coreOk b w 0x38 0x00
  | .fence b _ w => coreOk b w 0x38 0x01
  | .csrr b _ w => coreOk b w 0x38 0x02
  | .csrw b _ w => coreOk b w 0x38 0x03
  | .nop b _ w => coreOk b w 0x38 0x04
  | .brk b _ w => coreOk b w 0x38 0x05
  | .coreResume a p b _ => Machine.comesOn a p && decide (b < 128)
  | .coreSelftestDone b _ => decide (b < 128)
  | .coreReplayLimit b => decide (b < 128)
  | .move b _ w => coreOk b w 0x2C 0x00
  | .moveFill b _ w => coreOk b w 0x2C 0x01
  | .moveNc b _ w => coreOk b w 0x2C 0x02 || coreOk b w 0x2C 0x03
  | .plait b _ w => coreOk b w 0x30 0x00
  | .plaitFence b _ w => coreOk b w 0x30 0x01
  | .plaitHrel b _ w => coreOk b w 0x30 0x02
  | .illegalInstruction b f w => decide (b < 128) && (decodeCore? b f w).isNone
  | .moveBurst _ => true
  | .pageWalk tag _ req => decide (tag < 2 ^ 20) && req.who.ok
  | .hbmReread dpa fails req => decide (dpa < 2 ^ 39) && decide (fails < 4) && decide (req.tag < 2 ^ 20) && req.who.ok
  | .frameTestDone k _ _ => decide (k < 8)
  | .sramRowTestDone b _ => decide (b < 128)
  | .tlbiStart a p _ => Machine.comesOn a p
  | .tlbiDone => true
  | .dirtySwap a p _ => Machine.comesOn a p
  | .dirtyClear a p bank idx _ => Machine.comesOn a p && decide (bank < 2) && decide (idx < 3815)
  | .hbmIlvWrite a p _ => Machine.comesOn a p
  | .scrubStart a p _ => Machine.comesOn a p
  | .scrubDone => true
  | .arbDecision id new => id.ok && (new.all fun r => r.hops.all fun h => h.ok)
  | .burstLimitExpire id => id.ok
  | .quotaExhausted id req => id.ok && decide (req < 64)
  | .arbStatClear a p id _ => Machine.comesOn a p && id.ok
  | .makePart a p _ => Machine.comesOn a p
  | .freePart a p _ => Machine.comesOn a p
  | .admitCtx a p _ => Machine.comesOn a p
  | .release a p _ => Machine.comesOn a p
  | .bindQ a p _ => Machine.comesOn a p
  | .unbindQ a p _ => Machine.comesOn a p
  | .stopQ a p _ => Machine.comesOn a p
  | .startQ a p _ => Machine.comesOn a p
  | .doorbellWrite a p q _ => Machine.comesOn a p && decide (q < 32768)
  | .entryRead q => decide (q < 32768)
  | .taskStart q => decide (q < 32768)
  | .fillTaskStart q => decide (q < 32768)
  | .taskExit b _ => decide (b < 128)
  | .chooseIdle part => decide (part < 16)
  | .latencySwitchIn part => decide (part < 16)
  | .contextBlocked c => decide (c < 4096)
  | .debtExpire c => decide (c < 4096)
  | .blockStopped b => decide (b < 128)
  | .saveDone b ok code => decide (b < 128) && (ok || Machine.memoryFault code)
  | .blockScrubDone b => decide (b < 128)
  | .restoreDone b ok code => decide (b < 128) && (ok || Machine.memoryFault code)
  | .dataFrame k fr => decide (k < 36) && fr.ok
  | .idleFrame k fr => decide (k < 36) && fr.ok
  | .hello k m => decide (k < 36) && m.hd.ok && m.msg.ok
  | .beacon k hd hops _ epoch time =>
    decide (k < 36) && hd.ok && decide (hops < 16) && decide (epoch < 2 ^ 32) && decide (time.ns < 2 ^ 64) && decide (time.frac < 2 ^ 32)
  | .probe k hd t1 => decide (k < 36) && hd.ok && decide (t1 < 2 ^ 64)
  | .probeReply k hd times => decide (k < 36) && hd.ok && decide (times.t1 < 2 ^ 64) && decide (times.turn < 2 ^ 64)
  | .helloSend k => decide (k < 36)
  | .probeSend k => decide (k < 36)
  | .beaconSend k => decide (k < 36)
  | .ackTimeout k => decide (k < 36)
  | .errorRate k => decide (k < 36)
  | .alignmentLost k => decide (k < 36)
  | .linkLightDelay k => decide (k < 36)
  | .lightReceived k => decide (k < 36)
  | .lightLost k => decide (k < 36)
  | .linkOpen k => decide (k < 36)
  | .pcsLock k => decide (k < 36)
  | .lockTimeout k => decide (k < 36)
  | .helloTimeout k => decide (k < 36)
  | .probeTimeout k => decide (k < 36)
  | .halfTimeout k => decide (k < 36)
  | .holdExpire k => decide (k < 36)
  | .linkEnable a p k _ => Machine.comesOn a p && decide (k < 36)
  | .linkDisable a p k _ => Machine.comesOn a p && decide (k < 36)
  | .linkFence a p k _ => Machine.comesOn a p && decide (k < 36)
  | .linkUnfence a p k _ => Machine.comesOn a p && decide (k < 36)
  | .linkRetrain a p k _ => Machine.comesOn a p && decide (k < 36)
  | .wireWrite a p k _ => Machine.comesOn a p && decide (k < 36)
  | .peerOpenWrite a p k _ => Machine.comesOn a p && decide (k < 36)
  | .creditReturn k => decide (k < 36)
  | .plaitAccept b => decide (b < 128)
  | .writePacket k pk => decide (k < 37) && pk.ok
  | .resultPacket k pk => decide (k < 37) && pk.ok
  | .summaryPacket k pk => decide (k < 37) && pk.ok
  | .versionPacket k pk => decide (k < 37) && pk.ok
  | .creditPacket k pk => decide (k < 37) && pk.ok
  | .doorbellPacket k pk => decide (k < 37) && pk.ok
  | .earlyTimeout _ => true
  | .plaitWaitEnd slot => decide (slot < 4096)
  | .plaitSummaryTimeout slot => decide (slot < 4096)
  | .portMapWrite a p m port _ => Machine.comesOn a p && decide (m < 4) && decide (port < 12)
  | .rtDataWrite a p _ => Machine.comesOn a p
  | .coilEnable a p e _ => Machine.comesOn a p && decide (e < 16)
  | .coilOpen a p e _ => Machine.comesOn a p && decide (e < 16)
  | .coilCommit a p e _ => Machine.comesOn a p && decide (e < 16)
  | .coilDiscard a p e _ => Machine.comesOn a p && decide (e < 16)
  | .coilRestore a p e _ => Machine.comesOn a p && decide (e < 16)
  | .coilPark a p e _ => Machine.comesOn a p && decide (e < 16)
  | .coilDissolve a p e _ => Machine.comesOn a p && decide (e < 16)
  | .coilPage k pk => decide (k < 37) && pk.ok
  | .coilDelta k pk => decide (k < 37) && pk.ok
  | .coilAck k pk => decide (k < 37) && pk.ok
  | .coilReady k pk => decide (k < 37) && pk.ok
  | .coilEnd k pk => decide (k < 37) && pk.ok
  | .coilRestoreReq k pk => decide (k < 37) && pk.ok
  | .coilRestorePage k pk => decide (k < 37) && pk.ok
  | .rplModeWrite a p _ => Machine.comesOn a p
  | .wdNoRetire b => decide (b < 128)
  | .wdSchedHeartbeat r => decide (r < 4)
  | .wdPlaitOverrun => true
  | .wdCompanionLost => true
  | .wdLid => true
  | .heartbeatWrite a p _ => Machine.comesOn a p
  | .blockHung b => decide (b < 128)
  | .fullResetNeeded part => decide (part < 16)
  | .partReset a p part => Machine.comesOn a p && decide (part < 256)
  | .partResetDone part found => decide (part < 16) && found.all BlockFound.ok
  | .drainEnd c => decide (c < 4096)
  | .fullReset => true
  | .peerReset port addr kind part step => decide (port < 2) && decide (addr < 65536) && decide (kind < 256) && decide (part < 256) && decide (step < 2 ^ 64)
  | .fencePeer port addr digest => decide (port < 2) && decide (addr < 65536) && decide (digest < 2 ^ 256)
  | .readmitPeer port addr digest => decide (port < 2) && decide (addr < 65536) && decide (digest < 2 ^ 256)
  | .fenceSelf port => decide (port < 2)
  | .readmitSelf port => decide (port < 2)
  | .peerFenceWrite a p _ => Machine.comesOn a p
  | .rtsStart a p => Machine.comesOn a p
  | .rtsResult _ found hbm => found.all BlockFound.ok && (hbm.frames.all fun f => decide (f.1 < 8) && decide (f.2 < 2 ^ 23)) &&
    hbm.channels.all fun c => decide (c.1 < 8)
  | .alive => true
  | .jslDetectEnd signal => decide (signal < 65536)
  | .jslEqualiseDone => true
  | .jslAlignDone low high _ _ _ => trainSetsOk low && trainSetsOk high
  | .flitReceive fl => fl.ok
  | .flitAckTimeout => true
  | .jslLaneFecLoss lane => decide (lane < 16)
  | .jslRetrainWrite a p _ => Machine.comesOn a p
  | .jslRetrainDone low high => trainSetsOk low && trainSetsOk high
  | .rdNc h => h.ok
  | .wrNc h data => h.ok && decide (data.length = h.len)
  | .snpInv h => h.ok
  | .snpData h => h.ok
  | .cmp h => h.ok
  | .cmpData h data => h.ok && decide (data.length = h.len)
  | .grantS h data => h.ok && decide (data.length = h.len)
  | .grantE h data => h.ok && decide (data.length = h.len)
  | .jslTimeout tid => decide (tid < 65536)
  | .flush a p _ => Machine.comesOn a p
  | .flushDone => true
  | .upsettStart => true
  | .powerGood _ _ => true
  | .upsettStepEnd step found => decide (1 ≤ step) && decide (step ≤ 7) && found.all BlockFound.ok
  | .step6Limit => true
  | .loadImage _ _ => true
  | .loadRepair _ _ => true
  | .attest _ _ => true
  | .epochTreeDone _ => true
  | .installKey a p _ => Machine.comesOn a p
  | .attestReq port nonce part => decide (port < 2) && decide (nonce < 2 ^ 256) && decide (part < 256)
  | .debugEnable port => decide (port < 2)
  | .raiseFloor port => decide (port < 2)
  | .debugWrite port off _ => decide (port < 2) && decide (off < 2 ^ 32)
  | .debugPortAccess _ off _ => decide (off < 2 ^ 26) && off % 8 == 0
  | .echo body => decide (body.length = 24)
  | .registerWrite a p off _ => Machine.comesOn a p && decide (off < 2 ^ 26) && off % 8 == 0
  | .railOrderFault rail => decide (rail < 9)
  | .underVoltage rail => decide (rail < 9)
  | .refclkLoss _ => true
  | .refclkBothLost => true
  | .refclkRecover _ => true
  | .clockSelect a p _ => Machine.comesOn a p
  | .thermalSample temps => decide (temps.length = 64)
  | .thermalStopRelease => true
  | .diodeSample _ _ => true
  | .powerWindowEnd _ => true
  | .regulatorPoll i _ _ _ _ => decide (i < 9)
  | .throtReqAssert => true
  | .throtReqDeassert => true
  | .mgmtPortDown port => decide (port < 2)
  | .mgmtPortUp port _ => decide (port < 2)
  | .mgmtDatagram port d => decide (port < 2) && decide (d.bytes.length ≤ 1444) && decide (d.dest < 2 ^ 128) && decide (d.udpPort < 65536)
  | .mgmtNetworkFrame port f => decide (port < 2) && f.ok
  | .regRead port off => decide (port < 2) && decide (off < 2 ^ 32)
  | .regWrite port off _ => decide (port < 2) && decide (off < 2 ^ 32)
  | .telemetry => true
  | .smbStatusRead => true
  | .smbTjRead => true
  | .smbPowerRead => true
  | .smbFaultCauseRead => true
  | .alertResponse => true
  | .smbusStuck _ _ => true
  | .smbusRecoveryRetry _ => true
  | .smbTargetTimeout => true
  | .ptbEnable a p _ => Machine.comesOn a p
  | .ptbClear a p _ => Machine.comesOn a p
  | .ptbSeedWrite a p _ => Machine.comesOn a p
  | .ptbInjWrite a p _ => Machine.comesOn a p
  | .ptbGenWrite a p _ => Machine.comesOn a p
  | .ptbSkewWrite a p _ => Machine.comesOn a p
  | .ptbDelayedCompletion _ => true
  | .ptbCreditRelease _ => true
  | .holdover source => decide (source < 38)
  | .frameCrcFail k why => decide (k < 36) && why.ok
  | .frameSlot k => decide (k < 36)
  | .flitSlot => true
  | .vectorInstructionComplete b => decide (b < 128)
  | .timedWaitDeadline b _ => decide (b < 128)
  | .hbmTrainFailed k => decide (k < 8)
  | .powerOff => true
  | .smbusLinesHigh => true

end Sys2Proof
end

