-- ==== Sys2Proof/Certificates/Slice0/Obligations.lean ====
section
/-!
DEFINITION. The statements for the provers.
-/

open Sys2Proof Sys2Proof.Machine


/-- R167: every integer instruction on two registers retires with its result, modulo 2^64, in s[DST]; shifts use the low 6 bits of the amount,
and division never faults. A write to s0 is discarded (R163: `wrote`). R167: the counts of leading, trailing and one bits retire with a
number of bits that is characterised by the operand: 64 for an operand of 0. R163, R167: every integer instruction on a register and an
immediate, MOVI and MOVHI retire with their result in s[DST]. -/
def Obligations.IntegerArithmetic : Prop :=
  (∀ p ∈ ([
        (Instr.add, fun x y => x + y),
        (Instr.sub, fun x y => x - y),
        (Instr.and, fun x y => x &&& y),
        (Instr.or, fun x y => x ||| y),
        (Instr.xor, fun x y => x ^^^ y),
        (Instr.sll, fun x y => x <<< (y.toNat % 64)),
        (Instr.srl, fun x y => x >>> (y.toNat % 64)),
        (Instr.sra, fun x y => x.sshiftRight (y.toNat % 64)),
        (Instr.slt, fun x y => if x.slt y then 1 else 0),
        (Instr.sltu, fun x y => if x.ult y then 1 else 0),
        (Instr.mul, fun x y => x * y),
        (Instr.mulh, fun x y => BitVec.ofInt 64 (x.toInt * y.toInt / 2 ^ 64)),
        (Instr.mulhu, fun x y => BitVec.ofNat 64 (x.toNat * y.toNat / 2 ^ 64)),
        (Instr.div, fun x y => if y = 0 then BitVec.allOnes 64 else BitVec.ofInt 64 (x.toInt.tdiv y.toInt)),
        (Instr.divu, fun x y => if y = 0 then BitVec.allOnes 64 else BitVec.ofNat 64 (x.toNat / y.toNat)),
        (Instr.rem, fun x y => if y = 0 then x else BitVec.ofInt 64 (x.toInt.tmod y.toInt)),
        (Instr.remu, fun x y => if y = 0 then x else BitVec.ofNat 64 (x.toNat % y.toNat)),
        (Instr.min, fun x y => if x.slt y then x else y),
        (Instr.max, fun x y => if x.slt y then y else x),
        (Instr.minu, fun x y => if x.ult y then x else y),
        (Instr.maxu, fun x y => if x.ult y then y else x)] : List ((Nat → Bool → Word → Instr) × (Word → Word → Word))),
      ∀ (b : Nat) (f : Bool) (w : Word) (s : State), s.issues b f → wImm w = 0 →
        exec (p.1 b f w) s = .next (s.wrote b f (wDst w) (p.2 (s.sreg b f (wSa w)) (s.sreg b f (wSb w))))) ∧
  (∀ (b : Nat) (f : Bool) (w : Word) (s : State), s.issues b f → wImm w = 0 → wSb w = 0 →
      (∃ n, n ≤ 64 ∧ exec (.clz b f w) s = .next (s.wrote b f (wDst w) (BitVec.ofNat 64 n)) ∧
        (∀ i, 64 - n ≤ i → (s.sreg b f (wSa w)).getLsbD i = false) ∧
        (n < 64 → (s.sreg b f (wSa w)).getLsbD (63 - n) = true)) ∧
      (∃ n, n ≤ 64 ∧ exec (.ctz b f w) s = .next (s.wrote b f (wDst w) (BitVec.ofNat 64 n)) ∧
        (∀ i, i < n → (s.sreg b f (wSa w)).getLsbD i = false) ∧
        (n < 64 → (s.sreg b f (wSa w)).getLsbD n = true)) ∧
      exec (.popc b f w) s = .next (s.wrote b f (wDst w)
        (BitVec.ofNat 64 ((List.range 64).filter fun i => (s.sreg b f (wSa w)).getLsbD i).length))) ∧
  ((∀ p ∈ ([
        (Instr.addi, fun x y => x + y),
        (Instr.andi, fun x y => x &&& y),
        (Instr.ori, fun x y => x ||| y),
        (Instr.xori, fun x y => x ^^^ y),
        (Instr.slli, fun x y => x <<< (y.toNat % 64)),
        (Instr.srli, fun x y => x >>> (y.toNat % 64)),
        (Instr.srai, fun x y => x.sshiftRight (y.toNat % 64)),
        (Instr.slti, fun x y => if x.slt y then 1 else 0),
        (Instr.sltiu, fun x y => if x.ult y then 1 else 0)] : List ((Nat → Bool → Word → Instr) × (Word → Word → Word))),
      ∀ (b : Nat) (f : Bool) (w : Word) (s : State), s.issues b f → wSb w = 0 →
        exec (p.1 b f w) s =
          .next (s.wrote b f (wDst w) (p.2 (s.sreg b f (wSa w)) (BitVec.ofInt 64 (signed 37 w.toNat))))) ∧
    (∀ (b : Nat) (f : Bool) (w : Word) (s : State), s.issues b f → wSa w = 0 → wSb w = 0 →
      exec (.movi b f w) s = .next (s.wrote b f (wDst w) (BitVec.ofInt 64 (signed 37 w.toNat)))) ∧
    (∀ (b : Nat) (f : Bool) (w : Word) (s : State), s.issues b f → wSb w = 0 → wBits w 36 27 = 0 →
      exec (.movhi b f w) s = .next (s.wrote b f (wDst w)
        (BitVec.ofNat 64 (wBits w 26 0 * 2 ^ 37 + (s.sreg b f (wSa w)).toNat % 2 ^ 37)))))

/-- From R168: every scalar floating-point instruction retires with its result in s[DST]: binary64 where P is 1, else binary32 from the low 32
bits with bits [63:32] of the result 0. Each operation is one rounding of the exact value. -/
def Obligations.ScalarFloatingPoint : Prop :=
  (∀ p ∈ ([
      (Instr.fadd, fun k x y _ => k.encode ((k.decode x).add (k.decode y))),
      (Instr.fsub, fun k x y _ => k.encode ((k.decode x).add (k.decode y).neg)),
      (Instr.fmul, fun k x y _ => k.encode ((k.decode x).mul (k.decode y))),
      (Instr.fdiv, fun k x y _ => k.div (k.decode x) (k.decode y)),
      (Instr.fsqrt, fun k x _ _ => k.sqrt (k.decode x)),
      (Instr.fmin, fun k x y _ => k.encode ((k.decode x).minimum (k.decode y))),
      (Instr.fmax, fun k x y _ => k.encode ((k.decode x).maximum (k.decode y))),
      (Instr.fma, fun k x y z => k.encode ((k.decode x).fma (k.decode y) (k.decode z))),
      (Instr.fcmpEq, fun k x y _ => b2n ((k.decode x).eq (k.decode y))),
      (Instr.fcmpLt, fun k x y _ => b2n ((k.decode x).lt (k.decode y))),
      (Instr.fcmpLe, fun k x y _ => b2n ((k.decode x).lt (k.decode y) || (k.decode x).eq (k.decode y))),
      (Instr.fcvtI, fun k x _ _ => (k.decode x).toInt 64)] :
        List ((Nat → Bool → Word → Instr) × (Fmt → Nat → Nat → Nat → Nat))),
    ∀ (b : Nat) (f : Bool) (w : Word) (s : State), s.issues b f → wBits w 36 1 = 0 →
      exec (p.1 b f w) s =
        let k := if w.getLsbD 0 then f64 else f32
        let v := fun r => (s.sreg b f r).toNat % 2 ^ k.width
        .next (s.wrote b f (wDst w) (BitVec.ofNat 64 (p.2 k (v (wSa w)) (v (wSb w)) (v (wDst w)))))) ∧
  (∀ (b : Nat) (f : Bool) (w : Word) (s : State), s.issues b f → wBits w 36 1 = 0 →
    exec (.fcvtF b f w) s = .next (s.wrote b f (wDst w) (BitVec.ofNat 64
      ((if w.getLsbD 0 then f64 else f32).encode (FVal.ofInt 64 (s.sreg b f (wSa w)).toNat)))) ∧
    exec (.fcvtP b f w) s = .next (s.wrote b f (wDst w) (BitVec.ofNat 64
      (if w.getLsbD 0 then f64.encode (f32.decode ((s.sreg b f (wSa w)).toNat % 2 ^ 32))
       else f32.encode (f64.decode (s.sreg b f (wSa w)).toNat)))))

/-- R163: s0 reads 0 and a write to it is discarded. In the scalar, sync and system classes a field that the chapter marks RSV must be 0: with
one that is not, the instruction raises CORE_FIELD_INVALID precisely, and does nothing else. sext(imm) is bits [36:0] sign-extended. Each
reserved field stands with the instructions that have it. -/
def Obligations.ReservedFieldsFault : Prop :=
  (∀ (b : Nat) (f : Bool) (v : Word) (s : State), s.sreg b f 0 = 0 ∧ ∀ b' f', (s.setSreg b f 0 v).cset b' f' = s.cset b' f') ∧
  (∀ (w : Word), wSimm w = BitVec.signExtend 64 (w.setWidth 37)) ∧
  ∀ (b : Nat) (f : Bool) (w : Word) (s : State), s.issues b f →
    (wImm w ≠ 0 → ∀ c ∈ ([Instr.add, .sub, .and, .or, .xor, .sll, .srl, .sra, .slt, .sltu, .mul, .mulh, .mulhu, .div, .divu, .rem,
        .remu, .min, .max, .minu, .maxu, .clz, .ctz, .popc, .ftnow, .ftwait, .ftstat, .exit, .fence, .nop, .brk] :
          List (Nat → Bool → Word → Instr)), exec (c b f w) s = .next (s.faulted b f w CORE_FIELD_INVALID)) ∧
    (wSb w ≠ 0 → ∀ c ∈ ([Instr.clz, .ctz, .popc, .addi, .andi, .ori, .xori, .slli, .srli, .srai, .slti, .sltiu, .movi, .movhi, .wait,
        .waitany, .tkst, .ftnow, .ftwait, .ftstat, .exit, .fence, .csrr, .csrw, .nop, .brk] :
          List (Nat → Bool → Word → Instr)), exec (c b f w) s = .next (s.faulted b f w CORE_FIELD_INVALID)) ∧
    (wSa w ≠ 0 → ∀ c ∈ ([Instr.movi, .tkst, .ftnow, .ftstat, .fence, .csrr, .nop, .brk] : List (Nat → Bool → Word → Instr)),
        exec (c b f w) s = .next (s.faulted b f w CORE_FIELD_INVALID)) ∧
    (wDst w ≠ 0 → ∀ c ∈ ([Instr.stlB, .stlH, .stlW, .stlD, .beq, .bne, .blt, .bge, .bltu, .bgeu, .wait, .exit, .fence, .csrw, .nop,
        .brk] : List (Nat → Bool → Word → Instr)), exec (c b f w) s = .next (s.faulted b f w CORE_FIELD_INVALID)) ∧
    (wBits w 36 1 ≠ 0 → ∀ c ∈ ([Instr.fadd, .fsub, .fmul, .fdiv, .fsqrt, .fmin, .fmax, .fma, .fcmpEq, .fcmpLt, .fcmpLe, .fcvtI, .fcvtF,
        .fcvtP] : List (Nat → Bool → Word → Instr)), exec (c b f w) s = .next (s.faulted b f w CORE_FIELD_INVALID)) ∧
    (wBits w 36 27 ≠ 0 → exec (.movhi b f w) s = .next (s.faulted b f w CORE_FIELD_INVALID)) ∧
    (wBits w 36 33 ≠ 0 → ∀ c ∈ ([Instr.wait, .waitany, .waitT] : List (Nat → Bool → Word → Instr)),
      exec (c b f w) s = .next (s.faulted b f w CORE_FIELD_INVALID)) ∧
    (wBits w 36 5 ≠ 0 → exec (.tkst b f w) s = .next (s.faulted b f w CORE_FIELD_INVALID)) ∧
    (wBits w 36 8 ≠ 0 → ∀ c ∈ ([Instr.csrr, .csrw] : List (Nat → Bool → Word → Instr)),
      exec (c b f w) s = .next (s.faulted b f w CORE_FIELD_INVALID))

/-- From R172: a branch or jump whose target is not a multiple of 8 raises PC_ALIGN at the branch or jump itself and writes no register; any
other goes to its target, a branch that is not taken to the next instruction, and JAL and JALR write the address that follows them. What
log entry 28 says in it is the model's choice. -/
def Obligations.BranchesAndJumps : Prop :=
  (∀ p ∈ ([
      (Instr.beq, fun x y => decide (x = y)),
      (Instr.bne, fun x y => decide (x ≠ y)),
      (Instr.blt, fun x y => x.slt y),
      (Instr.bge, fun x y => !x.slt y),
      (Instr.bltu, fun x y => x.ult y),
      (Instr.bgeu, fun x y => !x.ult y)] : List ((Nat → Bool → Word → Instr) × (Word → Word → Bool))),
    ∀ (b : Nat) (f : Bool) (w : Word) (s : State), s.issues b f → wDst w = 0 →
      exec (p.1 b f w) s =
        let target := (s.cset b f).pc + 8 * BitVec.ofInt 64 (signed 37 w.toNat)
        if p.2 (s.sreg b f (wSa w)) (s.sreg b f (wSb w)) then
          if target.toNat % 8 = 0 then .next ((s.clocked b f).retired b f target)
          else .next (s.faulted b f w PC_ALIGN)
        else .next ((s.clocked b f).retired b f ((s.cset b f).pc + 8))) ∧
  (∀ p ∈ ([
      (Instr.jal, fun s b f w => (s.cset b f).pc + 8 * BitVec.ofInt 64 (signed 37 w.toNat)),
      (Instr.jalr, fun s b f w => s.sreg b f (wSa w) + BitVec.ofInt 64 (signed 37 w.toNat))] :
        List ((Nat → Bool → Word → Instr) × (State → Nat → Bool → Word → Word))),
    ∀ (b : Nat) (f : Bool) (w : Word) (s : State), s.issues b f →
      exec (p.1 b f w) s =
        if (p.2 s b f w).toNat % 8 = 0 then
          .next (((s.clocked b f).setSreg b f (wDst w) ((s.cset b f).pc + 8)).retired b f (p.2 s b f w))
        else .next (s.faulted b f w PC_ALIGN))

/-- R164, R169: a load of n bytes from an aligned address whose bytes lie in the block-local spaces and are not poisoned retires with the
bytes there, zero-extended or sign-extended, in s[DST]. Each constructor stands with its width and whether it extends the sign. R164,
R169: a store of n bytes to an aligned address whose bytes lie in the block-local spaces writes the low bytes of s[SB] there, least
significant first, changes no other byte of any block, and retires. R169: a block-local access to an address that is no multiple of its
width raises LOCAL_ADDR_ALIGN, an aligned one any of whose bytes lies outside the spaces of R164 raises LOCAL_ADDR_RANGE, and neither has
any other effect. -/
def Obligations.LocalAccesses : Prop :=
  (∀ p ∈ ([(Instr.ldlB, 1, true), (Instr.ldlBu, 1, false), (Instr.ldlH, 2, true), (Instr.ldlHu, 2, false), (Instr.ldlW, 4, true),
        (Instr.ldlWu, 4, false), (Instr.ldlD, 8, false)] : List ((Nat → Bool → Word → Instr) × Nat × Bool)),
      ∀ (b : Nat) (f : Bool) (w : Word) (s : State), s.issues b f →
        let a := (s.sreg b f (wSa w) + BitVec.ofInt 64 (signed 37 w.toNat)).toNat
        let v := leNat ((List.range p.2.1).map fun i => (s.bst b).byte (a + i))
        a % p.2.1 = 0 → (a + p.2.1 ≤ 0x440000 ∨ 0x500000 ≤ a ∧ a + p.2.1 ≤ 0x510000) → s.localPoisoned b a p.2.1 = false →
        exec (p.1 b f w) s =
          .next (s.wrote b f (wDst w) (if p.2.2 then BitVec.ofInt 64 (signed (8 * p.2.1) v) else BitVec.ofNat 64 v))) ∧
  (∀ p ∈ ([(Instr.stlB, 1), (Instr.stlH, 2), (Instr.stlW, 4), (Instr.stlD, 8)] : List ((Nat → Bool → Word → Instr) × Nat)),
      ∀ (b : Nat) (f : Bool) (w : Word) (s : State), s.issues b f → wDst w = 0 →
        let a := (s.sreg b f (wSa w) + BitVec.ofInt 64 (signed 37 w.toNat)).toNat
        a % p.2 = 0 → (a + p.2 ≤ 0x440000 ∨ 0x500000 ≤ a ∧ a + p.2 ≤ 0x510000) →
        ∃ t, exec (p.1 b f w) s = .next t ∧
          (∀ i, i < p.2 → (t.bst b).byte (a + i) = BitVec.ofNat 8 ((s.sreg b f (wSb w)).toNat / 2 ^ (8 * i))) ∧
          (∀ b' x, b' ≠ b ∨ x < a ∨ a + p.2 ≤ x → (t.bst b').byte x = (s.bst b').byte x) ∧
          (t.cset b f).pc = (s.cset b f).pc + 8 ∧ (∀ n, t.sreg b f n = s.sreg b f n) ∧ s.sameHbm t ∧ s.sameElsewhere t b f ∧ s.sameRegs t b) ∧
  (∀ p ∈ ([(Instr.ldlB, 1), (Instr.ldlBu, 1), (Instr.ldlH, 2), (Instr.ldlHu, 2), (Instr.ldlW, 4), (Instr.ldlWu, 4), (Instr.ldlD, 8),
        (Instr.stlB, 1), (Instr.stlH, 2), (Instr.stlW, 4), (Instr.stlD, 8)] : List ((Nat → Bool → Word → Instr) × Nat)),
      ∀ (b : Nat) (f : Bool) (w : Word) (s : State), s.issues b f →
        (p.1 b f w = .stlB b f w ∨ p.1 b f w = .stlH b f w ∨ p.1 b f w = .stlW b f w ∨ p.1 b f w = .stlD b f w → wDst w = 0) →
        let a := (s.sreg b f (wSa w) + BitVec.ofInt 64 (signed 37 w.toNat)).toNat
        (a % p.2 ≠ 0 → exec (p.1 b f w) s = .next (s.faulted b f w LOCAL_ADDR_ALIGN)) ∧
        (a % p.2 = 0 → ¬ (a + p.2 ≤ 0x440000 ∨ 0x500000 ≤ a ∧ a + p.2 ≤ 0x510000) →
          exec (p.1 b f w) s = .next (s.faulted b f w LOCAL_ADDR_RANGE)))

/-- From R170, R232, R233: a virtual load or store of 8 bytes at an aligned address that the context's tables map to HBM at `pa` reads or
writes the bytes there and no others, and retires, where no frame under test and no page of a snapshot holds the access up (R247, R392);
at an address that is not aligned it raises LOCAL_ADDR_ALIGN. From R170: an AMO at an aligned address that the context's tables map to HBM
at `pa` for reading and writing gives the old 8 bytes to s[DST] and stores their sum with s[SB], s[SB], or s[SB] where the old value
equals s[DST], and changes no other byte, where no frame under test and no page of a snapshot holds the access up (R247, R392). -/
def Obligations.VirtualAccesses : Prop :=
  (∀ (b c pa : Nat) (f : Bool) (w : Word) (s : State), s.issues b f → (s.blk b).ctx = some c →
      let a := (s.sreg b f (wSa w) + BitVec.ofInt 64 (signed 37 w.toNat)).toNat
      let regs := fun t : State => ∀ o, o ≠ BLK_CORE_RETIRED b → o < 0x2090000 ∨ 0x20A0000 ≤ o → t.reg o = s.reg o
      (a % 8 ≠ 0 → exec (.ldv b f w) s = .next (s.faulted b f w LOCAL_ADDR_ALIGN) ∧
        exec (.stv b f w) s = .next (s.faulted b f w LOCAL_ADDR_ALIGN)) ∧
      (a % 8 = 0 → s.walkWaits c a = false →
        (s.translate c a .read = .ok (0, pa) → s.frameBusy pa = false → s.hbmPoisonedRange pa 8 = false →
          ∃ t, exec (.ldv b f w) s = .next t ∧ s.sameHbm t ∧ s.sameLocal t ∧ s.sameElsewhere t b f ∧ s.sameRegs t b ∧ (t.cset b f).pc = (s.cset b f).pc + 8 ∧
            (∀ n, t.sreg b f n =
              if n = wDst w ∧ n ≠ 0 then BitVec.ofNat 64 (leNat ((List.range 8).map fun i => s.hbmByte (pa + i)))
              else s.sreg b f n)) ∧
        (s.translate c a .write = .ok (0, pa) → s.writeHeld pa 8 = false →
          ∃ t, exec (.stv b f w) s = .next t ∧ s.sameLocal t ∧ s.sameElsewhere t b f ∧ regs t ∧ (t.cset b f).pc = (s.cset b f).pc + 8 ∧
            (∀ n, t.sreg b f n = s.sreg b f n) ∧
            (∀ k, t.hbmByte k =
              if pa ≤ k ∧ k < pa + 8 then BitVec.ofNat 8 ((s.sreg b f (wSb w)).toNat / 2 ^ (8 * (k - pa))) else s.hbmByte k)))) ∧
  (∀ p ∈ ([(Instr.amoadd, fun old src _ => old + src), (Instr.amoswap, fun _ src _ => src),
        (Instr.amocas, fun old src dst => if old = dst then src else old)] :
          List ((Nat → Bool → Word → Instr) × (Word → Word → Word → Word))),
      ∀ (b c pa : Nat) (f : Bool) (w : Word) (s : State), s.issues b f → (s.blk b).ctx = some c →
        let a := (s.sreg b f (wSa w) + BitVec.ofInt 64 (signed 37 w.toNat)).toNat
        let old := BitVec.ofNat 64 (leNat ((List.range 8).map fun i => s.hbmByte (pa + i)))
        let new := p.2 old (s.sreg b f (wSb w)) (s.sreg b f (wDst w))
        a % 8 = 0 → s.walkWaits c a = false → s.translate c a .read = .ok (0, pa) → s.translate c a .write = .ok (0, pa) →
        s.frameBusy pa = false → s.hbmPoisonedRange pa 8 = false → s.writeHeld pa 8 = false →
        ∃ t, exec (p.1 b f w) s = .next t ∧ s.sameLocal t ∧ s.sameElsewhere t b f ∧
          (∀ o, o ≠ BLK_CORE_RETIRED b → o < 0x2090000 ∨ 0x20A0000 ≤ o → t.reg o = s.reg o) ∧ (t.cset b f).pc = (s.cset b f).pc + 8 ∧
          (∀ n, t.sreg b f n = if n = wDst w ∧ n ≠ 0 then old else s.sreg b f n) ∧
          (∀ k, t.hbmByte k = if pa ≤ k ∧ k < pa + 8 then BitVec.ofNat 8 (new.toNat / 2 ^ (8 * (k - pa))) else s.hbmByte k))

/-- From R176: WAIT completes when no named ticket is BUSY, WAITANY with the lowest named ticket that is not (32 for an empty mask), WAIT.T
also when the block's fabric time has reached s[SB], and TKST reads a completion word. The mask is imm[31:0] | s[SA][31:0]; no ticket
changes; until then the instruction stays at issue, and MAIN parks where Y is set. What log entry 2 says in it is the model's choice. -/
def Obligations.WaitFamily : Prop :=
  ∀ (b : Nat) (f : Bool) (w : Word) (s : State), s.issues b f →
    let mask := BitVec.ofNat 32 w.toNat ||| BitVec.ofNat 32 (s.sreg b f (wSa w)).toNat
    let busy := fun i => mask.getLsbD i = true ∧ ((s.cset b f).ticket i).st = .busy
    let go := (s.clocked b f).park b f false
    let stay := fun k => if w.getLsbD 32 then ((s.clocked b f).park b f true).modSet b f fun x => { x with wait := k } else s.held b f k
    (wDst w = 0 → wSb w = 0 → wBits w 36 33 = 0 →
      ((∀ i, i < 32 → ¬ busy i) → exec (.wait b f w) s = .next (go.retired b f ((s.cset b f).pc + 8))) ∧
      ((∃ i, i < 32 ∧ busy i) → exec (.wait b f w) s = .next (stay (.tickets false mask.toNat)))) ∧
    (wSb w = 0 → wBits w 36 33 = 0 →
      (mask = 0 → exec (.waitany b f w) s = .next ((go.setSreg b f (wDst w) 32).retired b f ((s.cset b f).pc + 8))) ∧
      (∀ i, i < 32 → mask.getLsbD i = true → ¬ busy i → (∀ j, j < i → mask.getLsbD j = true → busy j) →
        exec (.waitany b f w) s =
          .next ((go.setSreg b f (wDst w) (BitVec.ofNat 64 i)).retired b f ((s.cset b f).pc + 8))) ∧
      (mask ≠ 0 → (∀ i, i < 32 → mask.getLsbD i = true → busy i) →
        exec (.waitany b f w) s = .next (stay (.tickets true mask.toNat)))) ∧
    (wBits w 36 33 = 0 →
      ((∀ i, i < 32 → ¬ busy i) →
        exec (.waitT b f w) s = .next ((go.setSreg b f (wDst w) 0).retired b f ((s.cset b f).pc + 8))) ∧
      ((∃ i, i < 32 ∧ busy i) → (s.sreg b f (wSb w)).toNat ≤ s.blockNow b →
        exec (.waitT b f w) s = .next ((go.setSreg b f (wDst w) 1).retired b f ((s.cset b f).pc + 8))) ∧
      ((∃ i, i < 32 ∧ busy i) → s.blockNow b < (s.sreg b f (wSb w)).toNat →
        exec (.waitT b f w) s = .next (stay (.deadline (wDst w) (s.sreg b f (wSb w)).toNat mask.toNat)))) ∧
    (wSa w = 0 → wSb w = 0 → wBits w 36 5 = 0 →
      exec (.tkst b f w) s = .next (s.wrote b f (wDst w)
        (if ((s.cset b f).ticket (wBits w 4 0)).st = .done then ((s.cset b f).ticket (wBits w 4 0)).word else 0)))

/-- From R178, R179: FTNOW writes the block's copy of fabric time, which is FTU_NOW or 1 less; FTWAIT completes once that time has reached its
target after the first lock, at issue or at its deadline event, and stays at issue before; FTSTAT writes FTU_STATUS[31:0] with ERR_BOUND
as it stands (R23). What log entry 6 says in it is the model's choice. -/
def Obligations.FabricTimeInstructions : Prop :=
  (∀ (b : Nat) (f : Bool) (w : Word) (s : State), s.issues b f → wSb w = 0 → wImm w = 0 →
    (wSa w = 0 → exec (.ftnow b f w) s = .next (s.wrote b f (wDst w) (BitVec.ofNat 64 (s.blockNow b))) ∧
      exec (.ftstat b f w) s = .next (s.wrote b f (wDst w)
        (BitVec.ofNat 64 (withBits (s.reg FTU_STATUS).toNat 31 16 s.errBound % 2 ^ 32)))) ∧
    (s.servo.everLocked = true → (s.sreg b f (wSa w)).toNat ≤ s.blockNow b →
      exec (.ftwait b f w) s = .next (s.wrote b f (wDst w) (BitVec.ofNat 64 (s.blockNow b)))) ∧
    (s.servo.everLocked = false ∨ s.blockNow b < (s.sreg b f (wSa w)).toNat →
      exec (.ftwait b f w) s = .next (s.held b f (.time (wDst w) (s.sreg b f (wSa w)).toNat)))) ∧
  (∀ (b d target mask : Nat) (f : Bool) (s : State), s.issues b f → target ≤ s.blockNow b →
    ((s.cset b f).wait = .time d target → s.servo.everLocked = true →
      exec (.timedWaitDeadline b f) s =
        .next ((s.setSreg b f d (BitVec.ofNat 64 (s.blockNow b))).retired b f ((s.cset b f).pc + 8))) ∧
    ((s.cset b f).wait = .deadline d target mask → (∃ i, i < 32 ∧ mask.testBit i = true ∧ ((s.cset b f).ticket i).st = .busy) →
      exec (.timedWaitDeadline b f) s =
        .next (((s.park b f false).setSreg b f d 1).retired b f ((s.cset b f).pc + 8)))) ∧
  (∀ (b : Nat) (s : State), s.now - 1 ≤ s.blockNow b ∧ s.blockNow b ≤ s.now)

/-- From R171, R183 to R185: EXIT reports s[SA][31:0] once no ticket of its set is BUSY and the queues hold nothing of it, and stays at issue
before; FENCE and NOP retire; BREAK halts a core that a debugger is attached to and raises CORE_BREAK on any other; CSRR reads a listed
CSR, CSRW writes USER0 to USER7, and any other number raises CSR_ACCESS. What log entry 2 says in it is the model's choice. -/
def Obligations.SystemInstructions : Prop :=
  ∀ (b : Nat) (f : Bool) (w : Word) (s : State), s.issues b f → wSb w = 0 →
    let next := (s.cset b f).pc + 8
    (wDst w = 0 → wImm w = 0 →
      ((∀ i, i < 32 → ((s.cset b f).ticket i).st ≠ .busy) → (s.bst b).queued f = false →
        exec (.exit b f w) s = .next (((s.clocked b f).modSet b f fun x =>
          { x with exited := some (BitVec.ofNat 64 ((s.sreg b f (wSa w)).toNat % 2 ^ 32)) }).retired b f next)) ∧
      ((∃ i, i < 32 ∧ ((s.cset b f).ticket i).st = .busy) ∨ (s.bst b).queued f = true →
        exec (.exit b f w) s = .next (s.held b f .exit))) ∧
    (wDst w = 0 → wSa w = 0 → wImm w = 0 →
      exec (.fence b f w) s = .next ((s.clocked b f).retired b f next) ∧
      exec (.nop b f w) s = .next ((s.clocked b f).retired b f next) ∧
      (s.flag (BLK_CORE_CTRL_DEBUG_ATTACH b) = true →
        exec (.brk b f w) s = .next (((s.clocked b f).setFlag (BLK_CORE_STATUS_HALTED b) true).retired b f next)) ∧
      (s.flag (BLK_CORE_CTRL_DEBUG_ATTACH b) = false → exec (.brk b f w) s = .next (s.faulted b f w CORE_BREAK))) ∧
    (wBits w 36 8 = 0 →
      (wSa w = 0 →
        (∀ v, (wBits w 7 0, v) ∈ [(0, BitVec.ofNat 64 b),
            (1, BitVec.ofNat 64 (((s.blockPart b).map fun p => (s.partBlocks p).findIdx (· == b)).getD 0)),
            (2, BitVec.ofNat 64 ((s.blockPart b).getD 0)), (3, BitVec.ofNat 64 ((s.blk b).ctx.getD 0)),
            (4, BitVec.ofNat 64 (s.cset b f).queue), (5, if f then 1 else 0), (6, (s.cset b f).cycles + (s.cset b f).issueClk),
            (7, (s.cset b f).retired), (8, (s.cset b f).taskPc)] →
          exec (.csrr b f w) s = .next (s.wrote b f (wDst w) v)) ∧
        (∀ i, i < 8 → wBits w 7 0 = 0x10 + i →
          exec (.csrr b f w) s = .next (s.wrote b f (wDst w) (SMap.get (fun _ => 0) (s.cset b f).user i))) ∧
        (8 < wBits w 7 0 → wBits w 7 0 < 0x10 ∨ 0x17 < wBits w 7 0 → exec (.csrr b f w) s = .next (s.faulted b f w CSR_ACCESS))) ∧
      (wDst w = 0 →
        (∀ i, i < 8 → wBits w 7 0 = 0x10 + i →
          exec (.csrw b f w) s = .next (((s.clocked b f).modSet b f fun x =>
            { x with user := SMap.set (fun _ => 0) x.user i (s.sreg b f (wSa w)) }).retired b f next)) ∧
        (wBits w 7 0 < 0x10 ∨ 0x17 < wBits w 7 0 → exec (.csrw b f w) s = .next (s.faulted b f w CSR_ACCESS))))

/-- From R162: a word whose major and minor no chapter defines is an illegal instruction, which raises ILLEGAL_INSTRUCTION precisely, and no
other word is one; the list holds the minors that each major's chapter defines. What log entries 3 and 10 say in it is the model's choice. -/
def Obligations.IllegalInstructions : Prop :=
  ∀ (b : Nat) (f : Bool) (w : Word) (s : State),
    (decodeCore b f w = .illegalInstruction b f w ↔
      ∀ m ∈ [(0x00, [0, 1, 2, 3, 4, 5, 6, 7, 8, 9, 10, 11, 12, 13, 14, 15, 16, 17, 18, 19, 20, 21, 22, 23]), (0x01, [0, 2, 3, 4, 5,
        6, 7, 8, 9]), (0x02, [0, 1]), (0x03, [0, 1, 2, 3, 4, 5, 6, 7, 8, 9, 10, 11, 12, 13]), (0x04, [0, 1, 2, 3, 4, 5, 6, 8,
        9, 10, 11]), (0x05, [0, 1, 2, 3, 4]), (0x08, [0, 1, 2, 3, 4, 5, 6, 7]), (0x10, [0]), (0x11, [0, 1, 2]), (0x18, [0, 1,
        2, 3, 4, 5]), (0x19, [0, 1, 2, 3, 4, 5, 6, 7]), (0x1A, [0, 1, 2]), (0x1B, [0, 1, 2, 3, 4, 5, 6, 7]), (0x1C, [0, 1, 2,
        3, 4, 5, 6, 7, 8]), (0x1D, [0]), (0x1E, [0, 1, 2, 3, 4, 5, 6, 7, 8, 9, 10, 11]), (0x1F, [0, 1, 2, 3]), (0x20, [0, 1]),
        (0x21, [0, 1, 2]), (0x22, [0, 1, 2, 3]), (0x23, [0, 1]), (0x24, [0, 1, 2]), (0x28, [0, 1, 2, 3, 4, 5, 6]), (0x29, [0,
        1]), (0x2C, [0, 1, 2, 3]), (0x30, [0, 1, 2]), (0x34, [0, 1, 2, 3, 8, 9, 10]), (0x38, [0, 1, 2, 3, 4, 5])],
        wMajor w = m.1 → wMinor w ∉ m.2) ∧
    (decodeCore b f w = .illegalInstruction b f w → s.issues b f →
      exec (.illegalInstruction b f w) s = .next (s.faulted b f w ILLEGAL_INSTRUCTION)) ∧
    (decodeCore b f w ≠ .illegalInstruction b f w → exec (.illegalInstruction b f w) s = .next s)

/-- From R163, R166: what an instruction of the core that works on scalar registers alone leaves as it is when it retires, which it does
unless it raises a precise fault: every register but its destination, the tickets and the USER registers of its own set, every other set,
block and unit, all memory, and every register of the control aperture but the block's count of instructions. It holds of the integer and
floating-point instructions, the branches and jumps, the loads from block-local memory, CSRR, TKST, FTNOW, FTSTAT, FENCE and NOP. What log
entries 2 and 28 say in it is the model's choice. -/
def Obligations.ScalarFrame : Prop :=
  ∀ c ∈ ([Instr.add, .sub, .and, .or, .xor, .sll, .srl, .sra, .slt, .sltu, .mul, .mulh, .mulhu, .div, .divu, .rem, .remu, .min, .max, .minu,
      .maxu, .clz, .ctz, .popc, .addi, .andi, .ori, .xori, .slli, .srli, .srai, .slti, .sltiu, .movi, .movhi, .fadd, .fsub, .fmul, .fdiv, .fsqrt,
      .fmin, .fmax, .fma, .fcmpEq, .fcmpLt, .fcmpLe, .fcvtI, .fcvtF, .fcvtP, .ldlB, .ldlBu, .ldlH, .ldlHu, .ldlW, .ldlWu, .ldlD, .beq, .bne, .blt,
      .bge, .bltu, .bgeu, .jal, .jalr, .tkst, .ftnow, .ftstat, .fence, .csrr, .nop] : List (Nat → Bool → Word → Instr)),
    ∀ (b : Nat) (f : Bool) (w : Word) (s : State), s.issues b f →
      (∃ code, exec (c b f w) s = .next (s.faulted b f w code)) ∨
      ∃ t, exec (c b f w) s = .next t ∧ (∀ n, n ≠ wDst w → t.sreg b f n = s.sreg b f n) ∧ t.sreg b f 0 = 0 ∧ s.sameElsewhere t b f ∧
        s.sameRegs t b ∧ s.sameHbm t ∧ s.sameLocal t ∧ t.tlb = s.tlb

/-- From R166, R177, R182, R190, R456: an instruction of a set that cannot issue does nothing, whichever it is; one whose fetch waits for a
frame test (R247) stays where it is; and one whose fetch faults raises the fetch's fault with a word of 0 and does nothing else. From R186
to R190, R196: what a fault of a task leaves. The first sets FAULTED, clears MORE, keeps the set's fault with the tag of that time, and no
set of the block issues any more; nothing else changes. A later one adds 1 to MORE up to 15; while the first is still to be reported its
set keeps the one that comes first in R188's order, completion faults by ticket first. A report shows the fault in CORE_FAULT and
LAST_CODE, tears the context down if its tag is still current, and posts the fault's record under the tag from before; of two sets' faults
the one that comes first is reported first and shown (the model's reading, log entry 96). What log entries 2, 8 and 96 say in it is the
model's choice. -/
def Obligations.IssueConditions : Prop :=
  (∀ (i : Instr) (b : Nat) (f : Bool) (w : Word) (s : State), coreOperands i = some (b, f, w) →
      (s.canIssue b f = false → exec i s = .next s) ∧
      (s.canIssue b f = true → s.quiet → (i = .illegalInstruction b f w → decodeCore b f w = i) →
        (s.fetchWaits b f = true → exec i s = .next ((s.clocked b f).modSet b f fun x =>
          { x with wait := if x.wait = .none then .stall else x.wait })) ∧
        (∀ code, s.fetchWaits b f = false → s.fetchFault b f = some code →
          exec i s = .next ((s.clocked b f).coreFault b f kindIssue code (s.cset b f).pc.toNat 0)))) ∧
  ((∀ (b kind code pc word c : Nat) (f : Bool) (s : State), (s.blk b).ctx = some c → s.flag (BLK_CORE_STATUS_FAULTED b) = false →
      (s.cset b f).fault = none →
      let t := s.coreFault b f kind code pc word
      t.flag (BLK_CORE_STATUS_FAULTED b) = true ∧ t.fld (BLK_CORE_FAULT_MORE b) = 0 ∧ (∀ g, t.canIssue b g = false) ∧
      t.cset b f = { s.cset b f with fault := some ⟨s.tagOf c, kind, code, pc, word⟩ } ∧ t.cset b (!f) = s.cset b (!f) ∧
      (∀ b', b' ≠ b → t.blk b' = s.blk b') ∧ (∀ o, o ≠ BLK_CORE_FAULT b → o ≠ BLK_CORE_STATUS b → t.reg o = s.reg o) ∧ s.sameHbm t) ∧
    (∀ (b kind code pc word c : Nat) (f : Bool) (s : State), (s.blk b).ctx = some c → s.flag (BLK_CORE_STATUS_FAULTED b) = true →
      let t := s.coreFault b f kind code pc word
      let e : CoreErr := ⟨s.tagOf c, kind, code, pc, word⟩
      t.fld (BLK_CORE_FAULT_MORE b) = Nat.min (s.fld (BLK_CORE_FAULT_MORE b) + 1) 15 ∧
      ((s.bst b).faultDue = false → t.cset b f = s.cset b f) ∧
      ((s.bst b).faultDue = true → ((s.cset b f).fault = none → (t.cset b f).fault = some e) ∧
        ∀ x, (s.cset b f).fault = some x → (t.cset b f).fault = some (if e.rank < x.rank then e else x))) ∧
    (∀ (e : CoreErr), (∀ n, n < 32 → e.kind = 0x80 + n → e.rank = n) ∧ (e.kind = 0x60 → e.rank = 32) ∧
      (e.kind < 0x80 → e.kind ≠ 0x60 → e.rank = 33)) ∧
    (∀ (b : Nat) (f : Bool) (e : CoreErr) (s : State), (s.cset b f).fault = some e → ∃ s1,
      s.reportSet b f true = (if s1.tagCurrent e.tag then s1.teardown (e.tag / 256) else s1).post
        ⟨some e.tag, e.code, 0x100 + b, e.pc % 2 ^ 48 + (if f then 2 ^ 48 else 0) + e.kind * 2 ^ 56, e.word⟩ ∧
      s1.cset b f = { s.cset b f with fault := none } ∧ s1.fld (BLK_CORE_FAULT_CODE b) = e.code % 2 ^ 16 ∧
      s1.fld (BLK_CORE_FAULT_KIND b) = e.kind % 2 ^ 8 ∧ s1.fld (BLK_CORE_FAULT_SET b) = b2n f ∧
      s1.fld (BLK_CORE_FAULT_DETAIL b) = e.word % 2 ^ 32 ∧ s1.fld (BLK_CORE_FAULT_PC_ADDR b) = e.pc % 2 ^ 48 ∧
      s1.fld (BLK_CORE_STATUS_LAST_CODE b) = e.code % 2 ^ 16 ∧ s1.fld (BLK_CORE_FAULT_MORE b) = s.fld (BLK_CORE_FAULT_MORE b) ∧
      (∀ o, o ∉ [BLK_CORE_FAULT b, BLK_CORE_FAULT_PC b, BLK_CORE_STATUS b] → s1.reg o = s.reg o) ∧ s.sameHbm s1) ∧
    (∀ (b : Nat) (f : Bool) (s : State), ((s.cset b f).fault = none → s.reportSet b f true = s ∧ s.reportSet b f false = s) ∧
      ((s.cset b (!f)).fault = none → (s.cset b f).fault ≠ none → s.reportFaults b = s.reportSet b f true)) ∧
    (∀ (b : Nat) (x y : CoreErr) (s : State), (s.cset b false).fault = some x → (s.cset b true).fault = some y →
      s.reportFaults b = (if y.rank < x.rank then (s.reportSet b true true).reportSet b false false
        else (s.reportSet b false true).reportSet b true false)))

/-- R199: a counter field of CORE_RETIRED and CORE_COUNT saturates at its largest value, never wraps, and changes nothing beside itself. -/
def Obligations.CountersSaturate : Prop :=
  ∀ (b k : Nat) (s : State), ∀ f ∈ [BLK_CORE_RETIRED_COUNT b, BLK_CORE_COUNT_TRANSIENT b, BLK_CORE_COUNT_PARITY b, BLK_CORE_COUNT_REEXEC b,
      BLK_CORE_COUNT_REFETCH b],
    (s.count f k).fld f = Nat.min (s.fld f + k) (2 ^ (f.hi + 1 - f.lo) - 1) ∧ s.fld f ≤ (s.count f k).fld f ∧
    (∀ o, o ≠ f.off → (s.count f k).reg o = s.reg o) ∧
    (∀ i, i < f.lo ∨ f.hi < i → ((s.count f k).reg f.off).getLsbD i = (s.reg f.off).getLsbD i) ∧
    ({ s.count f k with regs := [] } : State) = { s with regs := [] }

/-- From R91 to R99, R546: a WEAVE that passes its issue checks takes its ticket and joins the array queue with the fields of its word and of
its three registers; with a queue of four or a BUSY ticket it stalls; a check that fails is a precise fault that takes no ticket. From
R68, R115, R202: where the block is not to stop, the head of the array queue is accepted when no WEAVE runs and no earlier stake operation
names its slots; a stake that fails the check at acceptance completes the WEAVE with the code of the first part that fails. What log
entries 27 and 91 say in it is the model's choice. -/
def Obligations.WeaveAtIssueAndAcceptance : Prop :=
  (∀ (b : Nat) (f : Bool) (w : Word) (s : State), s.issues b f →
      let shape := (s.sreg b f (wSb w)).toNat
      let o : WeaveOp :=
        { f := f, ticket := wBits w 36 32, rows := wBits w 31 24 + 1, slot := wBits w 23 17, wfmt := wBits w 16 12,
          sfmt := wBits w 11 7, aset := wBits w 6 6, acc := w.getLsbD 5, skip := w.getLsbD 4, wide := w.getLsbD 3,
          kg := bits shape 19 16 + 1, nc := bits shape 14 8 + 1, row0 := bits shape 7 0,
          sig := (s.sreg b f (wBits w 46 42)).toNat, exp := (s.sreg b f (wBits w 51 47)).toNat, order := (s.bst b).order }
      (weaveChecks w shape o = none → (s.bst b).aq.length < 4 → s.ticketBusy b f (wBits w 36 32) = false →
        exec (.weave b f w) s = .next (s.queued b f w 1 fun x => { x with aq := x.aq ++ [o], order := x.order + 1 })) ∧
      (weaveChecks w shape o = none → 4 ≤ (s.bst b).aq.length ∨ s.ticketBusy b f (wBits w 36 32) = true →
        exec (.weave b f w) s = .next (s.held b f .stall)) ∧
      (∀ e, weaveChecks w shape o = some e → exec (.weave b f w) s = .next (s.faulted b f w e))) ∧
  (∀ (b : Nat) (s : State) (o : WeaveOp) (rest : List WeaveOp), s.arrayRuns b = true → s.unitsHalt b = false →
      (s.bst b).run = none → (s.bst b).aq = o :: rest →
      ((s.bst b).sq.any fun q => decide (q.order < o.order) && o.names q.slot q.count) = false →
      let s1 := s.modBst b fun x =>
        { x with aq := rest, pending := withBits x.pending o.ticket o.ticket 0, run := some ⟨o, 0, 0, false, false, false, false⟩ }
      ((s.bst b).slotCheck o.slot o.sfmt = none → exec (.weaveAccept b) s = .next s1) ∧
      (∀ e, (s.bst b).slotCheck o.slot o.sfmt = some e → exec (.weaveAccept b) s = .next (s1.weaveDone b o e false)))

/-- From R102 to R111, R547: STAKE.LD joins the stake queue with a ticket, STAKE.INV without one, and STAKE.STAT waits for the queue to empty
and writes the record word of its slot; STAKE.LD and STAKE.STAT stall on a full queue, STAKE.LD on a BUSY ticket too. From R62, R106,
R110: where the block is not to stop, the head of the stake queue starts once no earlier WEAVE names its slots: a load begins, an
invalidation empties the records of its slots and nothing else of them; a started load whose source reads well fills its slots and
completes its ticket. What log entries 27 and 91 say in it is the model's choice. -/
def Obligations.StakesAtIssueAndInTheQueue : Prop :=
  (∀ (b : Nat) (f : Bool) (w : Word) (s : State), s.issues b f →
      let geo := (s.sreg b f (wSb w)).toNat
      let parts := if wBits w 24 20 = 6 then 2 else if wBits w 24 20 = 7 then 3 else 1
      let o : StakeOp :=
        { load := true, f := f, ticket := wBits w 36 32, slot := wBits w 31 25, count := parts, fmt := wBits w 24 20,
          space := w.getLsbD 19, sig := (s.sreg b f (wBits w 46 42)).toNat, exp := (s.sreg b f (wBits w 51 47)).toNat,
          stride := bits geo 31 0, nc := bits geo 38 32 + 1, kg := bits geo 43 40 + 1, order := (s.bst b).order, started := false }
      (stakeChecks w geo o = none → (s.bst b).sq.length < 4 → s.ticketBusy b f (wBits w 36 32) = false →
        exec (.stakeLd b f w) s = .next (s.queued b f w 2 fun x => { x with sq := x.sq ++ [o], order := x.order + 1 })) ∧
      (stakeChecks w geo o = none → 4 ≤ (s.bst b).sq.length ∨ s.ticketBusy b f (wBits w 36 32) = true →
        exec (.stakeLd b f w) s = .next (s.held b f .stall)) ∧
      (∀ e, stakeChecks w geo o = some e → exec (.stakeLd b f w) s = .next (s.faulted b f w e)) ∧
      (wDst w = 0 → wSa w = 0 → wSb w = 0 → wTicket w = 0 → wBits w 17 0 = 0 → wBits w 31 25 + wBits w 24 18 ≤ 127 →
        (s.bst b).sq.length < 4 →
        exec (.stakeInv b f w) s = .next ((((s.clocked b f).modBst b fun x =>
          { x with sq := x.sq ++ [⟨false, f, 0, wBits w 31 25, wBits w 24 18 + 1, 0, false, 0, 0, 0, 0, 0, x.order, false⟩],
                   order := x.order + 1 })).retired b f ((s.cset b f).pc + 8))) ∧
      (wSa w = 0 → wSb w = 0 → wTicket w = 0 → wBits w 24 0 = 0 →
        ((s.bst b).sq = [] →
          exec (.stakeStat b f w) s = .next (s.wrote b f (wDst w) ((s.bst b).originOf (wBits w 31 25)).statWord)) ∧
        (4 ≤ (s.bst b).sq.length → exec (.stakeStat b f w) s = .next (s.held b f .stall)) ∧
        ((s.bst b).sq ≠ [] → (s.bst b).sq.length < 4 → exec (.stakeStat b f w) s = .next (s.held b f (.sync true))))) ∧
  (∀ (b : Nat) (s : State) (o : StakeOp) (rest : List StakeOp), s.stakeRuns b = true → (s.bst b).sq = o :: rest →
      (s.unitsHalt b = false → o.started = false → (s.bst b).stakeHeld o = false → o.load = true →
        exec (.stakeQueueStart b) s = .next (s.modBst b fun x => { x with sq := { o with started := true } :: rest })) ∧
      (s.unitsHalt b = false → o.started = false → (s.bst b).stakeHeld o = false → o.load = false →
        ∃ t, exec (.stakeQueueStart b) s = .next t ∧ (t.bst b).sq = rest ∧ (t.bst b).slots = (s.bst b).slots ∧
          (∀ k, (t.bst b).originOf k =
            if o.slot ≤ k ∧ k < o.slot + o.count then { (s.bst b).originOf k with st := .empty } else (s.bst b).originOf k)) ∧
      (∀ c cols s', (s.blk b).ctx = some c → o.load = true → o.started = true →
        s.readColumns b c ⟨.valid, o.space, o.sig, o.exp, o.stride, o.nc, o.kg, o.fmt, 0, 0⟩ o.nc 0 = (.ok cols, s') →
        exec (.stakeLdDone b) s = .next
          ((s'.modBst b fun x => ({ x with sq := rest } : BlkState).fillStake o cols).completeHere b o.f o.ticket 2 0 0)))

/-- From R49, R66, R93: a rand that no check discards writes the entries of its row, each the update of the old entry by the reference value
of the row's groups and the stake column (where ACC is 0 the old entry does not count), and no other byte of the block; the WEAVE goes on
to the next row, or ends with the last. What log entries 9 and 93 say in it is the model's choice. -/
def Obligations.RandWritesItsRow : Prop :=
  ∀ (b : Nat) (s : State) (r : WeaveRun), s.randReady b r → (s.blk b).arrTest = none → r.next < r.op.rows →
    (r.op.acc = true → s.localPoisoned b (r.op.rowAddr r.next) (r.op.nc * if r.op.wide then 8 else 4) = false) →
    let o := r.op
    let gs := columnGroups (splintWidth o.wfmt) o.kg
      (s.localBytes b (o.sigSpan r.next).1 (o.sigSpan r.next).2) (s.localBytes b (o.expSpan r.next).1 (o.expSpan r.next).2) ++
        List.replicate (16 - o.kg) ⟨0, List.replicate 32 0⟩
    let value := fun n => refGroup (splintWidth o.wfmt) (splintWidth o.sfmt) gs
      ((List.range 16).map fun k => (s.bst b).stakeGroup o.slot o.sfmt k n)
    let wd := if o.wide then 8 else 4
    let old := fun n => leNat ((List.range wd).map fun i => (s.bst b).byte (o.rowAddr r.next + wd * n + i))
    let entry := fun n => (updateEntry (if o.wide then f64 else f32) (old n) (value n) (!o.acc)).1
    ∃ t, exec (.randBoundary b) s = .next t ∧
      (r.next + 1 < o.rows → ∃ l c, (t.bst b).run = some { r with next := r.next + 1, fails := 0, latched := l, closed := c }) ∧
      (r.next + 1 = o.rows → (t.bst b).run = none) ∧
      (∀ n i, n < o.nc → i < wd → (t.bst b).byte (o.rowAddr r.next + wd * n + i) = BitVec.ofNat 8 (entry n / 2 ^ (8 * i))) ∧
      (∀ x, x < o.rowAddr r.next ∨ o.rowAddr r.next + wd * o.nc ≤ x → (t.bst b).byte x = (s.bst b).byte x) ∧ s.sameHbm t

/-- From R75 to R80, R82: a row that waited is ready once no bank row of the block is under test and its fetch has not lost a port; a reload
that matches its origin ends; a self-test that passes ends with the evidence of a transient, and refills a slot of the banks it tested
that has an origin; one that fails repairs the array; a rand at its replay limit repairs it without a test; and a spare column that is
filled, with every slot reloaded that is to be, is recorded, journaled and reported. From R197, R198, R420: a core's self-test that passes
is counted as a transient and its instruction is issued again; one that fails, and an instruction that fails REPLAY_LIMIT times in a row,
put the core out of use. What log entries 3, 8, 9 and 91 say in it is the model's choice. -/
def Obligations.ArrayAndCoreRepair : Prop :=
  ((∀ (b : Nat) (s : State) (r : WeaveRun), s.powered = true → (s.bst b).run = some r → (s.blk b).rowTests = [] →
      s.fetchLost b = false → exec (.weaverRowArrive b) s =
        .next (s.modBst b fun x => { x with run := some { r with rowWait := false, latched := false } })) ∧
    (∀ (b slot : Nat) (s s' : State), s.powered = true → (s.blk b).reload = some slot → s.reloadSlot b slot = (some true, s') →
      exec (.originReloadDone b) s = .next (s'.modBlk b fun x => { x with reload := none })) ∧
    (∀ (b : Nat) (s : State) (t : ArrTest), s.powered = true → (s.blk b).arrTest = some t → t.running = true →
      let s1 := (s.setFlag (BLK_ARR_STATUS_SELFTEST b) false).modBlk b fun x => { x with arrTest := none }
      let s2 := ((s1.count (BLK_ARR_COUNT_TRANSIENT b) 1).arrHealth b .transient ARR_TRANSIENT t.injected).modBst b fun x =>
        { x with run := x.run.map fun r => { r with latched := false } }
      (t.site ≠ .stakeBank ∨ ((s.bst b).originOf t.slot).st ≠ .valid → exec (.arrSelftestDone b true) s = .next s2) ∧
      (t.site = .stakeBank → ((s.bst b).originOf t.slot).st = .valid → exec (.arrSelftestDone b true) s =
        .next ((s2.modBlk b fun x => { x with reload := some t.slot }).modBst b fun x =>
          { x with run := x.run.map fun r => { r with stale := true } })) ∧
      exec (.arrSelftestDone b false) s = .next (if t.site = .planeBus then s1.unrepairable b
        else s1.retireColumn b t.col (decide (t.site = .stakeBank)))) ∧
    (∀ (b : Nat) (s : State) (r : WeaveRun) (t : ArrTest), s.powered = true → (s.bst b).run = some r →
      (s.blk b).arrTest = some t → s.arrLimit b ≤ r.fails →
      exec (.replayLimitReached b) s = .next
        (((s.modBlk b fun x => { x with arrTest := none }).modBst b fun x =>
          { x with run := some { r with fails := 0, stale := true, latched := false } }).unitFailed b t)) ∧
    (∀ (b col : Nat) (at_ : Option Nat) (old : Word) (s sr : State), s.powered = true → (s.blk b).spareFill = some (col, at_, old) →
      s.refill b ((List.range 128).drop (at_.getD 128)) = (none, sr) →
      (at_ = none → sr = s) ∧
      let s1 := (((sr.modBlk b fun x => { x with spareFill := none }).modBst b fun x =>
        { x with run := x.run.map fun r => { r with stale := true, latched := false } }).count (BLK_ARR_COUNT_RETIRED b) 1).arrHealth b
          .repaired ARR_COLUMN_RETIRED false
      exec (.spareFillDone b) s = .next ((s1.journal .device .internal 0 (BLK_ARR_REMAP b) old (s1.reg (BLK_ARR_REMAP b))).mailRepair 1 b 0
        (s1.reg (BLK_ARR_REMAP b)).toNat))) ∧
  ((∀ (b : Nat) (s : State), b < 128 → s.powered = true → s.flag (BLK_CORE_STATUS_SELFTEST b) = true →
      let s1 := (s.setFlag (BLK_CORE_STATUS_SELFTEST b) false).modBlk b fun x => { x with coreFails := 0, coreTestInjected := false }
      let s2 := s1.count (BLK_CORE_COUNT_TRANSIENT b) 1
      exec (.coreSelftestDone b true) s = .next (if (s.blk b).coreTestInjected then s2
        else (s2.lastCode RST_STATUS_LAST_CODE CORE_TRANSIENT).health .transient ⟨none, CORE_TRANSIENT, 0x0AFF, b, 0⟩) ∧
      exec (.coreSelftestDone b false) s = .next (s1.coreFailed b)) ∧
    (∀ (b : Nat) (s : State), s.powered = true → s.coreLimit b ≤ (s.blk b).coreFails →
      exec (.coreReplayLimit b) s = .next ((s.modBlk b fun x => { x with coreFails := 0 }).coreFailed b)))

/-- From R127, R128, R130, R157: every floating-point element instruction retires into the vector queue with its result in the active elements
of v[DST], one rounding each, and with the sticky flags of its results; operand b is v[SB], or with VS the low bits of s[SB]. From R118,
R127, R130: the sign operations, the integer operations modulo 2^n, and the conversions of element types retire with their results in the
active elements of v[DST]. From R151 to R155: VOPT.APPLY adds factor times step to the split parameter of each active element, rounds the
head to bfloat16 and keeps the rest, clamped, as the remainder, or 0 where the head is infinite or NaN; VOPT.RD gives the exact value; and
the VRNG instructions take the word of their element's index, whole, as a fraction, or compared with s[SB]. What log entry 30 says in it
is the model's choice. -/
def Obligations.VectorArithmetic : Prop :=
  (∀ p ∈ ([
        (Instr.vadd, bitMask 23 23, 2, fun k x y _ => k.encode ((k.decode x).add (k.decode y))),
        (Instr.vsub, bitMask 23 23, 2, fun k x y _ => k.encode ((k.decode x).add (k.decode y).neg)),
        (Instr.vmul, bitMask 23 23, 2, fun k x y _ => k.encode ((k.decode x).mul (k.decode y))),
        (Instr.vdiv, bitMask 23 23, 2, fun k x y _ => k.div (k.decode x) (k.decode y)),
        (Instr.vmin, bitMask 23 23, 2, fun k x y _ => k.encode ((k.decode x).minimum (k.decode y))),
        (Instr.vmax, bitMask 23 23, 2, fun k x y _ => k.encode ((k.decode x).maximum (k.decode y))),
        (Instr.vfma, bitMask 23 23, 3, fun k x y z => k.encode ((k.decode x).fma (k.decode y) (k.decode z))),
        (Instr.vfms, bitMask 23 23, 3, fun k x y z => k.encode ((k.decode x).fma (k.decode y) (k.decode z).neg)),
        (Instr.vfnma, bitMask 23 23, 3, fun k x y z => k.encode ((k.decode x).neg.fma (k.decode y) (k.decode z))),
        (Instr.vexp, 0, 1, fun k x _ _ => k.fn .exp (k.decode x)),
        (Instr.vexp2, 0, 1, fun k x _ _ => k.fn .exp2 (k.decode x)),
        (Instr.vlog, 0, 1, fun k x _ _ => k.fn .log (k.decode x)),
        (Instr.vlog2, 0, 1, fun k x _ _ => k.fn .log2 (k.decode x)),
        (Instr.vrcp, 0, 1, fun k x _ _ => k.rcp (k.decode x)),
        (Instr.vsqrt, 0, 1, fun k x _ _ => k.sqrt (k.decode x)),
        (Instr.vrsqrt, 0, 1, fun k x _ _ => k.rsqrt (k.decode x)),
        (Instr.vtanh, 0, 1, fun k x _ _ => k.fn .tanh (k.decode x)),
        (Instr.vsigmoid, 0, 1, fun k x _ _ => k.fn .sigmoid (k.decode x)),
        (Instr.verf, 0, 1, fun k x _ _ => k.fn .erf (k.decode x)),
        (Instr.vsin, 0, 1, fun k x _ _ => k.fn .sin (k.decode x)),
        (Instr.vcos, 0, 1, fun k x _ _ => k.fn .cos (k.decode x))] :
          List ((Nat → Bool → Word → Instr) × Nat × Nat × (Fmt → Nat → Nat → Nat → Nat))),
      ∀ (b : Nat) (f : Bool) (w : Word) (s : State),
        s.vecReady b f w (vecCheck w p.2.1 [0, 1, 2, 3] (s.bst b).vl none) →
        let k := typeFmt (wType w)
        let wd := typeBytes (wType w)
        exec (p.1 b f w) s = .next (s.vecDone b f w false fun x => x.writeElems w wd fun i =>
          let a := x.velem (wSa w) wd i
          let y := if wVs w then (s.sreg b f (wSb w)).toNat % 2 ^ (8 * wd) else x.velem (wSb w) wd i
          let d := x.velem (wDst w) wd i
          (p.2.2.2 k a y d, resultFlags (([k.decode a, k.decode y, k.decode d]).take p.2.2.1) (k.decode (p.2.2.2 k a y d))))) ∧
  ((∀ p ∈ ([(Instr.vabs, fun _ => false), (Instr.vneg, fun n => !n)] : List ((Nat → Bool → Word → Instr) × (Bool → Bool))),
      ∀ (b : Nat) (f : Bool) (w : Word) (s : State),
        s.vecReady b f w (vecCheck w (bitMask 23 23) [0, 1, 2, 3] (s.bst b).vl none) →
        let k := typeFmt (wType w)
        let wd := typeBytes (wType w)
        exec (p.1 b f w) s = .next (s.vecDone b f w false fun x => x.writeElems w wd fun i =>
          let a := x.velem (wSa w) wd i
          ((if (k.decode a).isNan then a else k.signed (p.2 (decide (k.signBit ≤ a))) (a % k.signBit)), false, false))) ∧
    (∀ p ∈ ([
        (Instr.viadd, fun _ x y => x + y),
        (Instr.visub, fun n x y => x + (2 ^ n - y)),
        (Instr.vimul, fun _ x y => x * y),
        (Instr.vand, fun _ x y => x &&& y),
        (Instr.vor, fun _ x y => x ||| y),
        (Instr.vxor, fun _ x y => x ^^^ y),
        (Instr.vsll, fun n x y => x * 2 ^ (y % n)),
        (Instr.vsrl, fun n x y => x / 2 ^ (y % n)),
        (Instr.vsra, fun n x y => wrap n (signed n x / (2 ^ (y % n) : Nat)))] :
          List ((Nat → Bool → Word → Instr) × (Nat → Nat → Nat → Nat))),
      ∀ (b : Nat) (f : Bool) (w : Word) (s : State),
        s.vecReady b f w (vecCheck w (bitMask 23 23) [4, 5, 6] (s.bst b).vl none) →
        let wd := typeBytes (wType w)
        exec (p.1 b f w) s = .next (s.vecDone b f w false fun x => x.writeElems w wd fun i =>
          let y := if wVs w then (s.sreg b f (wSb w)).toNat % 2 ^ (8 * wd) else x.velem (wSb w) wd i
          (p.2 (8 * wd) (x.velem (wSa w) wd i) y % 2 ^ (8 * wd), false, false))) ∧
    (∀ (b : Nat) (f : Bool) (w : Word) (s : State), wBits w 23 21 ≠ 7 → (s.bst b).vl ≤ vlMax (wBits w 23 21) →
      s.vecReady b f w (vecCheck w (bitMask 23 21) [0, 1, 2, 3, 4, 5, 6] (s.bst b).vl none) →
      exec (.vcvt b f w) s = .next (s.vecDone b f w false fun x => x.writeElems w (typeBytes (wType w)) fun i =>
        convert (wBits w 23 21) (wType w) (x.velem (wSa w) (typeBytes (wBits w 23 21)) i)))) ∧
  ((∀ (b : Nat) (f : Bool) (w : Word) (s : State), s.vecReady b f w (vecCheck w 0 [0] (s.bst b).vl none) →
      let fac := f32.decode ((s.sreg b f (wSb w)).toNat % 2 ^ 32)
      let head := fun (x : BlkState) i => x.velem (wDst w) 2 i
      let rest := fun (x : BlkState) i => x.velem (wDst w) 2 i 2048
      ∃ t, exec (.voptApply b f w) s = .next t ∧ (t.cset b f).pc = (s.cset b f).pc + 8 ∧ ∀ i, (s.bst b).active w i = true →
        let h := bf16.decode (head (s.bst b) i)
        let wn := (splitVal h (signed 16 (rest (s.bst b) i))).add (fac.mul (f32.decode ((s.bst b).velem (wSa w) 4 i)))
        let hv := bf16.decode (bf16.encode wn)
        head (t.bst b) i = bf16.encode wn % 2 ^ 16 ∧
        (hv.isFin = false → rest (t.bst b) i = 0 ∧ ((t.bst b).cfgItem 4).getLsbD 5 = true) ∧
        (∀ n m e, hv.isFin = true → wn.add hv.neg = .fin n m e → m ≠ 0 →
          let q := roundHalfEven n m (e - remExp hv)
          rest (t.bst b) i = wrap 16 (min (max q (-32768)) 32767) ∧
          (32767 < q ∨ q < -32768 → ((t.bst b).cfgItem 4).getLsbD 4 = true)) ∧
        (∀ n e, hv.isFin = true → wn.add hv.neg = .fin n 0 e → rest (t.bst b) i = 0)) ∧
    (∀ (b : Nat) (f : Bool) (w : Word) (s : State), s.vecReady b f w (vecCheck w 0 [2] (s.bst b).vl none) →
      exec (.voptRd b f w) s = .next (s.vecDone b f w false fun x => x.writeElems w 4 fun i =>
        (f32.encode (splitVal (bf16.decode (x.velem (wSa w) 2 i)) (signed 16 (x.velem (wSa w) 2 i 2048))), false, false))) ∧
    (∀ (h m : Nat) (q e : Int) (n : Bool), bf16.decode h = .fin n m e → splitVal (bf16.decode h) q =
      (FVal.fin n m e).add (.fin (decide (q < 0)) q.natAbs (if m = 0 then -149 else max (topExp m e) (-126) - 23))) ∧
    (∀ (b : Nat) (f : Bool) (w : Word) (s : State),
      let word := fun i => philoxWord ((s.bst b).cfgItem 0).toNat ((s.bst b).cfgItem 1).toNat (s.sreg b f (wBits w 22 18)).toNat
        (((s.sreg b f (wSa w)).toNat + i) % 2 ^ 34)
      (s.vecReady b f w (vecCheck w (bitMask 22 18) [5] (s.bst b).vl none) → exec (.vrngU32 b f w) s =
        .next (s.vecDone b f w false fun x => x.writeElems w 4 fun i => (word i, false, false))) ∧
      (s.vecReady b f w (vecCheck w (bitMask 22 18) [2] (s.bst b).vl none) → exec (.vrngUnif b f w) s =
        .next (s.vecDone b f w false fun x => x.writeElems w 4 fun i =>
          (f32.encode (.fin false (word i / 2 ^ 8) (-24)), false, false))) ∧
      (wDst w < 8 → s.vecReady b f w (vecCheck w (bitMask 22 18) [] (s.bst b).vl none) → exec (.vrngKeep b f w) s =
        .next (s.vecDone b f w false fun x => x.writeMask (wDst w) (x.active w) fun i =>
          decide ((s.sreg b f (wSb w)).toNat % 2 ^ 32 ≤ word i)))) ∧
    (∀ c0 c1 c2 c3 k0 k1 : Nat, philoxNext ((c0, c1, c2, c3), k0, k1) =
      (((0xcd9e8d57 * c2 / 2 ^ 32) ^^^ c1 ^^^ k0, 0xcd9e8d57 * c2 % 2 ^ 32, (0xd2511f53 * c0 / 2 ^ 32) ^^^ c3 ^^^ k1, 0xd2511f53 * c0 % 2 ^ 32),
        (k0 + 0x9e3779b9) % 2 ^ 32, (k1 + 0xbb67ae85) % 2 ^ 32)) ∧
    (∀ key step tensor e : Nat, philoxWord key step tensor e =
      let r := (Nat.repeat philoxNext 10 ((e / 4, tensor % 2 ^ 32, step % 2 ^ 32, step / 2 ^ 32 % 2 ^ 32), key % 2 ^ 32,
        key / 2 ^ 32 % 2 ^ 32)).1
      if e % 4 = 0 then r.1 else if e % 4 = 1 then r.2.1 else if e % 4 = 2 then r.2.2.1 else r.2.2.2))

/-- From R119, R127: compares and mask operations write the active bits of m[DST]; every other bit keeps its value. From R119, R122, R127:
VMV.V, the permutes and VMERGE retire with the elements that each index selects; a source index at or above VLMAX selects 0. What log
entry 30 says in it is the model's choice. -/
def Obligations.VectorComparesMasksAndPermutes : Prop :=
  ((∀ p ∈ ([(Instr.vcmpEq, fun x y => x.eq y), (Instr.vcmpLt, fun x y => x.lt y), (Instr.vcmpLe, fun x y => x.lt y || x.eq y),
        (Instr.vcmpUn, fun x y => x.isNan || y.isNan)] : List ((Nat → Bool → Word → Instr) × (FVal → FVal → Bool))),
      ∀ (b : Nat) (f : Bool) (w : Word) (s : State), wDst w < 8 →
        s.vecReady b f w (vecCheck w (bitMask 23 23) [0, 1, 2, 3, 4, 5, 6] (s.bst b).vl none) →
        let t := wType w
        exec (p.1 b f w) s = .next (s.vecDone b f w false fun x => x.writeMask (wDst w) (x.active w) fun i =>
          p.2 (typeVal t (x.velem (wSa w) (typeBytes t) i))
            (typeVal t (if wVs w then (s.sreg b f (wSb w)).toNat % 2 ^ (8 * typeBytes t) else x.velem (wSb w) (typeBytes t) i)))) ∧
    (∀ p ∈ ([(Instr.mand, false, fun x y => x && y), (Instr.mor, false, fun x y => x || y), (Instr.mxor, false, fun x y => x != y),
        (Instr.mnot, true, fun x _ => !x)] : List ((Nat → Bool → Word → Instr) × Bool × (Bool → Bool → Bool))),
      ∀ (b : Nat) (f : Bool) (w : Word) (s : State), wDst w < 8 → wSa w < 8 → (p.2.1 = true ∨ wSb w < 8) →
        s.vecReady b f w (vecCheck w (bitMask 23 23) [] (s.bst b).vl none) →
        exec (p.1 b f w) s = .next (s.vecDone b f w false fun x => x.writeMask (wDst w) (x.active w) fun i =>
          p.2.2 (x.mbit (wSa w) i) (x.mbit (wSb w) i))) ∧
    (∀ (x : BlkState) (r : Nat) (act g : Nat → Bool) (i : Nat), i < 1024 →
      (x.writeMask r act g).mbit r i = (if act i then g i else x.mbit r i)) ∧
    (∀ (x : BlkState) (r r' : Nat) (act g : Nat → Bool), r' ≠ r → (x.writeMask r act g).mreg r' = x.mreg r')) ∧
  ((∀ p ∈ ([
        (Instr.vslidedn, fun s b f w x i => x.source w (wSa w) (i + (s.sreg b f (wSb w)).toNat)),
        (Instr.vslideup, fun s b f w x i => if i < (s.sreg b f (wSb w)).toNat then x.velem (wDst w) (typeBytes (wType w)) i
          else x.source w (wSa w) (i - (s.sreg b f (wSb w)).toNat)),
        (Instr.vperm, fun _ _ _ w x i => x.source w (wSa w) (x.velem (wSb w) (typeBytes (wType w)) i)),
        (Instr.vmvV, fun s b f w _ _ => (s.sreg b f (wSa w)).toNat % 2 ^ (8 * typeBytes (wType w)))] :
          List ((Nat → Bool → Word → Instr) × (State → Nat → Bool → Word → BlkState → Nat → Nat))),
      ∀ (b : Nat) (f : Bool) (w : Word) (s : State),
        s.vecReady b f w (vecCheck w 0 [0, 1, 2, 3, 4, 5, 6] (s.bst b).vl none) →
        exec (p.1 b f w) s = .next (s.vecDone b f w false fun x => x.writeElems w (typeBytes (wType w)) fun i =>
          (p.2 s b f w x i, false, false))) ∧
    (∀ (b : Nat) (f : Bool) (w : Word) (s : State), wMen w = true →
      s.vecReady b f w (vecCheck w 0 [0, 1, 2, 3, 4, 5, 6] (s.bst b).vl none) →
      let wd := typeBytes (wType w)
      exec (.vmerge b f w) s = .next (s.vecDone b f w false fun x => x.setVelems (wDst w) wd ((List.range x.vl).map fun i =>
        if x.mbit (wMsk w) i then x.velem (wSa w) wd i else x.velem (wSb w) wd i))))

/-- From R119: what writing the active elements of a register leaves: an active element reads as the value written, every other element of the
register, and every other register, as before. From R119, R121, R140, R143, R149 to R151, R157: every vector and twine instruction that
works on registers alone (the constructors that `vecForms` lists one by one: the arithmetic, compare, mask, permute, conversion, VSMX,
VOPT, VRNG and TW instructions) completes: it retires into the vector queue with completion code 0. It changes no element of v[DST] and no
bit of a mask register but those its row names: the active elements, or those that VMERGE, a softmax instruction, a reduction or TW.CRD
writes; the active bits of m[DST] for a compare, a mask operation and VRNG.KEEP, and with MFE the bits of m[MF] for VSMX.NORM. No other
vector register changes, no counter bank but those that TW.CCLR names, no scalar register, no configuration item but for the flags of item
4 that the row names, which are set and never cleared, no vl or type, no byte of block-local memory and none of HBM; with vl = 0 it
changes no vector state at all. What log entries 30 and 95 say in it is the model's choice. -/
def Obligations.VectorElementFrame : Prop :=
  (∀ (x : BlkState) (w : Word) (wd : Nat) (g : Nat → Nat × Bool × Bool), 0 < wd → x.vl * wd ≤ 4096 →
      (∀ i, (i + 1) * wd ≤ 4096 → (x.writeElems w wd g).velem (wDst w) wd i =
        if i < x.vl ∧ (wMen w = false ∨ x.mbit (wMsk w) i = true) then (g i).1 % 2 ^ (8 * wd) else x.velem (wDst w) wd i) ∧
      (∀ r, r ≠ wDst w → (x.writeElems w wd g).vreg r = x.vreg r) ∧
      (x.writeElems w wd g).mregs = x.mregs ∧ (x.writeElems w wd g).mem = x.mem ∧ (x.writeElems w wd g).main = x.main ∧
      (x.writeElems w wd g).fill = x.fill) ∧
  (∀ p ∈ vecForms, ∀ (b : Nat) (f : Bool) (w : Word) (s : State),
      s.vecRoom b f w (vecCheck w p.2.1 p.2.2.1 (s.bst b).vl (p.2.2.2.1 w (s.bst b).vl)) →
      ∃ t, exec (p.1 b f w) s = .next t ∧ (t.cset b f).pc = (s.cset b f).pc + 8 ∧
        (t.bst b).vq = (s.bst b).vq ++
          [⟨f, if wTk w then some (wTicket w) else none, (s.cset b f).pc.toNat, 0, p.2.2.2.2.1⟩] ∧
        (let d := p.2.2.2.2.2
         (∀ i, d.elem w (s.bst b) i = false → (t.bst b).velem (wDst w) (d.width w) i = (s.bst b).velem (wDst w) (d.width w) i) ∧
         (∀ r i, d.mask w (s.bst b) r i = false → (t.bst b).mbit r i = (s.bst b).mbit r i) ∧
         (∀ k, d.bank w k = false → (t.bst b).bank k = (s.bst b).bank k) ∧
         (∀ i, ((s.bst b).cfgItem 4).getLsbD i = true → ((t.bst b).cfgItem 4).getLsbD i = true) ∧
         ∀ i, i ∉ d.flags → ((t.bst b).cfgItem 4).getLsbD i = ((s.bst b).cfgItem 4).getLsbD i) ∧
        (∀ r, r ≠ wDst w → (t.bst b).vreg r = (s.bst b).vreg r) ∧
        (∀ i, i ≠ 4 → (t.bst b).cfgItem i = (s.bst b).cfgItem i) ∧ (t.bst b).vl = (s.bst b).vl ∧
        (t.bst b).vtype = (s.bst b).vtype ∧ (∀ n, t.sreg b f n = s.sreg b f n) ∧ s.sameLocal t ∧ s.sameHbm t ∧
        (∀ b', b' ≠ b → t.blk b' = s.blk b') ∧ ((s.bst b).vl = 0 → s.sameVector t))

/-- From R123, R127, R159, R544: a vector or twine instruction whose issue check fails is a precise fault, whose code enters
VEC_STATUS.LAST_CODE where R159 lists it; one that passes stalls while the vector queue holds eight, while the register file is tested, or
while its ticket is BUSY. What log entry 27 says in it is the model's choice. -/
def Obligations.VectorIssueChecks : Prop :=
  ∀ p ∈ vecForms, ∀ (b : Nat) (f : Bool) (w : Word) (s : State), s.issues b f →
    (∀ e, vecCheck w p.2.1 p.2.2.1 (s.bst b).vl (p.2.2.2.1 w (s.bst b).vl) = some e →
      exec (p.1 b f w) s = .next (((s.clocked b f).vecLast b e).coreFault b f 0 e (s.cset b f).pc.toNat w.toNat)) ∧
    (vecCheck w p.2.1 p.2.2.1 (s.bst b).vl (p.2.2.2.1 w (s.bst b).vl) = none →
      8 ≤ (s.bst b).vq.length ∨ (s.blk b).vregTest = true ∨ (wTk w = true ∧ s.ticketBusy b f (wTicket w) = true) →
      exec (p.1 b f w) s = .next (s.held b f .stall))

/-- From R120, R124, R156: VSETVL sets vl and the type at issue and writes the new vl; VCFG writes a configuration item in queue order; VMV.S,
VCFG.RD and MPOP wait for the vector queue to empty and write s[DST]. With vl = 0 VMV.S, VCFG.RD and MPOP write nothing, and VCFG leaves
item 4, the flags, as it is (R119). What log entry 95 says in it is the model's choice. -/
def Obligations.VectorConfiguration : Prop :=
  ∀ (b : Nat) (f : Bool) (w : Word) (s : State), s.issues b f →
    (wTk w = false → wTicket w = 0 → vecCheck w 0 [0, 1, 2, 3, 4, 5, 6] 0 none = none →
      let vl := Nat.min (s.sreg b f (wSa w)).toNat (if typeBytes (wType w) = 8 then 512 else 1024)
      exec (.vsetvl b f w) s = .next ((((s.clocked b f).modBst b fun x => { x with vl := vl, vtype := wType w }).setSreg b f (wDst w)
        (BitVec.ofNat 64 vl)).retired b f ((s.cset b f).pc + 8))) ∧
    (wTk w = false → wBits w 7 0 ≤ 4 → vecCheck w (bitMask 7 0) [] 0 none = none → (s.bst b).vq.length < 8 →
      (s.blk b).vregTest = false →
      ((s.bst b).vl = 0 → wBits w 7 0 = 4 → exec (.vcfg b f w) s =
        .next (((s.clocked b f).pushVec b f w 0 false).retired b f ((s.cset b f).pc + 8))) ∧
      ((s.bst b).vl ≠ 0 ∨ wBits w 7 0 ≠ 4 → s.fld RPL_CTRL_MODE = 0 → exec (.vcfg b f w) s = .next (s.vecDone b f w false fun x =>
        { x with cfg := SMap.set (fun _ => 0) x.cfg (wBits w 7 0) (s.sreg b f (wSa w)) }))) ∧
    (wTk w = false → wTicket w = 0 → (s.bst b).vq = [] → (s.blk b).vregTest = false →
      let write := fun v => if (s.bst b).vl = 0 then (s.clocked b f).retired b f ((s.cset b f).pc + 8) else s.wrote b f (wDst w) v
      (wBits w 7 0 ≤ 4 → vecCheck w (bitMask 7 0) [] (s.bst b).vl none = none →
        exec (.vcfgRd b f w) s = .next (write ((s.bst b).cfgItem (wBits w 7 0)))) ∧
      (wSa w < 8 → vecCheck w 0 [] (s.bst b).vl none = none →
        exec (.mpop b f w) s = .next (write
          (BitVec.ofNat 64 ((List.range (s.bst b).vl).filter fun i => (s.bst b).mbit (wSa w) i).length))) ∧
      (wBits w 9 0 < vlMax (wType w) → vecCheck w (bitMask 9 0) [0, 1, 2, 3, 4, 5, 6] (s.bst b).vl none = none →
        let raw := (s.bst b).velem (wSa w) (typeBytes (wType w)) (wBits w 9 0)
        exec (.vmvS b f w) s = .next (write
          (if wType w < 4 then BitVec.ofNat 64 raw else BitVec.ofInt 64 (signed (8 * typeBytes (wType w)) raw)))))

/-- From R119, R132, R133: VLD writes each active element of v[DST] with the bytes at its address. Every element that is not active, the other
half of the register where UPPER names one, every other vector or mask register, counter bank, configuration item and scalar register,
every other block, and memory stay as they are. From R132 to R134, R142: VST writes each active element to its address, the last of two
that meet, and no other byte of its block or of another; with AMX the amax of bank CB takes the elements it stores, and nothing else of
the banks changes. No vector, mask or scalar register, no configuration item and no other block changes. The data register is v[SB], with
STRIDED v[DST]. What log entry 30 says in it is the model's choice. -/
def Obligations.VectorMemory : Prop :=
  (∀ (b : Nat) (f : Bool) (w : Word) (s : State),
      s.vecReady b f w (vecCheck w (bitMask 23 18) [0, 1, 2, 3, 4, 5, 6] (s.bst b).vl (ldstCheck w true)) →
      let wd := typeBytes (wType w)
      let step := if wVs w then (s.sreg b f (wSb w)).toNat else wd
      let addr := fun i => ((s.sreg b f (wSa w)).toNat + i * step) % 2 ^ 64
      let active := fun i => i < (s.bst b).vl ∧ (wMen w = false ∨ (s.bst b).mbit (wMsk w) i = true)
      let off := if w.getLsbD 22 then 2048 else 0
      (∀ i, active i → addr i % wd = 0 ∧ addr i + wd ≤ 0x440000 ∧ s.localPoisoned b (addr i) wd = false) →
      ∃ t, exec (.vld b f w) s = .next t ∧ (t.cset b f).pc = (s.cset b f).pc + 8 ∧
        (∀ i, active i → (t.bst b).velem (wDst w) wd i off = leNat (s.localBytes b (addr i) wd)) ∧
        (∀ i, ¬ active i → (t.bst b).velem (wDst w) wd i off = (s.bst b).velem (wDst w) wd i off) ∧
        (off = 2048 → ∀ i, i < 1024 → (t.bst b).velem (wDst w) 2 i = (s.bst b).velem (wDst w) 2 i) ∧
        (∀ r, r ≠ wDst w → (t.bst b).vreg r = (s.bst b).vreg r) ∧ (t.bst b).mregs = (s.bst b).mregs ∧
        (t.bst b).banks = (s.bst b).banks ∧ (t.bst b).cfg = (s.bst b).cfg ∧ (t.bst b).vl = (s.bst b).vl ∧
        (t.bst b).vtype = (s.bst b).vtype ∧ (∀ n, t.sreg b f n = s.sreg b f n) ∧ (∀ b', b' ≠ b → t.blk b' = s.blk b') ∧
        s.sameLocal t ∧ s.sameHbm t) ∧
  (∀ (b : Nat) (f : Bool) (w : Word) (s : State),
      s.vecReady b f w (vecCheck w (bitMask 23 18) [0, 1, 2, 3, 4, 5, 6] (s.bst b).vl (ldstCheck w false)) →
      let wd := typeBytes (wType w)
      let step := if wVs w then (s.sreg b f (wSb w)).toNat else wd
      let addr := fun i => ((s.sreg b f (wSa w)).toNat + i * step) % 2 ^ 64
      let active := fun i => i < (s.bst b).vl ∧ (wMen w = false ∨ (s.bst b).mbit (wMsk w) i = true)
      let off := if w.getLsbD 22 then 2048 else 0
      let data := if wVs w then wDst w else wSb w
      (∀ i, active i → addr i % wd = 0 ∧ addr i + wd ≤ 0x440000) →
      ∃ t, exec (.vst b f w) s = .next t ∧ (t.cset b f).pc = (s.cset b f).pc + 8 ∧
        (∀ i k, active i → k < wd → (∀ j, active j → i < j → addr i + k < addr j ∨ addr j + wd ≤ addr i + k) →
          (t.bst b).byte (addr i + k) = BitVec.ofNat 8 ((s.bst b).velem data wd i off / 2 ^ (8 * k))) ∧
        (∀ x, (∀ i, active i → x < addr i ∨ addr i + wd ≤ x) → (t.bst b).byte x = (s.bst b).byte x) ∧
        (∀ k, (t.bst b).bank k = if w.getLsbD 21 = true ∧ k = wBits w 20 18 then
          ((List.range (s.bst b).vl).filter fun i => (s.bst b).active w i).foldl
            (fun x i => x.takeAmax (typeVal (wType w) ((s.bst b).velem data wd i off))) ((s.bst b).bank k)
          else (s.bst b).bank k) ∧
        (t.bst b).vregs = (s.bst b).vregs ∧ (t.bst b).mregs = (s.bst b).mregs ∧ (t.bst b).cfg = (s.bst b).cfg ∧
        (t.bst b).vl = (s.bst b).vl ∧ (t.bst b).vtype = (s.bst b).vtype ∧ (∀ n, t.sreg b f n = s.sreg b f n) ∧
        (∀ b', b' ≠ b → t.blk b' = s.blk b') ∧ s.sameHbm t)

/-- From R135 to R139: VST.SP re-blocks a register times its factor, VRB re-blocks a string of any format, and both write the groups and count
their outcomes; VLD.SP widens groups into a register. Their bases are aligned and their ranges lie in the operand store. From R141, R144
to R146: TW.SUMSQ without POST writes the sums of squares of its segments in the fixed order; with POST and a statistics ring it also
writes one record at the ring's index, raises the index and counts the record. From R140 to R143: the reductions write one result to
64-bit element k of v[DST] for each segment k of their elements that are not excluded, in binary64 or as an INT64 count: SUM the sum in
the fixed order, MAX, MIN and AMAX the extreme, COUNT_NONFINITE the count, and ARGMAX the first largest element and its index plus s[SB]
in a pair of elements; with ACC each is combined with what v[DST] holds. TW.CRD writes a counter bank into five elements of v[DST], and
TW.CCLR clears the banks that it names. From R147 to R150: VSMX.STAT writes the state of each row, chunk() or with ACC its merge() with
the old one; VSMX.MERGE the merged states or one of the two factors; and VSMX.WGT and VSMX.NORM write every element of the rows within vl,
with the flags and, with MFE, the mask that R150 states. chunk(), merge(), weight() and norm() go by the cases of R148. What log entry 30
says in it is the model's choice. -/
def Obligations.VectorConversionsAndTwine : Prop :=
  (∀ (b : Nat) (f : Bool) (w : Word) (s : State),
      let vl := (s.bst b).vl
      let groups := (vl + 31) / 32
      let sw := splintWidth (wBits w 17 13)
      let reg := fun r => (s.sreg b f r).toNat
      (s.vecReady b f w (vecCheck w (bitMask 22 8) [0, 1, 2, 3] vl (if 7 < wBits w 17 13 then some VEC_FORMAT_INVALID else none)) →
        reg (wSb w) % 256 = 0 → reg (wDst w) % 16 = 0 → reg (wSb w) + 4 * sw * groups ≤ 0x400000 →
        reg (wDst w) + groups ≤ 0x400000 →
        let x := s.bst b
        let fac := f32.decode (reg (wBits w 22 18) % 2 ^ 32)
        let srcs := (List.range (32 * groups)).map fun i =>
          if x.active w i then typeVal (wType w) (x.velem (wSa w) (typeBytes (wType w)) i) else .fin false 0 0
        exec (.vstSp b f w) s = .next (s.vecDone b f w false fun x =>
          x.emit sw (reg (wSb w)) (reg (wDst w)) (wBits w 12 10) (w.getLsbD 9) (w.getLsbD 8)
            (srcs.map fun v => if badScale fac then .nan else v.mul fac) srcs)) ∧
      (s.vecReady b f w (vecCheck w (bitMask 17 13) [2, 3] vl (if 7 < wBits w 17 13 then some VEC_FORMAT_INVALID else none)) →
        reg (wSb w) % 256 = 0 → reg (wSa w) % 16 = 0 → reg (wSb w) + 4 * sw * groups ≤ 0x400000 →
        reg (wSa w) + groups ≤ 0x400000 → s.localPoisoned b (reg (wSb w)) (4 * sw * groups) = false →
        s.localPoisoned b (reg (wSa w)) groups = false →
        exec (.vldSp b f w) s = .next (s.vecDone b f w false fun x => x.writeElems w (typeBytes (wType w)) fun i =>
          let v := splintVal sw ((s.localBytes b (reg (wSa w)) groups).getD (i / 32) 0).toNat
            (signed sw (leNat (s.localBytes b (reg (wSb w)) (4 * sw * groups)) / 2 ^ (sw * i)))
          ((typeFmt (wType w)).encode v, false, ((typeFmt (wType w)).decode ((typeFmt (wType w)).encode v)).isInf))) ∧
      (let code := wBits w 12 8
       let n := if code < 8 then splintWidth code else importBits code
       let bytes := (vl * n + 7) / 8
       let sx := wBits w 22 18
       s.vecReady b f w (vecCheck w (bitMask 22 3) [] vl none) → wMen w = false → wMsk w = 0 → code ≤ 0x13 → wBits w 17 13 ≤ 7 →
        (0x10 ≤ code → sx = 0) → reg (wSa w) % 256 = 0 → reg (wSb w) % 256 = 0 → reg (wDst w) % 16 = 0 →
        reg (wSa w) + bytes ≤ 0x400000 → reg (wSb w) + 4 * sw * groups ≤ 0x400000 → reg (wDst w) + groups ≤ 0x400000 →
        s.localPoisoned b (reg (wSa w)) bytes = false →
        (code ≤ 0x0D → reg sx % 16 = 0 ∧ reg sx + groups ≤ 0x400000 ∧ s.localPoisoned b (reg sx) groups = false) →
        let scale := f32.decode (reg sx % 2 ^ 32)
        let pad := if (code = 0x0E ∨ code = 0x0F) ∧ badScale scale = true then FVal.nan else .fin false 0 0
        let srcs := (List.range vl).map (vrbVal code (leNat (s.localBytes b (reg (wSa w)) bytes))
          (if code ≤ 0x0D then s.localBytes b (reg sx) groups else []) scale)
        exec (.vrb b f w) s = .next (s.vecDone b f w false fun x =>
          x.emit sw (reg (wSb w)) (reg (wDst w)) (wBits w 7 5) (w.getLsbD 4) (w.getLsbD 3)
            (srcs ++ List.replicate (32 * groups - vl) pad) srcs))) ∧
  (∀ (b : Nat) (f : Bool) (w : Word) (s : State),
      s.vecReady b f w (vecCheck w (bitMask 23 17) [0, 1, 2, 3, 4, 5, 6] (s.bst b).vl (twineCheck w true false (s.bst b).vl)) →
      let item := ((s.bst b).cfgItem 3).toNat
      (w.getLsbD 18 = false ∨ bits item 4 0 = 0 →
        exec (.twSumsq b f w) s = .next (s.vecDone b f w true fun x => x.reduce w (sumSeg w true))) ∧
      (∀ c s2, w.getLsbD 18 = true → bits item 4 0 ≠ 0 → (s.blk b).ctx = some c →
        (let s1 := (s.clocked b f).modBst b fun x => x.reduce w (sumSeg w true)
         s1.vwrite c ((((s.bst b).cfgItem 2).toNat + 32 * (bits item 63 32 % 2 ^ bits item 4 0)) % 2 ^ 64)
          (s.statRecord b f w ((s1.bst b).velem (wDst w) 8 0)) = (.ok (), s2)) →
        exec (.twSumsq b f w) s = .next ((((s2.modBst b fun x =>
          { x with cfg := SMap.set (fun _ => 0) x.cfg 3 (BitVec.ofNat 64 (withBits item 63 32 (bits item 63 32 + 1))) }).count
            (BLK_VEC_COUNT_STAT_RECORDS b) 1).pushVec b f w 0 true).retireTo b f ((s.cset b f).pc + 8)))) ∧
  ((∀ p ∈ ([
        (Instr.twSum, fun w bd l prior =>
          let p := if wVs w then f64.decode prior else .fin false 0 0
          let r := twineSum (perBeat (wType w)) (wBits w 22 19) bd.1 bd.2 (leafOf l) p
          (f64.encode r, resultFlags (p :: l.map fun x => x.2) r)),
        (Instr.twMax, fun w _ l prior =>
          let r := l.foldl (fun m x => m.maximum x.2) (.inf true)
          (f64.encode (if wVs w then (f64.decode prior).maximum r else r), false, false)),
        (Instr.twMin, fun w _ l prior =>
          let r := l.foldl (fun m x => m.minimum x.2) (.inf false)
          (f64.encode (if wVs w then (f64.decode prior).minimum r else r), false, false)),
        (Instr.twAmax, fun w _ l prior =>
          let r := (l.filter fun x => !x.2.isNan).foldl (fun m x => m.maximum x.2.abs) (.fin false 0 0)
          (f64.encode (if wVs w then (f64.decode prior).maximum r else r), false, false)),
        (Instr.twCountNonfinite, fun w _ l prior =>
          ((l.filter fun x => !x.2.isFin).length + (if wVs w then prior else 0), false, false))] :
          List ((Nat → Bool → Word → Instr) × (Word → Nat × Nat → List (Nat × FVal) → Nat → Nat × Bool × Bool))),
      ∀ (b : Nat) (f : Bool) (w : Word) (s : State),
        s.vecReady b f w (vecCheck w (bitMask 23 17) [0, 1, 2, 3, 4, 5, 6] (s.bst b).vl (twineCheck w false false (s.bst b).vl)) →
        exec (p.1 b f w) s = .next (s.vecDone b f w true fun x =>
          let seg := wBits w 22 19
          let rs := (List.range (if seg = 0 then 1 else (x.vl + 2 ^ seg - 1) / 2 ^ seg)).map fun k =>
            let bd := if seg = 0 then (0, x.vl) else (k * 2 ^ seg, Nat.min ((k + 1) * 2 ^ seg) x.vl)
            p.2 w bd ((((List.range bd.2).drop bd.1).filter (x.active w)).map fun i =>
              (i, widen (wType w) (x.velem (wSa w) (typeBytes (wType w)) i))) (x.velem (wDst w) 8 k)
          ((x.setVelems (wDst w) 8 (rs.map fun r => r.1)).raise 0 (rs.any fun r => r.2.1)).raise 1 (rs.any fun r => r.2.2))) ∧
    (∀ (b : Nat) (f : Bool) (w : Word) (s : State),
      s.vecReady b f w (vecCheck w (bitMask 23 17) [0, 1, 2, 3, 4, 5, 6] (s.bst b).vl (twineCheck w false true (s.bst b).vl)) →
      exec (.twArgmax b f w) s = .next (s.vecDone b f w true fun x =>
        x.setVelems (wDst w) 8 ((List.range (segCount x.vl (wBits w 22 19))).flatMap fun k =>
          let bd := segBounds x.vl (wBits w 22 19) k
          let best := argBest (x.segElems w bd.1 bd.2)
          let prior := f64.decode (x.velem (wDst w) 8 (2 * k))
          if wVs w = true ∧ (prior.isNan = true ∨ best.1.isNan = false ∧ aboveVal best.1 prior = false) then
            [f64.encode prior, x.velem (wDst w) 8 (2 * k + 1)]
          else [f64.encode best.1, match best.2 with | some i => (i + (s.sreg b f (wSb w)).toNat) % 2 ^ 64 | none => 2 ^ 64 - 1]))) ∧
    argBest [] = (.inf true, none) ∧
    (∀ (l r : List (Nat × FVal)) (p : Nat × FVal), (∀ q ∈ l, q.2.isNan = false) → p.2.isNan = true →
      argBest (l ++ p :: r) = (.nan, some p.1)) ∧
    (∀ (l r : List (Nat × FVal)) (p : Nat × FVal), (∀ q ∈ l ++ p :: r, q.2.isNan = false) → (∀ q ∈ l, aboveVal p.2 q.2 = true) →
      (∀ q ∈ r, aboveVal q.2 p.2 = false) → argBest (l ++ p :: r) = (p.2, some p.1)) ∧
    (∀ (n : Nat) (l r : List FVal), n < 10 → l.length = 2 ^ n → r.length = 2 ^ n →
      pairTree 10 (l ++ r) = rnd64 ((pairTree 10 l).add (pairTree 10 r))) ∧
    (∀ (b : Nat) (f : Bool) (w : Word) (s : State), s.vecReady b f w (vecCheck w (bitMask 2 0) [] (s.bst b).vl none) →
      exec (.twCrd b f w) s = .next (s.vecDone b f w true fun x =>
        let k := x.bank (wBits w 2 0)
        x.setVelems (wDst w) 8 [k.exact, k.inexact, k.saturated, k.nonfinite, f64.encode (f32.decode k.amax.toNat)])) ∧
    (∀ (b : Nat) (f : Bool) (w : Word) (s : State), s.vecReady b f w (vecCheck w (bitMask 7 0) [] (s.bst b).vl none) →
      ∃ t, exec (.twCclr b f w) s = .next t ∧ (t.cset b f).pc = (s.cset b f).pc + 8 ∧
        ∀ k, k < 8 → (t.bst b).bank k = if w.getLsbD k then .reset else (s.bst b).bank k)) ∧
  ((∀ (b : Nat) (f : Bool) (w : Word) (s : State),
      s.vecReady b f w (vecCheck w (bitMask 23 19) [0, 2] (s.bst b).vl (smxCheck w (s.bst b).vl)) →
      ∃ t, exec (.vsmxStat b f w) s = .next t ∧ (t.cset b f).pc = (s.cset b f).pc + 8 ∧
        ∀ r, r < segCount (s.bst b).vl (wBits w 22 19) →
          let x := s.bst b
          let bd := segBounds x.vl (wBits w 22 19) r
          let chunk := smxChunk (perBeat (wType w)) (wBits w 22 19) bd.1 bd.2 ((((List.range bd.2).drop bd.1).map fun i =>
            (i, typeVal (wType w) (x.velem (wSa w) (typeBytes (wType w)) i))).filter fun p =>
              (!wMen w || x.mbit (wMsk w) p.1) && p.2 != .inf true)
          (t.bst b).velem (wDst w) 16 r = (if wVs w then (smxMerge (x.rowState (wDst w) r) chunk).1 else chunk).pat % 2 ^ 128) ∧
    (∀ (b : Nat) (f : Bool) (w : Word) (s : State), wBits w 23 22 ≠ 3 → (s.bst b).vl ≤ 32 →
      s.vecReady b f w (vecCheck w (bitMask 23 22) [0, 2] (s.bst b).vl none) →
      ∃ t, exec (.vsmxMerge b f w) s = .next t ∧ (t.cset b f).pc = (s.cset b f).pc + 8 ∧ ∀ r, r < (s.bst b).vl →
        let m := smxMerge ((s.bst b).rowState (wDst w) r) ((s.bst b).rowState (wSa w) r)
        (wBits w 23 22 = 0 → (t.bst b).velem (wDst w) 16 r = m.1.pat % 2 ^ 128) ∧
        (wBits w 23 22 = 1 → (t.bst b).velem (wDst w) 4 r = f32.encode m.2.1 % 2 ^ 32) ∧
        (wBits w 23 22 = 2 → (t.bst b).velem (wDst w) 4 r = f32.encode m.2.2 % 2 ^ 32)) ∧
    (∀ p ∈ ([(Instr.vsmxWgt, bitMask 22 19, false), (Instr.vsmxNorm, bitMask 22 15, true)] :
        List ((Nat → Bool → Word → Instr) × Nat × Bool)), ∀ (b : Nat) (f : Bool) (w : Word) (s : State),
      s.vecReady b f w (vecCheck w p.2.1 [0, 2] (s.bst b).vl (smxCheck w (s.bst b).vl)) →
      let x := s.bst b
      let seg := wBits w 22 19
      let row := fun i => x.rowState (wSb w) (if seg = 0 then 0 else i / 2 ^ seg)
      let score := fun i => typeVal (wType w) (x.velem (wSa w) (typeBytes (wType w)) i)
      let out := fun i => wMen w && !x.mbit (wMsk w) i || score i == .inf true
      let empty := fun i => (row i).m == .inf true && (row i).k == 0
      let hot := fun i => (row i).k != 0 && !(row i).m.isNan && score i == .inf false && !out i
      ∃ t, exec (p.1 b f w) s = .next t ∧ (t.cset b f).pc = (s.cset b f).pc + 8 ∧ ∀ i, i < x.vl →
        (t.bst b).velem (wDst w) (typeBytes (wType w)) i = (typeFmt (wType w)).encode
          (if p.2.2 then f32.decode (smxNorm (score i) (out i) (row i)) else smxWeight (score i) (out i) (row i)) %
            2 ^ (8 * typeBytes (wType w)) ∧
        (p.2.2 = true →
          (empty i = true → ((t.bst b).cfgItem 4).getLsbD 2 = true) ∧ ((row i).k ≠ 0 → ((t.bst b).cfgItem 4).getLsbD 3 = true) ∧
          (w.getLsbD 18 = true → (t.bst b).mbit (wBits w 17 15) i =
            (empty i || (List.range 32).any fun j => decide (i / 32 * 32 + j < x.vl) && hot (i / 32 * 32 + j))))) ∧
    (∀ (n seg lo hi : Nat) (l : List (Nat × FVal)),
      let infs := (l.filter fun p => p.2 == .inf false).length
      ((∃ p ∈ l, p.2.isNan = true) → smxChunk n seg lo hi l = ⟨.nan, 0, .nan⟩) ∧
      ((∀ p ∈ l, p.2.isNan = false) →
        (0 < infs → smxChunk n seg lo hi l = ⟨.inf false, infs, .fin false infs 0⟩) ∧
        (l = [] → smxChunk n seg lo hi l = ⟨.inf true, 0, .fin false 0 0⟩) ∧
        (infs = 0 → l ≠ [] →
          let m := l.foldl (fun m p => m.maximum p.2) (.inf true)
          smxChunk n seg lo hi l = ⟨m, 0, twineSum n seg lo hi
            (leafOf (l.map fun p => (p.1, f64.decode (f64.fn .exp (p.2.add m.neg))))) (.fin false 0 0)⟩))) ∧
    (∀ (x y : RowState),
      let k := Nat.min (x.k + y.k) (2 ^ 32 - 1)
      let one := fun z => if z = 0 then FVal.fin false 0 0 else .fin false 1 0
      (x.m.isNan = true ∨ y.m.isNan = true → smxMerge x y = (⟨.nan, 0, .nan⟩, .nan, .nan)) ∧
      (x.m.isNan = false → y.m.isNan = false →
        (k ≠ 0 → smxMerge x y = (⟨.inf false, k, .fin false k 0⟩, one x.k, one y.k)) ∧
        (k = 0 →
          let m := x.m.maximum y.m
          let fa := if x.m = .inf true then FVal.fin false 0 0 else f64.decode (f64.fn .exp (x.m.add m.neg))
          let fb := if y.m = .inf true then FVal.fin false 0 0 else f64.decode (f64.fn .exp (y.m.add m.neg))
          (m = .inf true → smxMerge x y = (⟨.inf true, 0, .fin false 0 0⟩, .fin false 0 0, .fin false 0 0)) ∧
          (m ≠ .inf true → smxMerge x y = (⟨m, 0, rnd64 ((fa.mul x.s).add (fb.mul y.s))⟩, fa, fb))))) ∧
    (∀ (v : FVal) (out : Bool) (t : RowState),
      smxWeight v out t = (if t.m.isNan = true then .nan else if out = true then .fin false 0 0
        else if t.k ≠ 0 then (if v = .inf false then .fin false 1 0 else .fin false 0 0)
        else if v = .inf true ∨ t.m = .inf true then .fin false 0 0 else f64.decode (f64.fn .exp (v.add t.m.neg))) ∧
      smxNorm v out t = (if t.m.isNan = true then f32.nanBits else if out = true ∨ t.m = .inf true ∧ t.k = 0 then 0
        else if t.k ≠ 0 then (if v = .inf false then f32.div (.fin false 1 0) (.fin false t.k 0) else 0)
        else f32.div (smxWeight v out t) t.s)))

/-- From R121, R123, R158, R187, R431: the oldest entry of the vector queue completes its ticket with its code, or, without a ticket, reports
a fault code; the register file's self-test ends with the evidence of a transient, or the block leaves service. What log entry 30 says in
it is the model's choice. -/
def Obligations.VectorEvents : Prop :=
  (∀ (b : Nat) (s : State) (e : VEntry) (rest : List VEntry), s.powered = true → (s.blk b).discard = false →
    (s.bst b).vq = e :: rest →
    let s1 := s.modBst b fun x => { x with vq := rest }
    (∀ t, e.ticket = some t → exec (.vectorInstructionComplete b) s = .next (s1.completeHere b e.f t 3 0 e.code)) ∧
    (e.ticket = none → e.code = 0 → exec (.vectorInstructionComplete b) s = .next s1) ∧
    (e.ticket = none → e.code ≠ 0 → exec (.vectorInstructionComplete b) s =
      .next (s1.coreFault b e.f 0x60 e.code e.pc (completionWord 0 3 e.code).toNat))) ∧
  (∀ (b : Nat) (s : State), s.powered = true → (s.blk b).vregTest = true →
    let s1 := s.modBlk b fun x => { x with vregTest := false, vregTestInjected := false }
    ((s.blk b).vregTestInjected = true → exec (.vregSelftestDone b true) s = .next s1) ∧
    ((s.blk b).vregTestInjected = false → exec (.vregSelftestDone b true) s =
      .next ((s1.setFld RST_STATUS_LAST_CODE VREG_TRANSIENT).health .transient ⟨none, VREG_TRANSIENT, 0x0AFF, b, 0⟩)) ∧
    exec (.vregSelftestDone b false) s = .next (s1.blockLeaves b VREG_PARITY))

/-- From R238, R239: a move that passes its issue checks takes its ticket and joins the moves of its block; with eight moves or a BUSY ticket
it stalls; a check that fails is a precise fault. MOVE, MOVE.FILL and MOVE.NC differ in their kind. From R239 to R241: a burst of a move
between block-local memory and HBM, either way, copies its bytes, where a byte that the move itself has written may be taken as it was
before (log entry 33), and a burst of a fill writes the pattern; no other byte changes of any block or of HBM. Inside a row the move goes
on behind the burst, at the end of a row with the next row, and at the end of the last row it leaves the queue and completes its ticket,
with MOVE_POISON_CARRIED and the row where one carried poison. What log entries 27, 33 and 98 say in it is the model's choice. -/
def Obligations.MoveEngine : Prop :=
  (∀ p ∈ ([(Instr.move, 0), (Instr.moveFill, 1), (Instr.moveNc, 2)] : List ((Nat → Bool → Word → Instr) × Nat)),
      ∀ (b c : Nat) (f : Bool) (w : Word) (s : State), s.issues b f → (s.blk b).ctx = some c →
        let shape := (s.sreg b f (wSb w)).toNat
        let strides := (s.sreg b f (wBits w 31 27)).toNat
        let m : Move :=
          { id := s.moveId, blk := b, ctx := s.homeIndex c b, tag := s.tagOf c, f := f, ticket := wTicket w, kind := p.2,
            src := s.sreg b f (wSa w), dst := s.sreg b f (wDst w), srcVirt := w.getLsbD 26, dstVirt := w.getLsbD 25,
            rows := bits shape 47 32 + 1, len := bits shape 31 0,
            srcStride := if wBits w 31 27 = 0 then bits shape 31 0 else bits strides 31 0,
            dstStride := if wBits w 31 27 = 0 then bits shape 31 0 else bits strides 63 32,
            row := 0, col := 0, poisonRow := none, paused := false, dest := none, got := none, again := 0, olds := [] }
        (s.moveCheck b f w p.2 = none → (s.movesOf b).length < 8 → s.ticketBusy b f (wTicket w) = false →
          ∃ t, exec (p.1 b f w) s = .next t ∧ t.moves = s.moves ++ [m] ∧ t.moveId = s.moveId + 1 ∧
            (t.cset b f).pc = (s.cset b f).pc + 8 ∧ ((t.cset b f).ticket (wTicket w)).st = .busy ∧ s.sameHbm t ∧ s.sameLocal t) ∧
        (s.moveCheck b f w p.2 = none → 8 ≤ (s.movesOf b).length ∨ s.ticketBusy b f (wTicket w) = true →
          exec (p.1 b f w) s = .next (s.held b f .stall)) ∧
        (∀ e, s.moveCheck b f w p.2 = some e → exec (p.1 b f w) s = .next (s.faulted b f w e))) ∧
  (∀ (id : Nat) (s : State) (m : Move) (src : Nat → Byte) (dpa : Option Nat), s.quiet → (s.moves.find? fun x => x.id == id) = some m →
      s.moveRuns m = true → m.got = none → m.col < m.len → m.row < m.rows →
      let c := m.tag / 256
      let n := m.burst
      (m.kind ≠ 1 → m.srcVirt = false → m.srcAt + n ≤ 0x440000 ∧ s.localPoisoned m.blk m.srcAt n = false ∧
        src = fun i => (s.bst m.blk).byte (m.srcAt + i)) →
      (m.kind ≠ 1 → m.srcVirt = true → s.walkWaits c m.srcAt = false ∧ ∃ pa, s.translate c m.srcAt .read = .ok (0, pa) ∧
        (∀ u ∈ unitsOf pa n, s.frameBusy (u * 256) = false) ∧ (∀ i, i < n → s.hbmPoisoned (pa + i) = false) ∧
        src = fun i => s.hbmByte (pa + i)) →
      (if m.dstVirt = true then s.walkWaits c m.dstAt = false ∧ ∃ pa, s.translate c m.dstAt .write = .ok (0, pa) ∧
        s.writeHeld pa n = false ∧ dpa = some pa else dpa = none) →
      let isEnd := m.len ≤ m.col + n ∧ m.rows ≤ m.row + 1
      ∃ u, exec (.moveBurst id) s = .next (if isEnd then
          u.completeOp m.blk m.tag m.ctx m.f m.ticket 4 (m.poisonRow.getD 0) (if m.poisonRow.isSome then MOVE_POISON_CARRIED else 0)
          else u) ∧
        (∀ i, i < n →
          let v := match dpa with | some pa => u.hbmByte (pa + i) | none => (u.bst m.blk).byte (m.dstAt + i)
          if m.kind = 1 then v = BitVec.ofNat 8 (m.src.toNat / 2 ^ (8 * ((m.col + i) % 8)))
          else v = src i ∨ (m.srcAt + i, v) ∈ m.olds) ∧
        (∀ b x, dpa ≠ none ∨ b ≠ m.blk ∨ x < m.dstAt ∨ m.dstAt + n ≤ x → (u.bst b).byte x = (s.bst b).byte x) ∧
        (∀ a, (∀ pa, dpa = some pa → a < pa ∨ pa + n ≤ a) → u.hbmByte a = s.hbmByte a) ∧
        (isEnd → u.moves = s.moves.filter fun x => x.id != m.id) ∧
        (¬ isEnd → ∃ o, u.moves = s.moves.map fun x => if x.id = m.id then
          { m with row := if m.col + n < m.len then m.row else m.row + 1, col := if m.col + n < m.len then m.col + n else 0,
                   dest := none, got := none, again := 0, olds := o } else x))

/-- From R356, R377: PLAIT and PLAIT.FENCE take their ticket and join the block's plait queue, and PLAIT.HREL releases the hold that its
context has and completes at once, or completes with PLT_HOLD_INVALID for an index above 1,023 or another context's hold; a field that is
RSV is a precise fault, and a full queue or a BUSY ticket stalls. What log entry 53 says in it is the model's choice. -/
def Obligations.PlaitInstructions : Prop :=
  ∀ (b c : Nat) (f : Bool) (w : Word) (s : State), s.issues b f → (s.blk b).ctx = some c →
    (wDst w ≠ 0 ∨ wSb w ≠ 0 ∨ wBits w 31 0 ≠ 0 → ∀ i ∈ ([Instr.plait, .plaitFence, .plaitHrel] : List (Nat → Bool → Word → Instr)),
      exec (i b f w) s = .next (s.faulted b f w PLT_DESC_INVALID)) ∧
    (wDst w = 0 → wSb w = 0 → wBits w 31 0 = 0 →
    let busy := 8 ≤ (s.plaitQueue b).length ∨ s.ticketBusy b f (wTicket w) = true
    let entry := fun fence => (⟨fence, f, wTicket w, s.sreg b f (wSa w), s.tagOf c, s.homeIndex c b⟩ : PlaitIssue)
    (¬ busy → ∃ t, exec (.plait b f w) s = .next t ∧ (t.blk b).pq = s.plaitQueue b ++ [entry false] ∧
      (t.cset b f).pc = (s.cset b f).pc + 8 ∧ ((t.cset b f).ticket (wTicket w)).st = .busy ∧ s.sameHbm t ∧ s.sameLocal t) ∧
    (¬ busy → wSa w = 0 → ∃ t, exec (.plaitFence b f w) s = .next t ∧ (t.blk b).pq = s.plaitQueue b ++ [entry true] ∧
      (t.cset b f).pc = (s.cset b f).pc + 8 ∧ ((t.cset b f).ticket (wTicket w)).st = .busy ∧ s.sameHbm t ∧ s.sameLocal t) ∧
    (¬ busy →
      let h := (s.sreg b f (wSa w)).toNat
      let s1 := (s.clocked b f).takeTicket b f (wTicket w) 5
      (h ≤ 1023 → SMap.get (fun _ => none) s.holds (holdKey (s.ctxOf c).part h) = some c →
        exec (.plaitHrel b f w) s = .next (((s1.releaseHold c h).plaitTicket b (s.tagOf c) (s.homeIndex c b) f (wTicket w) 0 0).retireTo b f
          ((s.cset b f).pc + 8))) ∧
      (1023 < h ∨ (∃ c', c' ≠ c ∧ SMap.get (fun _ => none) s.holds (holdKey (s.ctxOf c).part h) = some c') → exec (.plaitHrel b f w) s =
        .next ((s1.plaitTicket b (s.tagOf c) (s.homeIndex c b) f (wTicket w) 0 PLT_HOLD_INVALID).retireTo b f ((s.cset b f).pc + 8)))) ∧
    (busy → exec (.plait b f w) s = .next (s.held b f .stall) ∧ exec (.plaitHrel b f w) s = .next (s.held b f .stall) ∧
      (wSa w = 0 → exec (.plaitFence b f w) s = .next (s.held b f .stall))) ∧
    (wSa w ≠ 0 → exec (.plaitFence b f w) s = .next (s.faulted b f w PLT_DESC_INVALID)))

/-- From R230, R235, R245, R254: what a write of the registers of invalidations, dirty banks, octet modes and scrubs starts, for whom, and
when it is refused, which is journaled and changes nothing else; one that asks for nothing only stores its fields. From R235, R247, R254,
R392, R416: the oldest scrub waits while its range holds a page of a snapshot or a frame under test, and asks for the pages; one that
completes leaves its range reading 0 and without poison, and no other byte or unit changes, and ends the quarantine of its page under the
generation it was asked for; an invalidation completes while no burst of its context is under way, and leaves no cached translation of the
context that meets its range, and every other. From R233, R236, R246 to R250, R412: a walk for a current tag caches its translation or
fails its requester with its code, precisely where that is a core, and one of an old tag is dropped and counted; a read that mismatches is
re-read, and its frame is tested; a unit whose three re-reads fail is lost and fails its reader; a test of a frame or a bank row ends with
the evidence of a transient, a retirement, a channel failed once, or a block that leaves service. What log entries 3, 8, 9, 31, 32 and 98
say in it is the model's choice. -/
def Obligations.HbmCommands : Prop :=
  ((∀ (a : Auth) (p : Path) (v : Word) (s : State), s.reaches a p HBM_TLBI_CTRL →
      (s.flag HBM_TLBI_CTRL_DONE = false → exec (.tlbiStart a p v) s = .next (s.refuse a p HBM_TLBI_CTRL v)) ∧
      (s.flag HBM_TLBI_CTRL_DONE = true → a = .driver → bitOf v.toNat 62 = true →
        exec (.tlbiStart a p v) s = .next ((s.store a p HBM_TLBI_CTRL v).setFlag HBM_TLBI_CTRL_DONE false)) ∧
      (s.flag HBM_TLBI_CTRL_DONE = true → ¬ (a = .driver ∧ bitOf v.toNat 62 = true) →
        exec (.tlbiStart a p v) s = .next (s.store a p HBM_TLBI_CTRL v))) ∧
    (∀ (a : Auth) (p : Path) (v : Word) (s : State), s.reaches a p HBM_DIRTY_CTRL → bitOf v.toNat 1 = true →
      (s.coilOn = false → a = .operator ∨ a = .driver →
        exec (.dirtySwap a p v) s = .next (s.setFlag HBM_DIRTY_CTRL_ACTIVE (!s.flag HBM_DIRTY_CTRL_ACTIVE))) ∧
      (s.coilOn = true → a = .operator ∨ a = .driver → exec (.dirtySwap a p v) s = .next (s.refuse a p HBM_DIRTY_CTRL v)) ∧
      (a ≠ .operator → a ≠ .driver → exec (.dirtySwap a p v) s =
        .next (s.refuseAuth a p HBM_DIRTY_CTRL (s.reg HBM_DIRTY_CTRL) v))) ∧
    (∀ (a : Auth) (p : Path) (bank idx : Nat) (v : Word) (s : State), s.reaches a p (HBM_DIRTY bank idx) → v ≠ 0 →
      (s.coilOn = false → exec (.dirtyClear a p bank idx v) s = .next (s.store a p (HBM_DIRTY bank idx) v)) ∧
      (s.coilOn = true → exec (.dirtyClear a p bank idx v) s = .next (s.refuse a p (HBM_DIRTY bank idx) v))) ∧
    (∀ (a : Auth) (p : Path) (v : Word) (s : State), s.reaches a p HBM_ILV →
      exec (.hbmIlvWrite a p v) s = .next ((s.store a p HBM_ILV v).forEach
        ((List.range 59).filter fun o => bitOf (s.fld HBM_ILV_LOCAL) o != bitOf ((s.store a p HBM_ILV v).fld HBM_ILV_LOCAL) o)
        fun s o => s.startScrub (o * 2 ^ 33) (2 ^ 33) (.octet o))) ∧
    (∀ (a : Auth) (p : Path) (v : Word) (s : State), s.reaches a p HBM_SCRUB_CTRL →
      (s.flag HBM_SCRUB_CTRL_DONE = false → exec (.scrubStart a p v) s = .next (s.refuse a p HBM_SCRUB_CTRL v)) ∧
      (s.flag HBM_SCRUB_CTRL_DONE = true → bitOf v.toNat 62 = true →
        let s1 := s.store a p HBM_SCRUB_CTRL v
        let base := s1.fld HBM_SCRUB_BASE_BASE * 65536
        let len := Nat.min (s1.fld HBM_SCRUB_CTRL_SIZE * 65536) (usableEnd - base)
        (a = .operator ∨ (a = .driver ∧ s1.driverRange base len = true) →
          exec (.scrubStart a p v) s = .next ((s1.setFlag HBM_SCRUB_CTRL_DONE false).startScrub base len .command)) ∧
        (a ≠ .operator → (a = .driver → s1.driverRange base len = false) →
          exec (.scrubStart a p v) s = .next (s1.refuse a p HBM_SCRUB_CTRL v))) ∧
      (s.flag HBM_SCRUB_CTRL_DONE = true → bitOf v.toNat 62 = false → exec (.scrubStart a p v) s = .next (s.store a p HBM_SCRUB_CTRL v)))) ∧
  ((∀ (s : State) (base len : Nat) (why : ScrubFor) (rest : List (Nat × Nat × ScrubFor)), s.powered = true →
      s.scrubs = (base, len, why) :: rest →
      (s.saveHeld base len = true → exec .scrubDone s = .next (s.askHeld (s.heldIn base len))) ∧
      (s.saveHeld base len = false → ∃ t, exec .scrubDone s = .next t ∧ t.scrubs = rest ∧
        (∀ x, base ≤ x → x < base + len → t.hbmByte x = 0) ∧ (∀ x, x < base ∨ base + len ≤ x → t.hbmByte x = s.hbmByte x) ∧
        (∀ x, t.hbmPoisoned x = if base / 256 ≤ x / 256 ∧ x / 256 < (base + len) / 256 then false else s.hbmPoisoned x) ∧
        (why = .command → t.flag HBM_SCRUB_CTRL_DONE = true) ∧
        (∀ c gen, why = .quarantine c gen → (t.ctxOf c).quar = (s.ctxOf c).quar.filter fun e => !decide (e.base = base ∧ e.gen = gen)))) ∧
    (∀ (s : State), s.powered = true → s.flag HBM_TLBI_CTRL_DONE = false →
      (∀ m ∈ s.moves, m.tag = s.tagOf (s.fld HBM_TLBI_CTRL_CONTEXT) → s.moveOutstanding m.id = false ∧ m.got = none) →
      let lo := s.fld HBM_TLBI_ADDR_VBASE * 65536
      let hi := lo + s.fld HBM_TLBI_CTRL_PAGES * 65536
      ∃ t, exec .tlbiDone s = .next t ∧ t.flag HBM_TLBI_CTRL_DONE = true ∧ s.sameHbm t ∧
        ∀ x, x ∈ t.tlb ↔ x ∈ s.tlb ∧ ¬ (x.tag / 256 = s.fld HBM_TLBI_CTRL_CONTEXT ∧
          (s.flag HBM_TLBI_CTRL_ALL = true ∨ (x.vbase < hi ∧ lo < x.vbase + x.len))))) ∧
  ((∀ (tag : Nat) (va : Word) (acc : Access) (who : Reader) (s : State), s.powered = true → who ≠ .companion →
      (s.tagCurrent tag = false → exec (.pageWalk tag va ⟨acc, who⟩) s = .next (s.count RST_BORDER_LOCAL_DROP 1)) ∧
      (s.tagCurrent tag = true → s.walkWaits (tag / 256) va.toNat = false →
        (∀ x, s.translate (tag / 256) va.toNat acc = .ok x → exec (.pageWalk tag va ⟨acc, who⟩) s = .next (s.cacheXl (tag / 256) va.toNat)) ∧
        (∀ e, s.translate (tag / 256) va.toNat acc = .error e → exec (.pageWalk tag va ⟨acc, who⟩) s =
          .next ((s.walkReads (tag / 256) va.toNat).readFails tag e (0x0400 + s.firstBlock (tag / 256)) va.toNat who)))) ∧
    (∀ (tag code src detail b : Nat) (f : Bool) (w : Word) (s : State), (s.blk b).ctx = some (tag / 256) → s.canIssue b f = true →
      s.readFails tag code src detail (.core b f w) = s.coreFault b f 0 code (s.cset b f).pc.toNat w.toNat) ∧
    (∀ (dpa fails tag : Nat) (walk : Bool) (who : Reader) (s : State), s.powered = true → dpa < 2 ^ 39 → s.hbmPoisoned dpa = false →
      let k := (s.frameOf dpa).1
      (fails < 3 → exec (.hbmReread dpa fails ⟨walk, tag, who⟩) s =
        .next ((s.count (HBM_COUNT_REREADS k) (fails + 1)).startFrameTest k (s.frameOf dpa).2 false)) ∧
      (3 ≤ fails →
        let code := lostCode walk who
        let s1 := ((s.count (HBM_COUNT_REREADS k) 3).loseUnit dpa).lastCode (HBM_STATUS_LAST_CODE k) code
        let s2 := if (k, Config.hbmChannel k (s.frameOf dpa).2) ∈ s.badChannels then s1 else s1.startFrameTest k (s.frameOf dpa).2 false
        s1.hbmPoisoned dpa = true ∧ (s.tagCurrent tag = true →
          exec (.hbmReread dpa fails ⟨walk, tag, who⟩) s = .next (s2.readFails tag code (0x0480 + k) dpa who)))) ∧
    (∀ (k : Nat) (pass : Bool) (s : State) (t : FrameTest) (rest : List FrameTest), s.powered = true →
      takeFirst (fun x : FrameTest => x.stack == k) s.frameTests = (some t, rest) →
      let s1 := (({ s with frameTests := rest } : State).setFlag (HBM_STATUS_SELFTEST k) (rest.any fun x => x.stack == k)).flushHeld
      let ch := (k, Config.hbmChannel k t.frame)
      (ch ∈ s1.badChannels → exec (.frameTestDone k pass false) s = .next s1) ∧
      (ch ∉ s1.badChannels → exec (.frameTestDone k pass false) s =
        .next ((({ s1 with badChannels := s1.badChannels ++ [ch] } : State).setFlag (HBM_STATUS_CHANNEL_FAILED k) true).hbmHealth k
          .lasting HBM_CHANNEL_FAILED)) ∧
      exec (.frameTestDone k true true) s = .next (if t.injected then s1.count (HBM_COUNT_TRANSIENT k) 1
        else (s1.count (HBM_COUNT_TRANSIENT k) 1).hbmHealth k .transient HBM_TRANSIENT) ∧
      exec (.frameTestDone k false true) s = .next (s1.retireFrame k t.frame)) ∧
    (∀ (b row : Nat) (inj : Bool) (rest : List (Nat × Bool)) (s : State), s.powered = true → (s.blk b).rowTests = (row, inj) :: rest →
      let s1 := s.modBlk b fun x => { x with rowTests := rest }
      let s2 := (s1.forEach (List.range 4) fun s i => s.modBst b fun x => x.setLinePoison (bankRowBase row + 256 * i) true).modBlk b
        fun x => x.dropSpare row
      exec (.sramRowTestDone b true) s = .next (s1.healthUnless inj .transient ⟨none, SRAM_TRANSIENT, 0x0400 + b, 0, 0⟩) ∧
      (∀ n, (s2.blk b).freeRowSpare (row / 256) = some n → exec (.sramRowTestDone b false) s =
        .next (((s2.modBlk b fun x => { x with rowSpares := SMap.set (fun _ => 4) x.rowSpares row n }).health .repaired
          ⟨none, SRAM_ROW_RETIRED, 0x0400 + b, 0, 0⟩).mailRepair 3 b row n)) ∧
      ((s2.blk b).freeRowSpare (row / 256) = none → exec (.sramRowTestDone b false) s =
        .next (s2.blockLeaves b (if row / 256 < 16 then OPSTORE_PARITY else ACC_PARITY)))))

/-- From R16, R20, R21, R23: a write of the epoch is refused while a partition exists or for 0; the first identifier, or the one that stands,
is stored and no more; another clears LOCKED, disarms every slot, drops the beacons of the old epoch, and puts a locked device without a
PTP source in holdover with its estimate as it was. From step 6 of upsett on, a PTP message is discarded where the other port's latest one
has its sequence identifier and counts; else one of a slave gives its source its offset less ASYM_NS and twice its path delay, and the
servo takes it; one of another port takes the source away. The servo loads the estimate before the first lock and steps it only forward,
when it is behind by more than STEP_NS. A source that is lost is dropped from the combination, and where none is left in use the device is
in holdover, its slew gone and its frequency correction kept. A bound beyond HOLD_LIMIT_NS sets DEGRADED, and a second of good offsets
with a source in use clears both and brings LOCKED back. A write of the epoch by another class changes no bit of it. From R25 to R28: a
write of a slot's control register by a class that may write its level stores it, and where it arms, MISSED is cleared, and ARMED reads 0
for an action that the level does not allow; the driver's write for a target that is not its own is refused, and one by any other class
changes nothing of the slot but FIRED, which a 1 clears, and a tenant's nothing at all. A slot that is written in a clk is not due in it.
A slot that is due and first among those due fires: FIRED is set, its action is done on its target, and its schedule goes on. The schedule
of a one-shot disarms it; that of a periodic slot raises its TIME by whole periods until it lies in the future, by the fewest that do, and
MISSED counts those skipped up to 255. What log entries 12, 37, 41, 42, 101 and 102 say in it is the model's choice. -/
def Obligations.FabricTimeAndTriggers : Prop :=
  ((∀ (p : Path) (v : Word) (s : State), s.reaches .operator p FTU_EPOCH →
      let old := s.fld FTU_EPOCH_EPOCH_ID
      let new := bits v.toNat 31 0
      (new = 0 ∨ s.partList ≠ [] → exec (.ftuEpochWrite .operator p v) s = .next (s.refuse .operator p FTU_EPOCH v)) ∧
      (new ≠ 0 → s.partList = [] → old = 0 ∨ old = new →
        exec (.ftuEpochWrite .operator p v) s = .next ((s.store .operator p FTU_EPOCH v).setFlag FTU_STATUS_EPOCH_SET true)) ∧
      (new ≠ 0 → s.partList = [] → old ≠ 0 → old ≠ new → ∃ t, exec (.ftuEpochWrite .operator p v) s = .next t ∧
        t.fld FTU_EPOCH_EPOCH_ID = new ∧ t.flag FTU_STATUS_LOCKED = false ∧ t.servo.reacquire = true ∧ s.servo.est ≤ t.servo.est ∧
        (∀ k, k < 36 → (t.source k).valid = false) ∧
        (∀ i, i < 256 → bitOf (t.reg (FTU_TRIG_CTRL i)).toNat 0 = false ∧ ∀ r, r < 4 → bitOf (t.reg (RGN_TRIG_CTRL r i)).toNat 0 = false) ∧
        (s.servo.everLocked = true → s.sourceValid 36 = false → s.sourceValid 37 = false →
          t.flag FTU_STATUS_HOLDOVER = true ∧ t.servo.est = s.servo.est))) ∧
    (∀ (a : Auth) (p : Path) (v : Word) (s : State), s.reaches a p FTU_EPOCH → a ≠ .operator → ∃ t, exec (.ftuEpochWrite a p v) s = .next t ∧
      t.reg FTU_EPOCH = s.reg FTU_EPOCH ∧ t.servo = s.servo ∧ t.sources = s.sources) ∧
    (∀ (port seqId delay : Nat) (off : Int) (s : State), s.timeRuns = true → port < 2 →
      (s.sourceValid (37 - port) = true → (s.source (37 - port)).seqId = some seqId →
        ∀ sl, exec (.ptpMessage port seqId sl off delay) s = .next s) ∧
      (s.sourceValid (37 - port) = false ∨ (s.source (37 - port)).seqId ≠ some seqId →
        exec (.ptpMessage port seqId false off delay) s =
          .next ((s.setSource (36 + port) { s.source (36 + port) with seqId := some seqId }).dropSource (36 + port)) ∧
        (let s1 := s.setFld (FTU_PATH_RTT_NS (36 + port)) (2 * delay)
         exec (.ptpMessage port seqId true off delay) s =
          .next (s1.sample (36 + port) ⟨true, off - s1.asymNs (36 + port) * 2 ^ 32, 0, some seqId⟩)))) ∧
    (∀ (p : Nat) (s : State), s.powered = true → (s.source p).valid = true →
      exec (.holdover p) s = .next ((s.setSource p { s.source p with valid := false }).combine false)) ∧
    (∀ (now : Bool) (s : State), s.servo.everLocked = true → s.usedSources = [] →
      (s.combine now).flag FTU_STATUS_HOLDOVER = true ∧ (s.combine now).flag FTU_STATUS_LOCKED = false ∧
        (s.combine now).servo.est = s.servo.est ∧ (s.combine now).servo.slew = 0 ∧ (s.combine now).servo.freq = s.servo.freq) ∧
    (∀ (now : Bool) (s : State), s.usedSources ≠ [] →
      let c := combined s.usedSources
      (s.servo.everLocked = false → (s.combine now).servo.everLocked = true ∧ (s.combine now).servo.est = (s.servo.est - c.1 / c.2).toNat) ∧
      (s.servo.everLocked = true → c.1 < -((s.fld FTU_SERVO_STEP_NS : Int) * nsUnit * c.2) →
        (s.combine now).servo.est = (s.servo.est - c.1 / c.2).toNat ∧ s.servo.est ≤ (s.combine now).servo.est) ∧
      (s.servo.everLocked = true → -((s.fld FTU_SERVO_STEP_NS : Int) * nsUnit * c.2) ≤ c.1 →
        (s.combine now).servo.est = s.servo.est ∧ (s.combine now).servo.slew = c.1 / c.2)) ∧
    (∀ (s : State), s.powered = true → s.servo.everLocked = true →
      s.fld FTU_CTRL_HOLD_LIMIT_NS < s.errBound → s.flag FTU_STATUS_DEGRADED = false →
      exec .holdoverLimit s = .next ((s.setFlag FTU_STATUS_DEGRADED true).condition 1 TIME_DEGRADED true)) ∧
    (∀ (s : State) (since : Nat), s.powered = true → s.flag FTU_STATUS_HOLDOVER = true ∨ s.flag FTU_STATUS_DEGRADED = true →
      s.usedSources ≠ [] → s.servo.goodSince = some since → since + 1000000000 ≤ s.now →
      exec .timeRelock s = .next ((((s.setFlag FTU_STATUS_HOLDOVER false).setFlag FTU_STATUS_DEGRADED false).condition 1 TIME_DEGRADED
        false).setLocked (!s.servo.reacquire) s.usedSources))) ∧
  ((∀ (a : Auth) (p : Path) (region : Option Nat) (i : Nat) (v : Word) (s : State), s.reaches a p (trigCtrl region i) →
      s.slotMay region a = true →
      (∀ r, region = some r → a = .driver → s.driverTarget r (bits v.toNat 11 8) (bits v.toNat 23 12) = true) →
      exec (.triggerArm a p region i v) s = .next ((s.storeWith a p (trigCtrl region i) v (fun _ => true) fun m =>
        if bitOf m 0 then
          if actionAllowed region.isNone (bits m 11 8) then withBits m 31 24 0 else withBits (withBits m 31 24 0) 0 0 0
        else m).slotFresh (trigCtrl region i))) ∧
    (∀ (a : Auth) (p : Path) (region : Option Nat) (i : Nat) (v : Word) (s : State), s.reaches a p (trigCtrl region i) → i < 256 →
      (∀ r, region = some r → r < 4) → s.slotMay region a = false →
      ∃ t, exec (.triggerArm a p region i v) s = .next t ∧ t.reg (trigTime region i) = s.reg (trigTime region i) ∧
        (∀ k, k ≠ 1 ∨ a = .tenant → (t.reg (trigCtrl region i)).getLsbD k = (s.reg (trigCtrl region i)).getLsbD k) ∧
        (a ≠ .tenant → (t.reg (trigCtrl region i)).getLsbD 1 = ((s.reg (trigCtrl region i)).getLsbD 1 && !v.getLsbD 1))) ∧
    (∀ (off : Nat) (s : State), (s.slotFresh off).slotDue off = false) ∧
    (∀ (p : Path) (r i : Nat) (v : Word) (s : State), s.reaches .driver p (RGN_TRIG_CTRL r i) →
      s.driverTarget r (bits v.toNat 11 8) (bits v.toNat 23 12) = false →
      exec (.triggerArm .driver p (some r) i v) s =
        .next (s.refuseAuth .driver p (RGN_TRIG_CTRL r i) (s.reg (RGN_TRIG_CTRL r i)) v)) ∧
    (∀ (region : Option Nat) (i : Nat) (s : State), s.powered = true → s.servo.everLocked = true →
      s.slotDue (trigCtrl region i) = true → s.slotFirst (trigCtrl region i) = true →
      let n := (s.reg (trigCtrl region i)).toNat
      exec (.triggerFire region i) s = .next (((s.setMaskBit (trigCtrl region i) 1 true).trigAct region i (bits n 11 8) (bits n 23 12)).trigNext
        region i)) ∧
    (∀ (region : Option Nat) (i : Nat) (s : State), i < 256 → (∀ r, region = some r → r < 4) →
      let n := (s.reg (trigCtrl region i)).toNat
      let time := (s.reg (trigTime region i)).toNat
      let t := s.trigNext region i
      (bits n 63 32 = 0 → bitOf (t.reg (trigCtrl region i)).toNat 0 = false ∧ t.reg (trigTime region i) = s.reg (trigTime region i)) ∧
      (bits n 63 32 ≠ 0 → s.now + bits n 63 32 < 2 ^ 64 → time ≤ s.now →
        s.now < (t.reg (trigTime region i)).toNat ∧ (t.reg (trigTime region i)).toNat ≤ s.now + bits n 63 32 ∧
        ((t.reg (trigTime region i)).toNat - time) % bits n 63 32 = 0 ∧
        bits (t.reg (trigCtrl region i)).toNat 31 24 =
          Nat.min 255 (bits n 31 24 + (((t.reg (trigTime region i)).toNat - time) / bits n 63 32 - 1)))))

/-- From R343, R346 to R348: the operator's write of a port mask or a route entry of a map that is not in use is stored; a mask that shares a
link with another port of its map, and a write for a map in use, is refused and counted. A route entry holds VALID and PORT, a PORT above
11 with VALID 0; no other entry changes. A write of RPT_GLOBAL with SWITCH switches to NEXT for the operator alone. A switch to the active
map counts and changes nothing else; one to another map makes it the active one, and no packet that waits at a port keeps another map,
where the packets queued are the device's own and may use their new ports. SWITCHING ends once no packet waits that was queued at the
switch or is routed under another map than the active one, and not before. What log entries 36 and 51 say in it is the model's choice. -/
def Obligations.BundleMaps : Prop :=
  (∀ (p : Path) (m port : Nat) (v : Word) (s : State), s.reaches .operator p (RPT_MAP_PORT m port) → m < 4 → port < 12 →
    ownAllows .op .operator (RPT_MAP_PORT m port) = true ∧
    (s.mapInUse m = false → (∀ q, q < 12 → q ≠ port → s.fld (RPT_MAP_PORT_LINKS m q) &&& bits v.toNat 35 0 = 0) →
      exec (.portMapWrite .operator p m port v) s = .next (s.store .operator p (RPT_MAP_PORT m port) v)) ∧
    (s.mapInUse m = true ∨ (∃ q, q < 12 ∧ q ≠ port ∧ s.fld (RPT_MAP_PORT_LINKS m q) &&& bits v.toNat 35 0 ≠ 0) →
      exec (.portMapWrite .operator p m port v) s = .next (s.mapRefused .operator p (RPT_MAP_PORT m port) v))) ∧
  (∀ (p : Path) (v : Word) (s : State), s.reaches .operator p RPT_RT_DATA →
    let m := s.fld RPT_RT_SEL_MAP
    let d := s.fld RPT_RT_SEL_DEST
    (s.mapInUse m = true → ∃ t, exec (.rtDataWrite .operator p v) s = .next t ∧ t.routes = s.routes ∧
      t.fld RPT_COUNT_REFUSED = Nat.min (s.fld RPT_COUNT_REFUSED + 1) (2 ^ (RPT_COUNT_REFUSED.hi + 1 - RPT_COUNT_REFUSED.lo) - 1)) ∧
    (s.mapInUse m = false → ∃ t, exec (.rtDataWrite .operator p v) s = .next t ∧
      t.routeEntry m d = (if bits v.toNat 3 0 < 12 then bits v.toNat 7 7 else 0) * 128 + bits v.toNat 3 0 ∧
      ∀ m' d', m' * 65536 + d' ≠ m * 65536 + d → t.routeEntry m' d' = s.routeEntry m' d')) ∧
  (∀ (a : Auth) (p : Path) (v : Word) (s : State), s.reaches a p RPT_GLOBAL → bitOf v.toNat 20 = true →
    let s1 := (s.setReg RPT_GLOBAL (BitVec.ofNat 64 s.rptGlobal)).storeWith a p RPT_GLOBAL v fun f =>
      ownAllows f.own a RPT_GLOBAL && (s.partList.isEmpty || f.hi != 15)
    exec (.mapSwitch a p v) s = .next (if a = .operator then s1.switchMap (s1.fld RPT_GLOBAL_NEXT) else s1)) ∧
  (∀ (m : Nat) (s : State), m < 4 →
    (s.fld RPT_GLOBAL_ACTIVE = m → s.switchMap m = s.count RPT_COUNT_SWITCHES 1) ∧
    (s.fld RPT_GLOBAL_ACTIVE ≠ m →
      ((∀ port, port < 13 → ∀ q ∈ s.port port, q.from_ = none ∧ ∀ k, s.routeOf m q.pk.dst = some k → s.portAllowed q.ctxTag k = true) →
        (s.switchMap m).fld RPT_GLOBAL_ACTIVE = m ∧ ∀ port, port < 13 → ∀ q ∈ (s.switchMap m).port port, q.map = m))) ∧
  (∀ (s : State), s.powered = true → s.flag RPT_GLOBAL_SWITCHING = true →
    ((∀ e ∈ s.ports, e.1 < 13 → ∀ q ∈ e.2, q.old = false ∧ q.map = s.fld RPT_GLOBAL_ACTIVE) →
      exec .mapSwitchDrained s = .next (s.setFlag RPT_GLOBAL_SWITCHING false)) ∧
    (∀ e ∈ s.ports, e.1 < 13 → ∀ q ∈ e.2, q.old = true ∨ q.map ≠ s.fld RPT_GLOBAL_ACTIVE → exec .mapSwitchDrained s = .next s))

/-- From R258, R261 to R266, R268, R272, R273: the winner of a decision is a requester that the arbiter serves and does not mask,
high-priority if any candidate is, of the greatest age in its class, and among equals the first from ROT upward; a requester presents the
age of its oldest request on the way, and no other. An arbiter without an owner takes in the requests that come and grants the winner, or
nobody where nobody requests; a grant to a high-priority requester counts one against its quota, any other none, and MAX_AGE keeps the
greatest age granted. An owner goes on while it requests, unless its beat ends at a break point and its burst limit has expired; then the
arbiter decides. An emergency requester that is enabled and requests comes first in a decision and takes the next beat from an owner,
counts against no quota, and the owner that it displaced has its grant back with its beats and limit. Where the clk has no beat left,
requests only come to wait. A burst limit expires once its beats have gone; a spent quota masks its high-priority requester, and no other,
and counts; CLR clears the statistics. What log entries 11 and 87 say in it is the model's choice. -/
def Obligations.ArbitrationRules : Prop :=
  (∀ (i : ArbId) (reqs : List (Nat × Nat)) (s : State) (w : Nat × Nat), s.arbPick i reqs = some w →
    w ∈ reqs ∧ arbServes i w.1 = true ∧ s.arbMasked i w.1 = false ∧
    ∀ q ∈ reqs, arbServes i q.1 = true → s.arbMasked i q.1 = false →
      (s.arbPrio i q.1 = true → s.arbPrio i w.1 = true) ∧
      (s.arbPrio i q.1 = s.arbPrio i w.1 → satAge q.2 ≤ satAge w.2 ∧ (satAge q.2 = satAge w.2 →
        (w.1 + 64 - s.fld (arbRot (arbOff i))) % 64 ≤ (q.1 + 64 - s.fld (arbRot (arbOff i))) % 64))) ∧
  (∀ (i : ArbId) (n : Nat) (s : State),
    let onWay := fun (r : ArbReq) => (r.hops.any fun h => arbKey h.arb == arbKey i && h.idx == n) = true
    (∀ r ∈ s.arbReqs, onWay r → s.clk - r.stamp ≤ s.flowAge (arbKey i) n) ∧
    ((∃ r ∈ s.arbReqs, onWay r) → ∃ r ∈ s.arbReqs, onWay r ∧ s.flowAge (arbKey i) n = s.clk - r.stamp) ∧
    (∀ a, (n, a) ∈ s.requesters i ↔ n < 64 ∧ s.requests (arbKey i) n = true ∧ a = s.flowAge (arbKey i) n) ∧
    (s.arbMasked i n = true ↔ s.arbPrio i n = true ∧
      (if (s.arb (arbKey i)).quota = 0 then 1 else (s.arb (arbKey i)).quota) ≤ SMap.get (fun _ => 0) (s.arb (arbKey i)).grants n)) ∧
  (∀ (i : ArbId) (new : List ArbNew) (s : State), s.powered = true → s.arbPresent i = true → s.emergency i = none →
    (s.arb (arbKey i)).emergency = none →
    (∀ n, s.arbOpen i = false → (s.arb (arbKey i)).owner = some n → ∃ t, exec (.arbDecision i new) s = .next t ∧
      (t.arb (arbKey i)).owner = some n ∧ (t.arb (arbKey i)).beats = (s.arb (arbKey i)).beats ∧ t.arbReqs = (s.enter i new).arbReqs) ∧
    (s.arbOpen i = true → s.ptb.flag PTB_CTRL_EN = false →
      let s1 := s.enter i new
      let pool := (s1.requesters i).filter fun q => s1.portOpen i q.1
      ((s.arb (arbKey i)).owner = none →
        (∀ w, s1.arbPick i pool = some w → ∃ t, exec (.arbDecision i new) s = .next t ∧ (t.arb (arbKey i)).owner = some w.1 ∧
          (t.arb (arbKey i)).beats = 0 ∧ (t.arb (arbKey i)).limit = bits (s.cfgSeen i) 47 40 + 1 ∧
          (∀ n, SMap.get (fun _ => 0) (t.arb (arbKey i)).grants n = SMap.get (fun _ => 0) (s.arb (arbKey i)).grants n +
            if n = w.1 ∧ s.arbPrio i n = true then 1 else 0) ∧
          t.fld (arbMaxAge (arbOff i)) = Nat.max (s.fld (arbMaxAge (arbOff i))) (satAge w.2)) ∧
        (s1.arbPick i pool = none → ∃ t, exec (.arbDecision i new) s = .next t ∧ (t.arb (arbKey i)).owner = none ∧
          (t.arb (arbKey i)).grants = (s.arb (arbKey i)).grants ∧ t.arbReqs = s1.arbReqs)) ∧
      (∀ n, (s.arb (arbKey i)).owner = some n →
        let x := s.arb (arbKey i)
        let s2 := (s.transfer i n).2
        (s.requestsAt i n = true → s2.requestsAt i n = true → (s.transfer i n).1 = false ∨ (x.expired = false ∧ x.beats + 1 < x.limit) →
          ∃ t, exec (.arbDecision i new) s = .next t ∧ (t.arb (arbKey i)).owner = some n ∧ (t.arb (arbKey i)).beats = x.beats + 1 ∧
            (t.arb (arbKey i)).grants = x.grants ∧ t.arbReqs = (s2.enter i new).arbReqs) ∧
        (let s3 := s2.modArb (arbKey i) fun x => { x with beats := x.beats + 1, expired := x.expired || decide (x.limit ≤ x.beats + 1) }
         s.requestsAt i n = true → s2.requestsAt i n = false ∨ ((s.transfer i n).1 = true ∧ (x.expired = true ∨ x.limit ≤ x.beats + 1)) →
          ∃ t, exec (.arbDecision i new) s = .next t ∧ (t.arb (arbKey i)).owner = ((s3.decide_ i).arb (arbKey i)).owner ∧
            t.arbReqs = ((s3.decide_ i).enter i new).arbReqs) ∧
        (s.requestsAt i n = false → ∃ t, exec (.arbDecision i new) s = .next t ∧
          (t.arb (arbKey i)).owner = ((s.decide_ i).arb (arbKey i)).owner ∧ t.arbReqs = ((s.decide_ i).enter i new).arbReqs)))) ∧
  (∀ (i : ArbId) (e : Nat) (s : State), s.emergencyTakes i = some e →
    ((s.decide_ i).arb (arbKey i)).owner = some e ∧ ((s.decide_ i).arb (arbKey i)).emergency = some none ∧
    ((s.decide_ i).arb (arbKey i)).grants = (s.arb (arbKey i)).grants) ∧
  (∀ (i : ArbId) (s : State), (s.arb (arbKey i)).emergency = none →
    (s.emergencyTakes i = none → s.displace i = s) ∧
    (∀ e, s.emergencyTakes i = some e → ((s.displace i).arb (arbKey i)).owner = some e ∧
      ((s.displace i).arb (arbKey i)).emergency = some (s.arb (arbKey i)).owner ∧
      ((s.displace i).arb (arbKey i)).grants = (s.arb (arbKey i)).grants ∧
      ((s.displace i).arb (arbKey i)).beats = (s.arb (arbKey i)).beats ∧ ((s.displace i).arb (arbKey i)).limit = (s.arb (arbKey i)).limit)) ∧
  (∀ (i : ArbId) (n o : Nat) (s : State), (s.arb (arbKey i)).owner = some n → (s.arb (arbKey i)).emergency = some (some o) →
    let t := s.emergencyBeat i n (some o)
    (t.arb (arbKey i)).beats = (s.arb (arbKey i)).beats ∧ (t.arb (arbKey i)).limit = (s.arb (arbKey i)).limit ∧
    (t.arb (arbKey i)).grants = (s.arb (arbKey i)).grants ∧
    (((t.arb (arbKey i)).owner = some o ∧ (t.arb (arbKey i)).emergency = none) ∨
      (∃ e, (t.arb (arbKey i)).owner = some e ∧ (t.arb (arbKey i)).emergency = some (some o) ∧ t.requests (arbKey i) e = true))) ∧
  (∀ (i : ArbId) (s : State), s.powered = true → s.arbPresent i = true → (s.arb (arbKey i)).owner.isSome = true →
    (s.arb (arbKey i)).emergency = none → (s.arb (arbKey i)).limit ≤ (s.arb (arbKey i)).beats →
    exec (.burstLimitExpire i) s = .next (s.modArb (arbKey i) fun x => { x with expired := true })) ∧
  (∀ (i : ArbId) (n : Nat) (s : State), s.powered = true → s.arbPresent i = true → n < 64 → s.arbPrio i n = true →
    bitOf (s.reg (arbOff i + 0x10)).toNat n = false → s.arbMasked i n = true →
    ∃ t, exec (.quotaExhausted i n) s = .next t ∧ bitOf (t.reg (arbOff i + 0x10)).toNat n = true ∧
      t.fld (arbMaskings (arbOff i)) = Nat.min (s.fld (arbMaskings (arbOff i)) + 1) 0xFFFF) ∧
  (∀ (a : Auth) (p : Path) (i : ArbId) (v : Word) (s : State), s.reaches a p (arbOff i) → s.arbPresent i = true →
    exec (.arbStatClear a p i v) s = .next (s.writeArbCfg a p i v) ∧
    (bitOf v.toNat 4 = true → (a = .operator ∨ a = .driver ∧ ∃ b q, s.blockPart b = some q ∧ s.driverOwns q = true ∧
        ((∃ n wr, i = .block b n wr) ∨ ∃ row wr, i = .cell b row wr)) →
      (s.writeArbCfg a p i v).reg (arbOff i + 0x18) = 0))

/-- From R275 to R284, R306, R495: a write of SCH_CMD that sets START runs its operation under the class that owns it and shows RESULT 0; a
refused operation, or one of another class, shows SCH_CMD_REFUSED, is journaled and does nothing else. One whose record lies in a frame
under test waits with DONE 0, and a START while DONE is 0 is ignored. From R275, R277, R278, R282, R284: what the operations of SCH_CMD
leave. A partition is made where its registers allow it: it exists, no other changes, and its SLICE slot is armed at the next period in
its lead region; freed, it no longer exists. An admitted context is SWAPPED and keeps its generation; a bound queue runs, empty, on its
record's context. What log entries 20, 35, 45 and 46 say in it is the model's choice. -/
def Obligations.SchedulerCommandsAndTables : Prop :=
  (∀ r ∈ ([(Instr.makePart, Auth.operator, 1, fun s p _ _ => s.makePart p), (Instr.freePart, Auth.operator, 2, fun s p _ _ => s.freePart p),
        (Instr.admitCtx, Auth.driver, 3, fun s _ _ c => s.admitCtx c),
        (Instr.release, Auth.driver, 4, fun s _ _ c => some (if s.admitted c then s.teardown c else s)),
        (Instr.bindQ, Auth.driver, 5, fun s _ q _ => s.bindQ q), (Instr.unbindQ, Auth.driver, 6, fun s _ q _ => s.unbindQ q),
        (Instr.stopQ, Auth.driver, 7, fun s _ q _ => s.runQ q .stopped), (Instr.startQ, Auth.driver, 8, fun s _ q _ => s.runQ q .run)] :
        List ((Auth → Path → Word → Instr) × Auth × Nat × (State → Nat → Nat → Nat → Option State))),
      ∀ (a : Auth) (p : Path) (v : Word) (s : State), s.reaches a p SCH_CMD → bitOf v.toNat 62 = true → bits v.toNat 57 54 = r.2.2.1 →
        let s1 := s.store a p SCH_CMD v
        let x : WaitCmd := ⟨SCH_CMD, a, p, s.reg SCH_CMD, BitVec.ofNat 64 ((s1.reg SCH_CMD).toNat ||| 2 ^ 62)⟩
        let s2 := (s1.setFlag SCH_CMD_DONE true).checkHbmRead (s1.schRecord x.new).1 (s1.schRecord x.new).2
        let run := r.2.2.2 (s2.commandRecord a p SCH_CMD x.old x.new) (schField x.new SCH_CMD_PART) (schField x.new SCH_CMD_QUEUE)
          (schField x.new SCH_CMD_CONTEXT)
        (s1.flag SCH_CMD_DONE = true → s1.schWaits x = false →
          (a = r.2.1 → ∀ t, run = some t → exec (r.1 a p v) s = .next (t.setFld SCH_CMD_RESULT 0)) ∧
          (a ≠ r.2.1 ∨ run = none → exec (r.1 a p v) s =
            .next (((s2.setFld SCH_CMD_RESULT SCH_CMD_REFUSED).lastCode SCH_STATUS_LAST_CODE SCH_CMD_REFUSED).journal a p jRefused SCH_CMD
              x.old x.new))) ∧
        (s1.flag SCH_CMD_DONE = true → s1.schWaits x = true →
          ∃ t, exec (r.1 a p v) s = .next t ∧ t.flag SCH_CMD_DONE = false ∧ t.lid.waits = s1.lid.waits ++ [x] ∧
            ∀ off, off ≠ SCH_CMD → t.reg off = s1.reg off) ∧
        (s1.flag SCH_CMD_DONE = false → exec (r.1 a p v) s = .next (s1.commandRecord a p SCH_CMD x.old x.new))) ∧
  (∀ (s : State),
      (∀ p, p < 16 → (s.partMakable p = true ↔ (s.makePart p).isSome = true) ∧
        ∀ t, s.makePart p = some t → t.partExists p = true ∧ (∀ q, q ≠ p → t.partExists q = s.partExists q) ∧
          t.fld (SCH_PART_CTRL_LEAD p) = s.leadRegion p ∧ t.fld (SCH_PART_CTRL_GROUPS p) = (s.partBlocks p).length / 8 ∧
          t.reg (RGN_TRIG_TIME (s.leadRegion p) (240 + p)) = BitVec.ofNat 64 ((s.now / 2000000 + 1) * 2000000) ∧
          t.reg (RGN_TRIG_CTRL (s.leadRegion p) (240 + p)) = BitVec.ofNat 64 (2000000 * 2 ^ 32 + p * 2 ^ 12 + 1 * 2 ^ 8 + 1) ∧ s.sameHbm t) ∧
      (∀ p, ((s.freePart p).isSome = true ↔ s.partExists p = true ∧ s.partCtxs p = []) ∧
        ∀ t, s.freePart p = some t → t.partExists p = false ∧ (∀ q, q ≠ p → t.partExists q = s.partExists q) ∧ s.sameHbm t) ∧
      (∀ c t, s.admitCtx c = some t → (s.ctxOf c).st = .free ∧ (t.ctxOf c).st = .swapped ∧ (t.ctxOf c).gen = (s.ctxOf c).gen ∧
        s.partExists (t.ctxOf c).part = true ∧ (t.ctxOf c).tearing = false) ∧
      (∀ q t, s.bindQ q = some t → (s.queueOf q).st = .unbound ∧ (t.queueOf q).st = .run ∧ (t.queueOf q).head = 0 ∧
        (t.queueOf q).tail = 0 ∧ (t.queueOf q).done = 0 ∧ s.admitted (t.queueOf q).ctx = true ∧ 1 ≤ (t.queueOf q).sizeLog2 ∧
        (t.queueOf q).sizeLog2 ≤ 20) ∧
      (∀ q t, s.unbindQ q = some t → (t.queueOf q).st = .unbound) ∧
      (∀ q st t, s.runQ q st = some t → (s.queueOf q).st ≠ .unbound → (t.queueOf q).st = st ∧ (t.queueOf q).tail = (s.queueOf q).tail))

/-- From R284, R285: a doorbell of a bound queue moves TAIL forward by no more than the free slots; any other value, and a doorbell of an
unbound queue, is reported and leaves the queue. From R180, R286 to R288, R291, R292: the head entry of a running queue is read into the
scoreboard while that has room; one that is malformed is its context's fault instead. A ready entry of a running queue that is its
context's first starts in the MAIN set of the lowest idle home block, a fill entry that no hold fences in the FILL set of the lowest block
that has parked: with its four arguments in s[1] to s[4], fabric time in s[6], the block's number in s[7], 0 above, and every ticket idle;
HEAD moves on, and no other block changes. From R290: an exit that is reported writes the exit value into its slot, frees its set, and
moves DONE past every contiguous exited entry. What log entries 14, 44 and 48 say in it is the model's choice. -/
def Obligations.DoorbellsAndTasks : Prop :=
  (∀ (a : Auth) (p : Path) (q : Nat) (v : Word) (s : State), s.reaches a p (DB_TAIL q) → s.replayQueue q = false →
      let x := s.queueOf q
      let tail := bits v.toNat 31 0
      let room := (x.done + 2 ^ x.sizeLog2 + 2 ^ 32 - x.tail) % 2 ^ 32
      (x.st ≠ .unbound → (tail + 2 ^ 32 - x.tail) % 2 ^ 32 ≤ room →
        ∃ t, exec (.doorbellWrite a p q v) s = .next t ∧ (t.queueOf q).tail = tail ∧ (t.queueOf q).head = x.head ∧
          (t.queueOf q).st = x.st ∧ (x.head = x.tail → tail ≠ x.tail → (t.queueOf q).headStamp = s.now) ∧
          (x.head ≠ x.tail → (t.queueOf q).headStamp = x.headStamp) ∧ (∀ n, n ≠ q → t.queueOf n = s.queueOf n)) ∧
      (x.st ≠ .unbound → room < (tail + 2 ^ 32 - x.tail) % 2 ^ 32 → exec (.doorbellWrite a p q v) s =
        .next (s.schPost ⟨some (s.tagOf x.ctx), SCH_DOORBELL_INVALID, s.schSrc (s.ctxOf x.ctx).part, q + tail * 2 ^ 32, x.tail⟩)) ∧
      (x.st = .unbound → ∃ t, exec (.doorbellWrite a p q v) s = .next t ∧ t.queues = s.queues ∧
        t.fld SCH_STATUS_LAST_CODE = SCH_DOORBELL_INVALID)) ∧
  ((∀ (q : Nat) (s s1 : State) (l : List Byte),
      let x := s.queueOf q
      let c := x.ctx
      s.powered = true → x.st = .run → x.entry = none → s.admitted c = true → (s.ctxOf c).tearing = false →
      s.partExists (s.ctxOf c).part = true → s.scoreboardUsed (s.leadRegion (s.ctxOf c).part) < s.fld DIM_SCHED_SCOREBOARD →
      s.replayQueue q = false → x.head ≠ x.tail → s.vread c (x.slotVa x.head) 64 .read = (.ok l, s1) →
      let s2 := s1.rplNote c rplEntry (leBytes q 4 ++ leBytes x.head 4 ++ l)
      let y := s2.queueOf q
      let lead := s1.leadRegion (s.ctxOf c).part
      (s2.entryBad q (entryOf y.head l) l = false →
        exec (.entryRead q) s = .next ((s2.setQueue q { y with entry := some (entryOf y.head l) }).beat lead)) ∧
      (s2.entryBad q (entryOf y.head l) l = true →
        exec (.entryRead q) s = .next ((s2.schFault y.ctx SCH_ENTRY_INVALID (q + y.head * 2 ^ 32) (leNat (l.take 8))).beat lead))) ∧
    (∀ (q b : Nat) (f : Bool) (e : Entry) (s : State),
      let x := s.queueOf q
      let c := x.ctx
      s.powered = true → (s.ctxOf c).st = .resident → (s.ctxOf c).tearing = false → x.entry = some e → e.args.length = 4 →
      (if f then s.firstQueue (s.fillQueues c) = some q ∧ s.fillBlock c = some b
       else s.firstQueue (s.startQueues c 0) = some q ∧ s.idleBlock c = some b) →
      ∃ t, exec (if f then .fillTaskStart q else .taskStart q) s = .next t ∧
        (let y := t.cset b f
         y.placed = true ∧ y.pc = e.pc ∧ y.taskPc = e.pc ∧ y.queue = q ∧ y.seq = e.seq ∧ y.wait = .none ∧ y.exited = none ∧
         (∀ i, i < 4 → y.rd (i + 1) = e.args.getD i 0) ∧ y.rd 6 = BitVec.ofNat 64 s.now ∧ y.rd 7 = BitVec.ofNat 64 b ∧
         (∀ n, 8 ≤ n → y.rd n = 0) ∧ y.tk = []) ∧
        (t.queueOf q).head = (x.head + 1) % 2 ^ 32 ∧ (t.queueOf q).entry = none ∧ (t.queueOf q).tail = x.tail ∧
        (∀ b', b' ≠ b → t.blk b' = s.blk b'))) ∧
  ((∀ (b c : Nat) (f : Bool) (v : Word) (s s1 : State),
      let y := s.cset b f
      let x := s.queueOf y.queue
      s.powered = true → (s.blk b).ctx = some c → y.exited = some v → y.placed = true →
      (s.blk b).phase = .idle ∨ (s.blk b).phase = .stopping → (s.blk b).discard = false →
      s.vwrite c (x.slotVa y.seq + 56) (leBytes v.toNat 4) = (.ok (), s1) →
      let s2 := s1.settle c
      let s3 := if x.notify.contains y.seq then
          s2.schPost ⟨some (s2.tagOf c), SCH_TASK_EXIT, s2.schSrc (s2.ctxOf c).part, y.queue + y.seq * 2 ^ 32, v.toNat % 2 ^ 32⟩
        else s2
      let s4 := s3.modSet b f CoreSet.cleared
      let s5 := (if f then s4 else s4.modBst b fun z => { z with parked := false }).putQueue y.queue (Queue.advance (x.exited.length + 1)
        { x with exited := x.exited ++ [y.seq], notify := x.notify.filter (· != y.seq) })
      exec (.taskExit b f) s = .next ((s5.beat (s5.leadRegion (s5.ctxOf c).part)).takeHolds)) ∧
    (∀ x : Queue, let y := Queue.advance (x.exited.length + 1) x
      y.done ∉ y.exited ∧ (∀ n, n ∈ y.exited → n ∈ x.exited) ∧ y.head = x.head ∧ y.tail = x.tail) ∧
    (∀ x : CoreSet, x.cleared.placed = false ∧ x.cleared.exited = none ∧ x.cleared.s = x.s ∧ x.cleared.tk = x.tk))

/-- From R294, R295, R297 to R299: the scheduler's choices. What choose() keeps are candidates that lie in its scope, and no two share a
group. Its row chooses over the idle groups while a swapped context of the partition is runnable, and then evicts where R299 says so; the
row of LATENCY contexts serves those that wait. A blocked resident's condition has held for BLOCKED_NS; its row switches a LATENCY context
out, serves those that wait and chooses over the idle groups, and else evicts the others: no LATENCY context is evicted. A context whose
debt has reached age 16 loses it, counts it as missed and posts SCH_DEBT_MISSED with its amount. What log entries 44, 47 and 49 say in it
is the model's choice. -/
def Obligations.SchedulerChoices : Prop :=
  (∀ (l free : List Nat) (s : State),
    (s.keep l free).Pairwise (fun c d => ∀ g, g ∈ s.homeGroups c → g ∉ s.homeGroups d) ∧
    ∀ c ∈ s.keep l free, c ∈ l ∧ ∀ g ∈ s.homeGroups c, g ∈ free) ∧
  (∀ (p : Nat) (s : State), s.powered = true → s.partExists p = true →
    let s1 := s.settleAll.refreshRunnable
    let s2 := if (s1.partCtxs p).any s1.runnable then s1.choose p (s1.idleGroups p) else s1
    exec (.chooseIdle p) s = .next ((s2.evictBlocked p).beat (s2.leadRegion p)) ∧
    exec (.latencySwitchIn p) s = .next ((s1.latencyIn p).beat (s.leadRegion p))) ∧
  (∀ (p c : Nat) (s : State), s.longestBlocked p = some c → s.isBlocked c = true ∧ (s.ctxOf c).cls ≠ 1 ∧ c ∈ s.residents p) ∧
  (∀ (c : Nat) (s : State), s.isBlocked c = true → ∃ t n, (s.ctxOf c).stallSince = some (t, n) ∧ t + s.fld SCH_CTRL_BLOCKED_NS ≤ s.now ∧
    s.stalledNow c = true) ∧
  (∀ (c : Nat) (s : State), s.powered = true → s.isBlocked c = true →
    let p := (s.ctxOf c).part
    let s2 := s.settleAll.refreshRunnable
    exec (.contextBlocked c) s = .next (if (s2.ctxOf c).cls = 1 then
        ((s2.switchOut c .blocked).latencyIn p).choose p (((s2.switchOut c .blocked).latencyIn p).idleGroups p)
      else s2.evictBlocked p)) ∧
  (∀ (c : Nat) (s : State), s.powered = true →
    let s1 := s.settle c
    let x := s1.ctxOf c
    s1.admitted c = true → x.debt ≠ 0 → 16 ≤ x.debtAge →
    let s2 := s1.setCtx c { x with debt := 0, debtAge := 0, acct := { x.acct with debtMissed := Nat.min (x.acct.debtMissed + 1) (2 ^ 32 - 1) } }
    exec (.debtExpire c) s = .next (s2.schPost ⟨some (s2.tagOf c), SCH_DEBT_MISSED, s2.schSrc x.part, x.part, x.debt⟩))

/-- From R192, R193, R300 to R305: the steps of a block switch. A block under teardown is scrubbed without a save; one whose units have
stopped records its WEAVE's progress and saves. A save that is complete leaves the block to be scrubbed, with what is live of its state,
and the completions held for it, in its context. A scrubbed block holds nothing, and restores the context that comes in if that is
resident. A restore with no slot left to reload leaves the block with its context's state and the completions held since. A save or a
restore that fails with a code of the memory system is the context's fault. A block whose context leaves while its restore waits, its
state loaded, saves it again; before that it is scrubbed. What log entries 32, 49, 94 and 96 say in it is the model's choice. -/
def Obligations.BlockSwitching : Prop :=
  (∀ (b : Nat) (s : State), s.powered = true → (s.blk b).phase = .stopping →
    ((s.blk b).discard = true → exec (.blockStopped b) s = .next ((s.dueTest b).modBlk b fun k => { k with phase := .scrubbing })) ∧
    ((s.blk b).discard = false → s.unitsStopped b = true →
      ∃ t, exec (.blockStopped b) s = .next t ∧ (t.blk b).phase = .saving ∧ (t.blk b).ctx = (s.blk b).ctx ∧ t.bst b = s.bst b ∧
        (∀ r, (s.bst b).run = some r → r.op.ticket < 32 → r.next < 2 ^ 8 →
          t.flag (BLK_ARR_PROGRESS_VALID b) = true ∧ t.fld (BLK_ARR_PROGRESS_TICKET b) = r.op.ticket ∧
          t.fld (BLK_ARR_PROGRESS_NEXT_ROW b) = r.next) ∧ s.sameHbm t)) ∧
  (∀ (b c code : Nat) (s : State), s.powered = true → (s.blk b).phase = .saving → (s.blk b).ctx = some c →
    exec (.saveDone b false code) s = .next (if memoryFault code then s.schFault c SCH_SAVE_LOST b code else s) ∧
    (∀ v s1, s.saveHeld ((s.ctxOf c).saveBase + s.homeIndex c b * 2 ^ 24) (2 ^ 24) = false → s.liveMapOf c = (some v, s1) →
      let i := s1.homeIndex c b
      ∃ t, exec (.saveDone b true code) s = .next t ∧ (t.blk b).phase = .scrubbing ∧ (t.blk b).ctx = none ∧
        SMap.get (fun _ => BlkState.reset) (t.ctxOf c).saved i =
          applyHeld ((s1.bst b).saved v) ((s1.ctxOf c).held.filter fun h => h.1 == i))) ∧
  (∀ (b : Nat) (s : State), b < 128 → s.powered = true → (s.blk b).phase = .scrubbing →
    ∃ t, exec (.blockScrubDone b) s = .next t ∧ t.bst b = BlkState.reset ∧ (t.blk b).ctx = none ∧ (t.blk b).discard = false ∧
      (t.blk b).phase = (match (s.blk b).incoming with
        | some c => if (s.ctxOf c).st = .resident ∧ (s.ctxOf c).tearing = false then .restoring else .idle
        | none => .idle) ∧
      t.reg (BLK_ARR_PROGRESS b) = 0 ∧ t.flag (BLK_CORE_STATUS_FAULTED b) = false ∧ ∀ b', b' ≠ b → t.blk b' = s.blk b') ∧
  (∀ (b c code : Nat) (s : State), s.powered = true → (s.blk b).phase = .restoring → (s.blk b).incoming = some c →
    exec (.restoreDone b false code) s = .next (if memoryFault code then s.schFault c SCH_SAVE_LOST b code else s) ∧
    (let i := s.homeIndex c b
      let x := if (s.blk b).ctx = some c then s.bst b else SMap.get (fun _ => BlkState.reset) (s.ctxOf c).saved i
      x.reloads = [] → ∃ t, exec (.restoreDone b true code) s = .next t ∧ (t.blk b).phase = .idle ∧ (t.blk b).ctx = some c ∧ (t.blk b).incoming = none ∧
        t.bst b = applyHeld { x with reloads := [] } ((s.ctxOf c).held.filter fun h => h.1 == i))) ∧
  (∀ (k : Blk) (c now : Nat),
    (k.ctx = some c → k.phase = .idle → (k.leave c now).phase = .stopping ∧ (k.leave c now).stopAt = now) ∧
    (k.phase = .restoring → k.incoming = some c → (k.leave c now).incoming = none ∧
      (k.leave c now).phase = (if k.ctx = some c then .saving else .scrubbing)) ∧
    (k.leave c now).st = k.st ∧ (k.leave c now).ctx = k.ctx)

/-- From R320 to R323, R326, R333, R336: a good frame clears the count of bad ones. On an UP link ACK releases the frames below it; a DATA
frame in sequence delivers its packets and moves the receive sequence on by one, a later one asks for one NAK per gap, an earlier one
changes nothing more; an IDLE frame shows a gap in the same way; a NAK starts a replay of the window while no frame of it has been
replayed as often as the limit allows, and one that repeats the running replay within its guard does nothing. A FENCED link counts a DATA
frame and takes nothing of it; in other states a DATA frame is discarded, and IDLE frames do nothing. A frame that fails its checks is
counted and discarded, as is a control message of an unknown type once its ACK and NAK have acted. After 64 bad frames in a row a link
goes DOWN. What log entries 50, 51 and 99 say in it is the model's choice. -/
def Obligations.RimFrames : Prop :=
  ∀ (k : Nat) (s : State), s.receives k = true → s.quiet →
    let s0 := (s.frameIn k).modLink k fun l => { l with consec := 0 }
    (s.linkState k = 5 → ∀ fr : Frame, fr.nak = false →
      let s1 := s0.release k fr.ack
      (s1.link k).window = (s.link k).window.filter (fun f => !below24 f.seq fr.ack) ∧
      (fr.seq = (s.link k).rxNext → exec (.dataFrame k fr) s =
        .next ((s1.forEach fr.pkts fun s pk => s.deliverPkt k (s.frameMap k fr) pk).modLink k fun l =>
          { l with rxNext := (l.rxNext + 1) % 2 ^ 24, gap := false })) ∧
      (fr.seq ≠ (s.link k).rxNext → below24 (s.link k).rxNext fr.seq = true →
        exec (.dataFrame k fr) s = .next (s1.wantNak k) ∧ ((s1.wantNak k).link k).gap = true ∧
        ((s.link k).gap = false → ((s1.wantNak k).link k).nak = true) ∧
        ((s1.wantNak k).link k).rxNext = (s.link k).rxNext) ∧
      (fr.seq ≠ (s.link k).rxNext → below24 (s.link k).rxNext fr.seq = false → exec (.dataFrame k fr) s = .next s1) ∧
      (below24 (s.link k).rxNext fr.seq = true → exec (.idleFrame k fr) s = .next (s1.wantNak k)) ∧
      (below24 (s.link k).rxNext fr.seq = false → exec (.idleFrame k fr) s = .next s1)) ∧
    (s.linkState k = 5 → ∀ fr : Frame, fr.nak = true → below24 (s.link k).rxNext fr.seq = false →
      let s1 := s0.release k fr.ack
      (∀ (f : Frame) (rest : List Frame), (s1.link k).window = f :: rest → (s1.link k).replayAt = none →
        (∀ g ∈ f :: rest, (s1.link k).triesOf g < s.replayLimit k) →
        ∃ t, exec (.idleFrame k fr) s = .next t ∧ (t.link k).replay = f :: rest ∧ (t.link k).replayAt = some (f.seq, s.local) ∧
          t.linkState k = 5) ∧
      (∀ start at_, (s1.link k).replayAt = some (start, at_) → below24 start fr.ack = false → s.local < at_ + s.nakGuard k →
        exec (.idleFrame k fr) s = .next s1)) ∧
    (s.linkState k = 10 → ∀ fr, exec (.dataFrame k fr) s = .next (s0.count (RIM_COUNT1_FENCED_DROP k) 1)) ∧
    (s.linkState k ≠ 5 → s.linkState k ≠ 10 → ∀ fr, exec (.dataFrame k fr) s = .next (s0.discardFrame k)) ∧
    (s.linkState k ≠ 5 → ∀ fr, exec (.idleFrame k fr) s = .next s0) ∧
    exec (.frameCrcFail k .crc) s = .next ((s.frameIn k).frameBad k) ∧
    exec (.frameCrcFail k .fec) s = .next (((s.frameIn k).count (RIM_COUNT1_FEC_UNCORR k) 1).frameBad k) ∧
    (∀ c hd, c = 0 ∨ 4 < c → s.linkState k ≠ 10 →
      exec (.frameCrcFail k (.ctype c hd)) s = .next ((s0.rxAck k hd.ack hd.nak).discardFrame k)) ∧
    ((s.frameBad k) = (s.modLink k fun l => { l with consec := l.consec + 1 }).discardFrame k ∧
      (s.linkState k ≠ 5 ∨ (s.link k).discarded + 1 ≤ s.fld (RIM_CTRL_ERR_LIMIT k) →
        s.discardFrame k = (s.count (RIM_COUNT0_CRC_FAIL k) 1).modLink k fun l => { l with discarded := l.discarded + 1 })) ∧
    (64 ≤ (s.link k).consec → s.linkState k ≠ 10 → exec (.alignmentLost k) s = .next (s.goDown k 13))

/-- From R321 to R323, R326, R338, R350, R352: the timers of an UP link, its frame slots and its credits. An acknowledgement that does not
come counts a timeout and starts a replay, or takes the link DOWN where a frame of the window has been replayed as often as the limit
allows; more discarded frames than ERR_LIMIT in a window take it DOWN. A slot in 64 sends a control message that is due; any other sends
the next frame of a replay, else, with room in the window, a new frame of the packets that are ready, else an IDLE frame. Owed credits are
returned in one CREDIT packet, and one that arrives raises the credits of its link. What log entries 17, 50 and 99 say in it is the
model's choice. -/
def Obligations.RimTimersAndSlots : Prop :=
  ∀ (k : Nat) (s : State), s.powered = true → s.linkPresent k = true → s.linkState k = 5 →
    ((s.link k).window ≠ [] → exec (.ackTimeout k) s = .next ((s.count (RIM_COUNT0_TIMEOUTS k) 1).startReplay k)) ∧
    (∀ f rest, (s.link k).window = f :: rest →
      ((∀ g ∈ f :: rest, (s.link k).triesOf g < s.replayLimit k) → (((s.startReplay k).link k).replay = f :: rest)) ∧
      ((∃ g ∈ f :: rest, s.replayLimit k ≤ (s.link k).triesOf g) → s.startReplay k = s.goDown k 11)) ∧
    (let s0 := s.modLink k fun l => { l with discarded := 0 }
     exec (.errorRate k) s = .next (if s.fld (RIM_CTRL_ERR_LIMIT k) < (s.link k).discarded then s0.goDown k 12 else s0)) ∧
    (s.flag (RIM_CTRL_EN k) = true →
      (∀ c, 63 ≤ (s.link k).sinceCtrl → firstCtrl (s.link k).ctrl = some c → exec (.frameSlot k) s =
        .next (((s.transmit k (s.ctrlOut k c)).nakSent k).modLink k fun l => { l with ctrl := l.ctrl.erase c, sinceCtrl := 0 })) ∧
      ((s.link k).sinceCtrl < 63 ∨ (s.link k).ctrl = [] →
        let s1 := s.modLink k fun l => { l with sinceCtrl := Nat.min 64 (l.sinceCtrl + 1) }
        (∀ f rest, (s.link k).replay = f :: rest → ∃ t, exec (.frameSlot k) s = .next t ∧ (t.link k).replay = rest ∧
          (t.link k).out = (s.link k).out ++
            [.data { (s1.replayFrame k f).1 with replay := true, ack := (s.link k).rxNext, nak := (s.link k).nak }] ∧
          (t.link k).triesOf f = (s.link k).triesOf f + 1 ∧ (t.link k).nak = false ∧ (t.link k).window = (s.link k).window) ∧
        ((s.link k).replay = [] → (s.link k).windowSize ≤ (s.link k).window.length ∨ (s1.nextPackets k).1 = [] →
          ∃ t, exec (.frameSlot k) s = .next t ∧ (t.link k).out = (s.link k).out ++ [s.idleOut k (s.link k).rxNext] ∧
            (t.link k).nak = false ∧ (t.link k).window = (s.link k).window) ∧
        (∀ qs s2, (s.link k).replay = [] → (s.link k).window.length < (s.link k).windowSize → s1.nextPackets k = (qs, s2) → qs ≠ [] →
          let f : Frame := { s2.headerOut k (s.link k).txSeq (s.link k).rxNext with pkts := qs.map (·.pk) }
          ∃ t, exec (.frameSlot k) s = .next t ∧ (t.link k).out = (s2.link k).out ++ [.data f] ∧
            (t.link k).window = (s2.link k).window ++ [f] ∧ (t.link k).txSeq = ((s2.link k).txSeq + 1) % 2 ^ 24))) ∧
    (0 < (s.link k).owed → ∃ t pk, exec (.creditReturn k) s = .next t ∧
      t.port (creditPort k) = s.port (creditPort k) ++ [⟨pk, s.fld RPT_GLOBAL_ACTIVE, none, none, false⟩] ∧
      pk.ptype = 3 ∧ pk.hops = s.hopLimit ∧ pk.aux / 65536 = Nat.min (s.link k).owed 65535 ∧ pk.data = [] ∧
      (t.link k).owed = (s.link k).owed - Nat.min (s.link k).owed 65535) ∧
    (∀ (pk : Pkt) (e : Pkt × Nat) (s1 : State), pk.ptype = 3 → s.takeIngress k pk = (some e, s1) → s.ptb.flag PTB_CTRL_EN = false →
      ∃ t, exec (.creditPacket k pk) s = .next t ∧ (t.link k).credits = (s.link k).credits + pk.aux / 65536 % 65536)

/-- From R18, R20, R321, R327 to R331, R335, R338: control messages. HELLO, PROBE and BEACON are queued, once each, in the states that send
them. The ACK and NAK of a control frame act before its message, and a fenced link takes neither. A probe is answered in CHECK and UP; a
reply in CHECK is a sample of the round trip, and the sixty-fourth ends the measurement. A beacon of the device's epoch from a locked peer
below hop count 15 gives its link's source an offset; another is discarded. A HELLO, which is read from the state HELLO on, records its
sender; in HELLO it is classified, in CHECK the tests go on, and on an UP link one of a new session starts that session. From R329 to
R331, R334, R335: the transitions of a link's training by its events, each with the state that it leaves, and where the link goes DOWN or
wrong, its reason. A link that leaves UP for want of light holds its window. Where HOLD_MS expires before UP, a held window is discarded
with its reason, and the session and sequence that were received are kept no longer. What log entries 15, 16, 50 and 99 say in it is the
model's choice. -/
def Obligations.RimTrainingAndMessages : Prop :=
  ((∀ (k : Nat) (s : State), s.powered = true → s.linkPresent k = true →
      (s.linkState k ∈ [3, 4, 5, 6, 7, 9] → exec (.helloSend k) s = .next (s.pushCtrl k .hello)) ∧
      (s.linkState k = 4 → (s.link k).probes < 64 →
        exec (.probeSend k) s = .next ((s.pushCtrl k .probe).modLink k fun l => { l with probes := l.probes + 1 })) ∧
      (s.linkState k = 5 → exec (.beaconSend k) s = .next (s.pushCtrl k .beacon)) ∧
      (∀ c, c ∈ ((s.pushCtrl k c).link k).ctrl ∧ ∀ d, d ≠ c → (d ∈ ((s.pushCtrl k c).link k).ctrl ↔ d ∈ (s.link k).ctrl))) ∧
    (∀ (k : Nat) (hd : CtrlHdr) (s : State), s.receives k = true → s.quiet →
      let s0 := (s.frameIn k).modLink k fun l => { l with consec := 0 }
      let s1 := s0.rxAck k hd.ack hd.nak
      (s.linkState k = 10 → ∀ t1 times hops lk ep time h, exec (.probe k hd t1) s = .next s0 ∧ exec (.probeReply k hd times) s = .next s0 ∧
        exec (.beacon k hd hops lk ep time) s = .next s0 ∧ exec (.hello k ⟨hd, h⟩) s = .next s0) ∧
      (∀ t1, s1.linkState k = 4 ∨ s1.linkState k = 5 → exec (.probe k hd t1) s = .next (s1.pushCtrl k (.probeReply t1 s.clk))) ∧
      (∀ t1 turn, s1.linkState k = 4 → (s.link k).rttDone = false →
        let v := s.clk - t1 - turn
        let s2 := s1.modLink k fun l =>
          { l with replies := l.replies + 1, rttMin := some (match l.rttMin with | some m => Nat.min m v | none => v) }
        exec (.probeReply k hd ⟨t1, turn⟩) s = .next (if (s1.link k).replies + 1 = 64 then s2.measured k else s2)) ∧
      (∀ hops locked epoch time frac, s1.linkState k = 5 →
        let id := s.fld FTU_EPOCH_EPOCH_ID
        let there : Int := (time * 2 ^ 32 + frac % 2 ^ 32 : Nat) + (s.fld (FTU_PATH_RTT_NS k) * 2 ^ 31 : Nat) + s.asymNs k * 2 ^ 32
        (id ≠ 0 ∧ epoch = id ∧ locked = true ∧ hops < 15 → exec (.beacon k hd hops locked epoch ⟨time, frac⟩) s =
          .next (s1.sample k ⟨true, (s.servo.est : Int) - there, hops, none⟩)) ∧
        (¬ (id ≠ 0 ∧ epoch = id ∧ locked = true ∧ hops < 15) → exec (.beacon k hd hops locked epoch ⟨time, frac⟩) s = .next s1)) ∧
      (∀ h : Hello, s1.linkState k < 3 → exec (.hello k ⟨hd, h⟩) s = .next s1) ∧
      (∀ h : Hello, s.linkState k ≠ 10 → 3 ≤ s1.linkState k →
        let s2 := s1.modLink k fun l => { l with last := some h }
        let s3 := ((s2.setFld (RIM_STATUS_PEER_LINK k) h.link).setFld (RIM_STATUS_PEER_FW k) h.fwLevel).setDigest (RIM_PEER_DIGEST k) h.digest
        exec (.hello k ⟨hd, h⟩) s = .next (
          if s1.linkState k = 3 then s3.classify k h
          else if s1.linkState k = 4 then s3.checkTests k
          else if s1.linkState k = 5 ∧ h.session ≠ s.fld (RIM_SESSION_RX_SESSION k) then s3.newRxSession k h.session
          else s3)))) ∧
  ((∀ (k : Nat) (s : State), k < 36 → s.powered = true → s.linkPresent k = true →
      (s.linkState k = 0 → s.flag (RIM_CTRL_EN k) = true → ∃ t, exec (.linkLightDelay k) s = .next t ∧ t.linkState k = 1 ∧
        (t.link k).far = s.flag (RIM_CTRL_FAR k) ∧ (t.link k).wire = s.wireEntry k) ∧
      (s.linkState k = 1 → (∃ t, exec (.lightReceived k) s = .next t ∧ t.linkState k = 2) ∧
        (∃ t, exec (.linkOpen k) s = .next t ∧ t.linkState k = 8 ∧ t.flag (RIM_STATUS_REVERSAL k) = s.flag (RIM_CTRL_PEER_OPEN k))) ∧
      (s.linkState k = 8 → ∃ t, exec (.lightReceived k) s = .next t ∧ t.linkState k = 1) ∧
      (s.linkState k = 2 → (∃ t, exec (.pcsLock k) s = .next t ∧ t.linkState k = 3) ∧
        (∃ t, exec (.lockTimeout k) s = .next t ∧ t.linkState k = 0 ∧ t.fld (RIM_STATUS_REASON k) = 9)) ∧
      (s.linkState k = 3 → ∃ t, exec (.helloTimeout k) s = .next t ∧ t.linkState k = 0 ∧ t.fld (RIM_STATUS_REASON k) = 10) ∧
      (s.linkState k = 4 → (s.link k).rttDone = false → (s.link k).replies < 16 →
        ∃ t, exec (.probeTimeout k) s = .next t ∧ t.linkState k = 0 ∧ t.fld (RIM_STATUS_REASON k) = 10) ∧
      (s.linkState k = 4 → (s.link k).rttDone = false → 16 ≤ (s.link k).replies →
        exec (.probeTimeout k) s = .next (s.measured k)) ∧
      (s.linkState k = 4 → s.flag (RIM_STATUS_CHECKED k) = true →
        ∃ t, exec (.halfTimeout k) s = .next t ∧ t.linkState k = 6 ∧ t.fld (RIM_STATUS_REASON k) = 3) ∧
      (s.linkState k ∈ [1, 2, 3, 4, 5, 6, 7, 9] → ∃ t, exec (.lightLost k) s = .next t ∧ t.linkState k = 0 ∧
        t.fld (RIM_STATUS_REASON k) = 13 ∧ (s.linkState k = 5 → (t.link k).hold.isSome = true ∧ (t.link k).window = (s.link k).window)) ∧
      (s.linkState k ≠ 5 →
        let s1 := if (s.link k).hold.isSome then s.discardWindow k (s.linkState k) (s.linkState k) 15 else s
        exec (.holdExpire k) s = .next (if (s1.link k).rxHold.isSome then
          (s1.setFld (RIM_SESSION_RX_SESSION k) 0).modLink k fun l => { l with rxHold := none, rxNext := 0 } else s1))))

/-- From R325, R330, R331, R334, R336, R338, R541: a write of a link's CTRL by the operator with a setup that is valid is stored, and then
FENCE, EN = 0, RETRAIN and UNFENCE act in that order; PEER_OPEN on an OPEN link marks a reversal and reports one that is new. One that
enables a far link whose setup is not valid is refused and leaves EN at 0. Fencing leaves a link FENCED, and taking it down leaves it
DOWN. A write of another class than the operator or firmware changes no link. A wiring map that is loaded in CHECK lets the tests go on;
else WIRE is only stored. What log entries 36, 50 and 99 say in it is the model's choice. -/
def Obligations.RimRegisters : Prop :=
  (∀ (p : Path) (k : Nat) (v : Word) (s : State), k < 36 → s.reaches .operator p (RIM_CTRL k) →
    let n := v.toNat
    let s0 := (s.storeWith .operator p (RIM_CTRL k) v (fun f => ownAllows f.own .operator (RIM_CTRL k)) fun m =>
      if s.flag DIM_UNITS_FAR_MODE then m else withBits m 1 1 0).setRttMax
    let s1 := if bitOf n 5 then s0.fenceLink k else s0
    let s2 := if ¬ bitOf n 0 ∧ s1.linkState k ≠ 10 then s1.goDown k 14 else s1
    let s3 := if bitOf n 4 ∧ s2.linkState k ≠ 10 then s2.goDown k 14 else s2
    let s4 := if bitOf n 6 ∧ ¬ bitOf n 5 then s3.unfenceLink k else s3
    let s5 := s4.setFlag (RIM_STATUS_REVERSAL k) (bitOf n 7)
    let t := if s4.linkState k = 8 then
        if bitOf n 7 ∧ s4.flag (RIM_STATUS_REVERSAL k) = false then s5.rimPost k RIM_OPEN 8 8 0 0 else s5
      else s4
    let off := ((s.refuse .operator p (RIM_CTRL k) v).setFlag (RIM_CTRL_EN k) false).setRttMax
    let bad := (if off.linkState k = 10 then off else off.goDown k 14).setFld (RIM_STATUS_LAST_CODE k) RIM_CFG_INVALID
    let out := if bitOf n 0 ∧ bitOf n 1 ∧ ¬ s.farValid k n then bad else t
    (bitOf n 0 = true → exec (.linkEnable .operator p k v) s = .next out) ∧
    (bitOf n 0 = false → exec (.linkDisable .operator p k v) s = .next out) ∧
    (bitOf n 5 = true → exec (.linkFence .operator p k v) s = .next out) ∧
    (bitOf n 6 = true → exec (.linkUnfence .operator p k v) s = .next out) ∧
    (bitOf n 4 = true → exec (.linkRetrain .operator p k v) s = .next out) ∧
    exec (.peerOpenWrite .operator p k v) s = .next out) ∧
  (∀ (k : Nat) (s : State), k < 36 → s.linkState k ≠ 10 → (s.fenceLink k).linkState k = 10 ∧
    (s.linkState k ≠ 0 → (s.goDown k 14).linkState k = 0)) ∧
  (∀ (a : Auth) (p : Path) (k : Nat) (v : Word) (s : State), a ≠ .operator → a ≠ .firmware → s.reaches a p (RIM_CTRL k) → k < 36 →
    ∃ t, exec (.peerOpenWrite a p k v) s = .next t ∧ t.linkState k = s.linkState k ∧ t.links = s.links) ∧
  (∀ (a : Auth) (p : Path) (k : Nat) (v : Word) (s : State), s.reaches a p (RIM_WIRE k) →
    let s1 := s.store a p (RIM_WIRE k) v
    (s1.linkState k = 4 → (s1.link k).wire = none → (s1.wireEntry k).isSome = true →
      exec (.wireWrite a p k v) s = .next ((s1.modLink k fun l => { l with wire := s1.wireEntry k }).checkTests k)) ∧
    (s1.linkState k ≠ 4 ∨ (s1.link k).wire ≠ none ∨ s1.wireEntry k = none → exec (.wireWrite a p k v) s = .next s1))

/-- From R353, R412, R413, R428, R538: a packet passes the border if and only if its tag is current, its source is not fenced, and no stale
generation is injected for it. The check changes nothing but counters and the injection's own count, and nothing at all where the packet
passes; a packet of an old or injected tag counts in RIM_DROP, one of a fenced source in FENCED_DROP. A tag is current if its context is
SWAPPED or RESIDENT and its generation is the context's. From R353, R354, R371, R373, R380, R382: a packet for the plait engine that is in
the ingress buffer is due at the end of its clk, after the teardowns and time limits of that clk. It then leaves the buffer; one that the
border stops does no more; past it, while the recorder is off, the engine takes it, and one whose access must wait stays where it is. The
engine gives a packet that no carry keeps to its operation in flight; one of an operation that has completed is late and counts so, any
other goes to the early buffer as far as that has room, or counts as dropped, and one that has waited there for longer than EARLY_US
leaves it and counts. A DOORBELL packet is a doorbell of a queue of its own context, and is dropped and reported for any other queue. What
log entries 51 and 57 say in it is the model's choice. -/
def Obligations.PacketsAndBorders : Prop :=
  (∀ (s : State) (pk : Pkt),
      let stale := s.ptb.flag PTB_CTRL_EN && s.ptb.fld PTB_GEN_COUNT != 0 && s.ptb.fld PTB_GEN_CONTEXT == pk.tag / 256 % 4096 &&
        (s.ptb.fld PTB_GEN_SRC == 0xFFFF || s.ptb.fld PTB_GEN_SRC == pk.src)
      let t := (s.border pk).2
      ((s.border pk).1 = true ↔ stale = false ∧ s.tagCurrent (pk.tag % 2 ^ 20) = true ∧ SMap.get (fun _ => false) s.fence pk.src = false) ∧
      ({ t with regs := [], ptbOld := [] } : State) = { s with regs := [], ptbOld := [] } ∧ ((s.border pk).1 = true → t = s) ∧
      (stale = false → s.tagCurrent (pk.tag % 2 ^ 20) = true → SMap.get (fun _ => false) s.fence pk.src = true →
        t.fld RST_BORDER_FENCED_DROP =
          Nat.min (s.fld RST_BORDER_FENCED_DROP + 1) (2 ^ (RST_BORDER_FENCED_DROP.hi + 1 - RST_BORDER_FENCED_DROP.lo) - 1)) ∧
      (stale = true ∨ s.tagCurrent (pk.tag % 2 ^ 20) = false →
        t.fld RST_BORDER_RIM_DROP = Nat.min (s.fld RST_BORDER_RIM_DROP + 1) (2 ^ (RST_BORDER_RIM_DROP.hi + 1 - RST_BORDER_RIM_DROP.lo) - 1)) ∧
      (s.tagCurrent (pk.tag % 2 ^ 20) = true ↔
        ((s.ctxOf (pk.tag / 256 % 4096)).st = .swapped ∨ (s.ctxOf (pk.tag / 256 % 4096)).st = .resident) ∧
          pk.tag % 256 = (s.ctxOf (pk.tag / 256 % 4096)).gen)) ∧
  ((∀ r ∈ ([(Instr.writePacket, 1), (Instr.resultPacket, 2), (Instr.summaryPacket, 5), (Instr.versionPacket, 6)] :
        List ((Nat → Pkt → Instr) × Nat)),
      ∀ (k : Nat) (pk : Pkt) (s : State), s.powered = true → pk.ptype = r.2 → pktCoil pk = false →
        ((∃ t, (pk, t) ∈ (s.link k).ingress) →
          exec (r.1 k pk) s = .next (s.modLink k fun l => { l with due := l.due ++ [pk] })) ∧
        ((∀ t, (pk, t) ∉ (s.link k).ingress) → exec (r.1 k pk) s = .next s)) ∧
    (∀ (k : Nat) (pk : Pkt) (s : State), (∀ slot o, s.plaitSlot slot = some o → o.endDue = false) →
      (s.links.flatMap fun e => e.2.due.map fun q => (e.1, q)) = [(k, pk)] → s.plaitEvents = s.packetDue k pk) ∧
    (∀ (k at_ : Nat) (pk pk' : Pkt) (s s1 : State), s.powered = true → s.takeIngress k pk = (some (pk', at_), s1) → s1.recorderOff →
      let gone := fun t : State => t.modLink k fun l => { l with due := l.due.erase pk }
      (∀ s2, s1.border pk' = (false, s2) → s.packetDue k pk = gone s2) ∧
      (s1.border pk' = (true, s1) →
        (∀ r' s3, s1.plaitPacket pk' at_ = (r', s3) → r' ≠ .wait → s.packetDue k pk = gone s3) ∧
        (∀ s3, s1.plaitPacket pk' at_ = (.wait, s3) → s.packetDue k pk = s.onlyAsked s3))) ∧
    (∀ (pk : Pkt) (at_ : Nat) (s : State), (pk.ptype = 1 → s.carryOf pk = none) → pk.opid < 2 ^ 31 →
      s.inFlight (pk.tag % 2 ^ 20) pk.opid = true → s.plaitPacket pk at_ = s.opPacket (pk.opid % 4096) pk at_) ∧
    (∀ (pk : Pkt) (at_ : Nat) (s : State), (pk.ptype = 1 → s.carryOf pk = none) →
      2 ^ 31 ≤ pk.opid ∨ s.inFlight (pk.tag % 2 ^ 20) pk.opid = false →
      let done := pk.opid < 2 ^ 31 ∧ SMap.get (fun _ => false) s.plaitDone (pk.tag % 2 ^ 20 * 2 ^ 32 + pk.opid) = true
      (done → s.plaitPacket pk at_ = (.ok (), s.count PLT_COUNT1_LATE_DROP 1)) ∧
      (¬ done → s.earlyUsed + pktBytes pk ≤ 4194304 → s.plaitPacket pk at_ = (.ok (), { s with early := s.early ++ [⟨pk, at_⟩] })) ∧
      (¬ done → 4194304 < s.earlyUsed + pktBytes pk → s.plaitPacket pk at_ = (.ok (), s.count PLT_COUNT1_EARLY_DROP 1))) ∧
    (∀ (k at_ : Nat) (pk' pk : Pkt) (s s1 : State), s.powered = true → pk'.ptype = 4 → s.takeIngress k pk' = (some (pk, at_), s1) →
      s1.recorderOff → s1.border pk = (true, s1) →
      let q := bits (leNat pk.data) 14 0
      let tail := bits (leNat pk.data) 63 32
      exec (.doorbellPacket k pk') s = .next
        (if (s1.queueOf q).st ≠ .unbound ∧ (s1.queueOf q).ctx = pk.tag / 256 % 4096 then s1.doorbell q tail
         else (s1.lastCode PLT_STATUS_LAST_CODE PLT_DOORBELL_DROP).post ⟨none, PLT_DOORBELL_DROP, 0x0600, q + tail * 2 ^ 32, pk.src⟩)) ∧
    (∀ (i : Nat) (e : Early) (s : State), s.powered = true → s.early[i]? = some e →
      e.at_ + Nat.max 1 (s.fld PLT_CTRL_EARLY_US) * 1000 < s.now →
      ∃ t, exec (.earlyTimeout i) s = .next t ∧ t.early = s.early.eraseIdx i ∧
        t.fld PLT_COUNT1_EARLY_DROP = Nat.min (s.fld PLT_COUNT1_EARLY_DROP + 1)
          (2 ^ (PLT_COUNT1_EARLY_DROP.hi + 1 - PLT_COUNT1_EARLY_DROP.lo) - 1)))

/-- From R356 to R361, R371, R372, R376, R381: the engine takes the head of a block's plait queue. A fence waits for the operations of its
context in flight, and holds those behind it. An operation whose descriptor fails a check completes with the code of that check; one that
passes stays at the head while its slot is taken or the tracker lacks room for it, completes with PLT_HOLD_INVALID where another context
has its hold, and is accepted otherwise; one whose reads must wait is tried again. The wait of an operation ends at its deadline plus
GRACE_NS; one whose wait has ended completes at its deadline plus twice GRACE_NS with what it holds, as PLT_SEGMENT_LOST where a reduction
lacks a result of an owner: each limit is due in its clk, and acts at the clk's end. A completed operation leaves its slot. From R207,
R364 to R368, R373: what the engine writes and how an operation ends its wait. Bytes written to a unit of HBM that may be written stand
there, and no other byte changes. The tree pairs neighbours and passes an absent leaf's neighbour on: over integers it is the sum modulo
2^64, the exclusive or, or the greatest value of the leaves that are present, in any order. An element's result is its root rounded once
to DTYPE: for a sum of integers the sum of what is present, modulo the element's width. An operation that reduces and lacks no memory
access writes these results to RECV, its own segment's where it is the owner of one, with the decision of how many ranks are missing and
which is the lowest; then an owner's goes out, and it waits for the others', and any other operation completes. One that does not reduce
writes the blocks that are whole and completes. What log entries 52, 53, 54 and 57 say in it is the model's choice. -/
def Obligations.PlaitAcceptance : Prop :=
  ((∀ (b : Nat) (s : State) (e : PlaitIssue) (rest : List PlaitIssue), s.powered = true → s.blockPresent b = true →
      s.plaitQueue b = e :: rest →
      let pop := fun s : State => s.modBlk b fun x => { x with pq := rest }
      (e.fence = true → exec (.plaitAccept b) s = .next ({ pop s with fences := s.fences ++ [⟨b, e.tag, e.idx, e.f, e.ticket,
        (s.plait.filter fun x => match x.2 with | some o => o.tag == e.tag | none => false).map (·.1)⟩] } : State).endFences) ∧
      (e.fence = false → (s.fences.any fun x => x.tag == e.tag) = true → exec (.plaitAccept b) s = .next s) ∧
      (e.fence = false → (s.fences.any fun x => x.tag == e.tag) = false →
        (∀ code s1, s.readOp b (e.tag / 256) e = (.fault code, s1) →
          exec (.plaitAccept b) s = .next ((pop s1).plaitTicket b e.tag e.idx e.f e.ticket 0xFFFF code)) ∧
        (∀ o s1, s.readOp b (e.tag / 256) e = (.ok o, s1) →
          let hold := SMap.get (fun _ => none) s.holds (holdKey (s.ctxOf (e.tag / 256)).part o.desc.hold)
          (s.plaitSlot (o.desc.opid % 4096) ≠ none ∨ s.fld DIM_FABRIC_TRACKER < s.trackerUsed + o.tracker →
            exec (.plaitAccept b) s = .next s) ∧
          (s.plaitSlot (o.desc.opid % 4096) = none → s.trackerUsed + o.tracker ≤ s.fld DIM_FABRIC_TRACKER →
            (o.desc.anyHold = true → hold ≠ none → hold ≠ some (e.tag / 256) →
              exec (.plaitAccept b) s = .next ((pop s1).plaitTicket b e.tag e.idx e.f e.ticket 0xFFFF PLT_HOLD_INVALID)) ∧
            (o.desc.anyHold = false ∨ hold = none ∨ hold = some (e.tag / 256) →
              (∀ r s2, (pop s1).acceptOp o = (r, s2) → r ≠ .wait → exec (.plaitAccept b) s = .next s2) ∧
              (∀ s2, (pop s1).acceptOp o = (.wait, s2) → exec (.plaitAccept b) s = .next (s.onlyAsked s2))))) ∧
        (∀ s1, s.readOp b (e.tag / 256) e = (.wait, s1) → exec (.plaitAccept b) s = .next (s.onlyAsked s1)))) ∧
    (∀ (slot : Nat) (o : PlaitOp) (s : State), s.powered = true → s.plaitSlot slot = some o → s.tagCurrent o.tag = true →
      let marked := s.modOp slot fun o => { o with endDue := true }
      (o.desc.op ≠ 6 → o.waitEnded = false → o.deadline + s.fld PLT_CTRL_GRACE_NS ≤ s.now →
        exec (.plaitWaitEnd slot) s = .next marked ∧
        (o.endDue = true →
          (∀ s1, s.endWait slot = (.ok (), s1) → s.limitDue slot = s1.modOp slot fun o => { o with endDue := false }) ∧
          (∀ s1, s.endWait slot = (.wait, s1) → s.limitDue slot = s.onlyAsked s1))) ∧
      (o.desc.op ≠ 6 → o.waitEnded = true → o.deadline + 2 * s.fld PLT_CTRL_GRACE_NS ≤ s.now →
        exec (.plaitSummaryTimeout slot) s = .next marked ∧
        (let lost := o.desc.op = 0 ∧ ∃ r ∈ o.owners, r ≠ o.myRank ∧ SMap.get (fun _ => 0) o.results r < (o.count r * o.eb + 7) / 8 * 8
         o.endDue = true → ∀ s1, s.writeWhole o 2 = (.ok (), s1) →
          (lost → s.limitDue slot = s1.endOp slot PLT_SEGMENT_LOST) ∧ (¬ lost → s.limitDue slot = s1.endOp slot 0))) ∧
      ∀ code, (s.endOp slot code).plaitSlot slot = none)) ∧
  ((∀ (c va a : Nat) (d : List (Byte × Bool)) (s : State), s.quiet → d ≠ [] → va % 256 + d.length ≤ 256 →
      s.translate c va .write = .ok (0, a) → s.writeHeld a d.length = false →
      ∃ t, s.engWrite c va d = (.ok (), t) ∧ (∀ i, i < d.length → t.hbmByte (a + i) = (d.getD i (0, false)).1) ∧
        ∀ x, x < a ∨ a + d.length ≤ x → t.hbmByte x = s.hbmByte x) ∧
    (∀ (d : Desc) (n : Nat) (l : List (Option Nat)), l.length < n → (∀ x, some x ∈ l → x < 2 ^ 64) →
      let here := l.filterMap id
      (here = [] → d.tree n l = none) ∧
      (d.isFloat = false → here ≠ [] →
        (d.red = 0 → d.tree n l = some (sumNat here % 2 ^ 64)) ∧
        (d.red = 1 → ∃ m ∈ here, d.tree n l = some m ∧
          ∀ x ∈ here, if d.dtype ≤ 6 then signed 64 x ≤ signed 64 m else x ≤ m) ∧
        (d.red = 3 → d.tree n l = some (here.foldl (· ^^^ ·) 0)))) ∧
    (∀ (d : Desc) (x y z : Nat), d.tree 4 [some x, some y, some z] = some (d.combine (d.combine x y) z) ∧
      d.tree 4 [some x, none, some z] = some (d.combine x z)) ∧
    (∀ (o : PlaitOp) (m e : Nat) (rows : List (Option (List (Nat × Bool)))), o.desc.correct = false ∨ m = 0 →
      o.result m rows [] e = (o.root rows e).1.map (fun x => (o.desc.finish x, (o.root rows e).2)) ∧
      (let here := rows.filterMap fun r => r.bind fun l => l[e]?
       o.desc.isFloat = false → o.desc.dtype ≤ 8 → o.desc.red = 0 → rows.length ≤ o.n → here ≠ [] →
        (∀ v ∈ here, v.1 < 2 ^ (8 * o.eb)) →
        o.result m rows [] e = some (sumNat (here.map (·.1)) % 2 ^ (8 * o.eb), here.any (·.2)))) ∧
    (∀ (o : PlaitOp) (present : List Nat) (rows : List (Option (List (Nat × Bool)))) (s s1 : State),
      s.readLeaves o present = (.ok rows, s1) → rows.length = o.n ∧ ∀ r, r < o.n → ((rows.getD r none).isSome = true ↔ r ∈ present)) ∧
    (∀ (o : PlaitOp) (rows : List (Option (List (Nat × Bool)))) (s s1 s2 : State), s.carriesFor o = [] →
      s.readLeaves o ((List.range o.n).filter fun r => !o.missing.contains r) = (.ok rows, s1) →
      s1.writeResults o (o.desc.recvVa + (if o.owner = true ∧ o.desc.op = 0 then o.offset o.myRank * o.eb else 0))
        ((List.range o.segElems).map (o.result o.missing.length rows [])) = (.ok (), s2) →
      ∃ d t, s.reduceOp o = (.ok d, t) ∧ d.missed = o.missing.length ∧ d.lowMissing = o.missing.headD 0xFFFF ∧ d.carried = false ∧
        s2.sameHbm t) ∧
    (∀ (slot : Nat) (o : PlaitOp) (s s0 : State), s.plaitSlot slot = some o → s.writeWhole o 1 = (.ok (), s0) →
      (o.reduces = false →
        let d : Summary := ⟨b2n (!o.missing.isEmpty), o.missing.headD 0xFFFF, false, false, false⟩
        s.endWait slot = (.ok (), (s0.modOp slot fun o =>
          { o with waitEnded := true, summaries := SMap.set (fun _ => none) o.summaries o.myRank (some d) }).endOp slot 0)) ∧
      (∀ d s1 s2, o.reduces = true → o.segElems ≠ 0 → o.desc.carry = false → s0.reduceOp o = (.ok d, s1) → s1.publish o d = (.ok (), s2) →
        let t := s2.modOp slot fun o => { o with waitEnded := true, parts := o.parts.filter (fun q => q.ptype == 2),
                                                 summaries := SMap.set (fun _ => none) o.summaries o.myRank (some d) }
        (o.owner = false → s.endWait slot = (.ok (), t.endOp slot 0)) ∧
        (o.owner = true → ∀ t', t.tryFinish slot = (.ok (), t') → s.endWait slot = (.ok (), t')))))

/-- From R387, R395 to R403, R495: a write of an entry's CMD that sets START runs its operation for the operator or the driver, and shows
RESULT 0; an operation that the entry's state does not allow, or of another class, shows COIL_CFG_REFUSED and is journaled. One whose
pages lie in a frame under test waits with DONE 0, and a START while DONE is 0 is ignored. The operator's write that enables a FREE entry,
where it is valid, makes it FULL_NEEDED with the extents of its table, as many mirror pages as its image has, and no READY; where the
entry is not FREE or not valid the write is refused. It waits while its tables lie in a frame under test. From R247, R388, R392 to R396,
R398, R399: while the recorder is off, a coil packet of an entry that is not enabled, or of another sequence, is dropped and counted as
stale, and one whose entry is in a state that does not take it has no effect (the model's choice, log entry 60). One that needs the member
table stays where it is while that lies in a frame under test. With no frame under test: Where the checkpoint is not staged, a PAGE piece
of the predecessor is kept in the mirror and its δ is owed, and a DELTA piece enters the parity page as an exclusive or; no other byte
changes. READY, END and an ACK for a page or for a δ are noted, and the member's part, or the commit, is looked at again. A RESTORE_REQ is
answered with the 8,192 pieces of the page that the member holds for it, and a RESTORE_PAGE piece is written, or for a parity restore
added to those before it. What log entries 60 and 61 say in it is the model's choice. -/
def Obligations.CoilEngine : Prop :=
  ((∀ r ∈ ([(Instr.coilOpen, 1, fun s e => if s.coilOpenable e then some (s.coilDoOpen e) else none),
        (Instr.coilCommit, 2, fun s e => if s.coilState e = 4 ∧ s.flag (COL_STATUS_PART_DONE e) then some (s.coilDoCommit e) else none),
        (Instr.coilDiscard, 3, fun s e => if s.coilState e = 4 then some (s.coilDoDiscard e)
          else if s.coilState e = 3 ∧ s.allReady e = false then some ((s.coilAbort e 4).coilDoDiscard e) else none),
        (Instr.coilRestore, 4, fun s e => if s.coilState e = 2 ∨ s.coilState e = 1 then some ((s.coilDoRestore e).coilRestored e) else none),
        (Instr.coilPark, 5, fun s e => if s.coilState e ∈ [0, 3, 4] then none else some (s.coilRelease e true)),
        (Instr.coilDissolve, 6, fun s e => if s.coilState e ∈ [3, 4] then none else some (s.coilRelease e false))] :
        List ((Auth → Path → Nat → Word → Instr) × Nat × (State → Nat → Option State))),
      ∀ (a : Auth) (p : Path) (e : Nat) (v : Word) (s : State), e < 16 → s.reaches a p (COL_CMD e) → bitOf v.toNat 62 = true →
        bits v.toNat 59 56 = r.2.1 →
        let s1 := s.storeWith a p (COL_CMD e) v (s.coilMay (s.fld (COL_CTRL_PART e)) a)
        let x : WaitCmd := ⟨COL_CMD e, a, p, s.reg (COL_CMD e), BitVec.ofNat 64 ((s1.reg (COL_CMD e)).toNat ||| 2 ^ 62)⟩
        let s2 := s1.setFlag (COL_CMD_DONE e) true
        let may := a = .operator ∨ (a = .driver ∧ s2.driverOwns (s2.fld (COL_CTRL_PART e)) = true)
        let run := r.2.2 (s2.commandRecord a p (COL_CMD e) x.old x.new) e
        (s1.flag (COL_CMD_DONE e) = true → s1.coilWaits e x = false →
          (may → ∀ t, run = some t → exec (r.1 a p e v) s = .next (t.setFld (COL_CMD_RESULT e) 0)) ∧
          (¬ may ∨ run = none → exec (r.1 a p e v) s =
            .next (((s2.setFld (COL_CMD_RESULT e) COIL_CFG_REFUSED).lastCode (COL_STATUS_LAST_CODE e) COIL_CFG_REFUSED).journal a p jRefused
              (COL_CMD e) x.old x.new))) ∧
        (s1.flag (COL_CMD_DONE e) = true → s1.coilWaits e x = true →
          ∃ t, exec (r.1 a p e v) s = .next t ∧ t.flag (COL_CMD_DONE e) = false ∧ t.lid.waits = s1.lid.waits ++ [x] ∧
            ∀ off, off ≠ COL_CMD e → t.reg off = s1.reg off) ∧
        (s1.flag (COL_CMD_DONE e) = false → exec (r.1 a p e v) s = .next (s1.commandRecord a p (COL_CMD e) x.old x.new))) ∧
    (∀ (p : Path) (e : Nat) (v : Word) (s : State), e < 16 → s.reaches .operator p (COL_CTRL e) → bitOf v.toNat 0 = true →
      let s1 := s.storeWith .operator p (COL_CTRL e) v (s.coilMay (bits v.toNat 51 48) .operator)
      let busy := s.membersBusy e || s.testIn (s.fld (COL_IMAGE_BASE e) * 4096) 512
      (s.coilState e = 0 → busy = true → exec (.coilEnable .operator p e v) s =
        .next (s.modLid fun l => { l with waits := l.waits ++ [⟨COL_CTRL e, .operator, p, 0, v⟩] })) ∧
      (s.coilState e = 0 → busy = false → s1.coilValid e = true → ∃ t, exec (.coilEnable .operator p e v) s = .next t ∧ t.coilState e = 1 ∧
        t.fld (COL_MIRROR_PAGES e) = s1.coilN e ∧ t.fld (COL_STATUS_READY e) = 0 ∧
        (t.coil e).extents = (s1.coilExtents e).getD []) ∧
      (s.coilState e ≠ 0 ∨ (busy = false ∧ s1.coilValid e = false) →
        exec (.coilEnable .operator p e v) s = .next (s.coilRefused .operator p e (COL_CTRL e) v)))) ∧
  (∀ (k at_ : Nat) (pk' pk : Pkt) (s s1 : State), s.powered = true → pktCoil pk' = true → s.takeIngress k pk' = (some (pk, at_), s1) →
      s1.border pk = (true, s1) → s1.recorderOff → s.quiet →
      let e := bits pk.opid 26 23
      let r := pk.aux % 65536
      let n := pk.offset / 8192
      let j := pk.offset % 8192
      let kind := bits pk'.opid 30 27
      let still := s.frameTests = []
      let now := s1.flag (COL_CTRL_EN e) = true ∧ bits pk.opid 22 0 = s1.fld (COL_SEQ_CURRENT e) % 2 ^ 23
      (∀ c ∈ [(Instr.coilPage k pk', 0, [3]), (Instr.coilDelta k pk', 1, [3]), (Instr.coilAck k pk', 2, [3, 4]), (Instr.coilReady k pk', 3, [3]),
          (Instr.coilEnd k pk', 4, [3]), (Instr.coilRestoreReq k pk', 5, [0, 1, 2, 3, 4, 6, 7]), (Instr.coilRestorePage k pk', 6, [6])],
        kind = c.2.1 → (¬ now → exec c.1 s = .next (s1.count (COL_COUNT_STALE e) 1)) ∧
          (now → s1.coilState e < 8 → s1.coilState e ∉ c.2.2 → exec c.1 s = .next s1) ∧
          (now → s1.coilState e ∈ c.2.2 → s1.membersBusy e = true → exec c.1 s = .next (s.onlyAsked s1))) ∧
      (now → still → s1.coilState e = 3 →
        (kind = 0 → r = s1.coilPred e → n < s1.coilN e → pk.data.length = 256 →
          s1.flag (COL_CTRL_ATOMIC e) = false ∨ (s1.coil e).full = true →
          let a := (s1.fld (COL_MIRROR_BASE e) + n) * 2 ^ 21 + 256 * j
          ∃ t, exec (.coilPage k pk') s = .next t ∧ (∀ i, i < 256 → t.hbmByte (a + i) = pk.data.getD i 0) ∧
            (∀ x, x < a ∨ a + 256 ≤ x → t.hbmByte x = s.hbmByte x) ∧
            SMap.get (fun _ => false) (t.coil e).rx pk.offset = true ∧ SMap.get (fun _ => false) (t.coil e).deltas pk.offset = true) ∧
        (kind = 1 → n < s1.coilN e → pk.data.length = 256 → s1.flag (COL_CTRL_ATOMIC e) = false ∨ (s1.coil e).full = true →
          let h := parityHome (s1.coilR e) ((r + s1.coilR e - 1) % Nat.max 1 (s1.coilR e)) n
          let a := (s1.fld (COL_PARITY_BASE e) + h.2) * 2 ^ 21 + 256 * j
          h.1 = s1.coilPos e →
          ∃ t, exec (.coilDelta k pk') s = .next t ∧ (∀ i, i < 256 → t.hbmByte (a + i) = s.hbmByte (a + i) ^^^ pk.data.getD i 0) ∧
            ∀ x, x < a ∨ a + 256 ≤ x → t.hbmByte x = s.hbmByte x) ∧
        (kind = 3 → r < s1.coilR e → exec (.coilReady k pk') s =
          .next ((s1.setFld (COL_STATUS_READY e) (s1.fld (COL_STATUS_READY e) ||| 2 ^ r)).coilTryCommit e)) ∧
        (kind = 4 → r = s1.coilPred e → exec (.coilEnd k pk') s =
          .next ((s1.modCoil e fun c => { c with endCount := some (leNat pk.data) }).coilCheckPart e))) ∧
      (now → still → kind = 2 → s1.coilState e = 3 ∨ s1.coilState e = 4 →
        (r = s1.coilSucc e →
          let got := SMap.get (fun _ => 0) (s1.coil e).ackCount n + 1
          let s2 := s1.modCoil e fun c => { c with ackCount := SMap.set (fun _ => 0) c.ackCount n got }
          exec (.coilAck k pk') s = .next ((if got = 8192 then
            (s2.modCoil e fun c => { c with acked := SMap.set (fun _ => false) c.acked n true }).flushHeld else s2).coilCheckPart e)) ∧
        (r ≠ s1.coilSucc e → SMap.get (fun _ => false) (s1.coil e).deltas pk.offset = true →
          let s2 := s1.modCoil e fun c =>
            { c with deltas := SMap.set (fun _ => false) c.deltas pk.offset false, ackedRx := c.ackedRx + 1 }
          exec (.coilAck k pk') s = .next ((s2.coilSend e (s2.coilPkt e 2 (s2.coilPred e) pk.offset false [])).coilCheckPart e)) ∧
        (r ≠ s1.coilSucc e → SMap.get (fun _ => false) (s1.coil e).deltas pk.offset = false → exec (.coilAck k pk') s = .next s1)) ∧
      (now → still → kind = 5 → s1.coilState e ≠ 5 → n < s1.coilN e → ∀ a, s1.restoreSource e r n = some a →
        let w := leNat pk.data
        exec (.coilRestoreReq k pk') s = .next (s1.forEach (List.range 8192) fun s j =>
          s.coilSend e ⟨1, s1.hopLimit, w % 65536, s1.fld RPT_GLOBAL_SELF, w / 65536 % 2 ^ 20, s1.hbmPoisoned (a + 256 * j),
            2 ^ 31 + 6 * 2 ^ 27 + w / 2 ^ 36 % 16 * 2 ^ 23 + pk.opid % 2 ^ 23, s1.now, n * 8192 + j, s1.coilPos e,
            s1.hbmBytes (a + 256 * j) 256⟩)) ∧
      (now → still → kind = 6 → s1.coilState e = 6 → pk.poison = false → SMap.get (fun _ => false) (s1.coil e).lost n = false →
        ∀ base, imagePageDpa (s1.coil e).extents n = some base →
        let lack := SMap.get (fun _ => 0) (s1.coil e).want pk.offset
        let first := s1.fld (COL_CMD_KIND e) ≠ 1 ∨ lack = (s1.paritySources e n).length
        let d := if first then pk.data else xorBytes (s1.hbmBytes (base + 256 * j) 256) pk.data
        0 < lack → exec (.coilRestorePage k pk') s =
          .next (((s1.coilWrite (base + 256 * j) d false true).modCoil e fun c =>
            { c with want := SMap.set (fun _ => 0) c.want pk.offset (lack - 1) }).coilRestored e)))

/-- From R405 to R407: the operator arms the recorder, while it is OFF, for an admitted context that is alone in its partition: RECORD starts
an empty recording, and REPLAY runs the records of a complete one. OFF ends a replay, and a recording with an END record of the number of
its records; the recording is then valid unless the area was full. A write that may not arm the recorder, or of the reserved mode, is
refused. What log entry 59 says in it is the model's choice. -/
def Obligations.RecorderModes : Prop :=
  ∀ (p : Path) (v : Word) (s : State), s.reaches .operator p RPL_CTRL →
    let mode := bits v.toNat 1 0
    let c := bits v.toNat 63 52
    (mode = 1 → s.rplArmable c = true → ∃ t, exec (.rplModeWrite .operator p v) s = .next t ∧ t.recorder = [] ∧ t.replay = [] ∧
      t.fld RPL_CTRL_MODE = 1 ∧ t.fld RPL_CTRL_CONTEXT = c ∧ t.flag RPL_STATUS_VALID = false ∧ t.fld RPL_STATUS_USED = 0) ∧
    (s.rplArmable c = true ↔ s.fld RPL_CTRL_MODE = 0 ∧ s.admitted c = true ∧
      ∀ d ∈ s.ctxList, d = c ∨ s.admitted d = false ∨ (s.ctxOf d).part ≠ (s.ctxOf c).part) ∧
    (mode = 2 → s.rplArmable c = true → s.rplFull = false → s.flag RPL_STATUS_VALID = true → exec (.rplModeWrite .operator p v) s =
      .next ({ s.store .operator p RPL_CTRL v with replay := s.recorder } : State).rplFinish) ∧
    (mode = 0 → s.fld RPL_CTRL_MODE ≠ 1 → ∃ t, exec (.rplModeWrite .operator p v) s = .next t ∧ t.replay = [] ∧
      t.recorder = s.recorder ∧ t.fld RPL_CTRL_MODE = 0) ∧
    (mode = 0 → s.fld RPL_CTRL_MODE = 1 → s.rplFull = false →
      let e : RplRec := ⟨4, s.now, leBytes s.recorder.length 8⟩
      rplBytes s.recorder + e.size ≤ 2 ^ 35 → ∃ t, exec (.rplModeWrite .operator p v) s = .next t ∧ t.recorder = s.recorder ++ [e] ∧
        t.flag RPL_STATUS_VALID = true ∧ t.fld RPL_CTRL_MODE = 0) ∧
    (mode = 3 ∨ (mode ≠ 0 ∧ s.rplArmable c = false) ∨ (mode = 2 ∧ (s.rplFull = true ∨ s.flag RPL_STATUS_VALID = false)) → exec (.rplModeWrite .operator p v) s =
      .next ((s.refuse .operator p RPL_CTRL v).setFld RPL_STATUS_LAST_CODE RPL_CFG_REFUSED))

/-- From R419 to R421, R466: watchdogs. A firing latches the progress; it counts a strike where that has not moved and the object is watched,
and acts at STRIKES firings in a row, 2 at least; progress clears the strikes, and a firing on an object that is not watched leaves them.
Each expiry does what its row says: the context of a block is torn down and reported, the partitions that a region leads are reset and
reported, overruns and a lost companion are reported to the fabric manager, a wedged lid to the companion; a heartbeat that moves ends
COMPANION_LOST. A block that does not stop within STOP_US of a teardown resets its partition, and a reset that has not ended after 3 ms
asks for a full one. From R306, R354, R377, R403, R411, R414 to R416: the teardown of an admitted context. Its generation is bumped, so
that its old tag is current no more; its saved state and held completions are gone, its drain ends tDrain from now, and what its current
transfers can still write is in quarantine: its save area and the destinations of its moves and plait operations, page by page, or its
partition's whole range where the table has no room. Its queues lose the entry that was read, its holds are free, its packets that are in
no frame are gone, its coil entries are VOID. Its blocks stop in both sets without a save, or are scrubbed; it is torn down once it has
left them, at once where it has none. Other contexts and the blocks that do not hold it are as before. A context that is not admitted, or
already torn down, stays as it is. What log entries 43 and 62 say in it is the model's choice. -/
def Obligations.Watchdogs : Prop :=
  ((∀ (key target progress limit : Nat) (what : Watched) (watched : Bool) (s : State),
      let w := SMap.get (fun _ => Wd.reset) s.wds key
      let t := s.wdFire key what target progress watched limit
      let w' := SMap.get (fun _ => Wd.reset) t.wds key
      w'.latched = some progress ∧
      (w.latched ≠ some progress → w'.strikes = 0 ∧ t.expiries = s.expiries) ∧
      (w.latched = some progress → watched = false → w.strikes < Nat.max limit 2 → w'.strikes = w.strikes ∧ t.expiries = s.expiries) ∧
      (w.latched = some progress → watched = true → w.strikes + 1 < Nat.max limit 2 → w'.strikes = w.strikes + 1 ∧ t.expiries = s.expiries) ∧
      (w.latched = some progress → watched = true → Nat.max limit 2 ≤ w.strikes + 1 →
        w'.strikes = 0 ∧ t.expiries = s.expiries ++ [(what, target, s.now)])) ∧
    (∀ (s s1 : State) (target at_ : Nat), s.powered = true →
      (∀ b c, s.takeExpiry (.block b) = (some (target, at_), s1) → (s1.blk b).ctx = some c →
        (s1.ctxOf c).st = .swapped ∨ (s1.ctxOf c).st = .resident → (s1.ctxOf c).tearing = false →
        let s2 := s1.teardown c
        exec (.wdNoRetire b) s = .next ((s2.lastCode RST_STATUS_LAST_CODE WD_NO_RETIRE).post ⟨some (s1.tagOf c), WD_NO_RETIRE, 0x0A00 + b / 32,
          b + target * 2 ^ 8 + b2n (s2.ctxOf c).quarWide * 2 ^ 24, at_⟩)) ∧
      (∀ r, s.takeExpiry (.sched r) = (some (target, at_), s1) → exec (.wdSchedHeartbeat r) s =
        .next (s1.forEach (s1.partList.filter fun p => s1.leadRegion p == r) fun s p =>
          (s.resetPart p).rstNote WD_SCHED_HEARTBEAT r p target ((s.resetPart p).partOf p).wide 0 at_)) ∧
      (s.takeExpiry .overrun = (some (target, at_), s1) →
        let n : Note := ⟨none, WD_PLAIT_OVERRUN, 0x0AFF, target * 2 ^ 8, at_⟩
        let s2 := (s1.lastCode RST_STATUS_LAST_CODE WD_PLAIT_OVERRUN).post n
        exec .wdPlaitOverrun s = .next (s2.sendFm 0x43 (n.bytes s2.now))) ∧
      (s.takeExpiry .companion = (some (target, at_), s1) →
        exec .wdCompanionLost s = .next ((s1.setFlag RST_STATUS_COMPANION_LOST true).companionMsg target false at_))) ∧
    (∀ (s : State), s.powered = true → s.ready = true → s.flag RST_STATUS_LID_WEDGED = false →
      ∃ t, exec .wdLid s = .next t ∧ t.flag RST_STATUS_LID_WEDGED = true ∧ t.fld RST_STATUS_LAST_CODE = WD_LID ∧
        t.josil.queue = s.josil.queue ++ [⟨2, msgHdr 32, 2, (⟨none, WD_LID, 0x0AFF, 0, s.now⟩ : Note).bytes s.now⟩]) ∧
    (∀ (a : Auth) (p : Path) (v : Word) (s : State), s.reaches a p RST_HEARTBEAT →
      let s1 := s.store a p RST_HEARTBEAT v
      (s1.fld RST_HEARTBEAT_SEQ = s.fld RST_HEARTBEAT_SEQ → exec (.heartbeatWrite a p v) s = .next s1) ∧
      (s1.fld RST_HEARTBEAT_SEQ ≠ s.fld RST_HEARTBEAT_SEQ → s.flag RST_STATUS_COMPANION_LOST = false →
        exec (.heartbeatWrite a p v) s = .next (s1.beat 4)) ∧
      (s1.fld RST_HEARTBEAT_SEQ ≠ s.fld RST_HEARTBEAT_SEQ → s.flag RST_STATUS_COMPANION_LOST = true →
        exec (.heartbeatWrite a p v) s = .next (((s1.beat 4).setFlag RST_STATUS_COMPANION_LOST false).companionMsg 0x201 true s.now))) ∧
    (∀ (b p : Nat) (s : State), s.powered = true → (s.blk b).phase = .stopping → (s.blk b).discard = true →
      (s.blk b).stopAt + s.fld RST_CTRL_STOP_US * 1000 < s.now → s.flag RST_CTRL_ESCALATE_EN = true → s.blockPart b = some p →
      exec (.blockHung b) s = .next (s.resetPart p)) ∧
    (∀ (p at_ : Nat) (s : State), s.powered = true → (s.partOf p).resetAt = some at_ → at_ + 3000000 < s.now →
      exec (.fullResetNeeded p) s = .next (((s.setFlag RST_STATUS_NEED_FULL true).rstNote FULL_RESET_NEEDED 0xFF p 0 (s.partOf p).wide 0 at_).sendFm
        0x41 ([1, BitVec.ofNat 8 p, 0, 0] ++ leBytes at_ 8)))) ∧
  ((∀ (c : Nat) (s : State), (s.ctxOf c).st = .free ∨ (s.ctxOf c).st = .quarantine ∨ (s.ctxOf c).tearing = true → s.teardown c = s) ∧
    (∀ (c code src lo hi : Nat) (s : State), (s.ctxOf c).st = .swapped ∨ (s.ctxOf c).st = .resident → (s.ctxOf c).tearing = false →
      s.ctxFault c code src lo hi = (s.teardown c).post ⟨some (s.tagOf c), code, src, lo, hi⟩) ∧
    (∀ (c : Nat) (s : State), c < 4096 → (s.ctxOf c).gen < 256 → (s.ctxOf c).st = .swapped ∨ (s.ctxOf c).st = .resident →
      (s.ctxOf c).tearing = false →
      let t := s.teardown c
      let q := (s.settle c).quarRanges c
      let tag := s.tagOf c
      (t.ctxOf c).gen = ((s.ctxOf c).gen + 1) % 256 ∧ t.tagCurrent tag = false ∧ (t.ctxOf c).drainAt = s.now + s.tDrain ∧
      (t.ctxOf c).saved = [] ∧ (t.ctxOf c).held = [] ∧ (t.ctxOf c).quar = (s.ctxOf c).quar ++ q.1 ∧ (t.ctxOf c).quarWide = q.2 ∧
      ((∀ b, b < 128 → (s.blk b).ctx ≠ some c ∧ ((s.blk b).incoming ≠ some c ∨ (s.blk b).phase ≠ .restoring)) →
        (t.ctxOf c).st = .quarantine ∧ (t.ctxOf c).tearing = false) ∧
      (∀ b, b < 128 → (s.blk b).ctx = some c → (t.ctxOf c).st = (s.ctxOf c).st ∧ (t.ctxOf c).tearing = true ∧ (t.blk b).ctx = some c ∧
        (t.blk b).discard = true ∧ (t.blk b).stopAt = s.now ∧ (t.cset b false).placed = false ∧ (t.cset b true).placed = false ∧
        (t.blk b).phase = (if (s.blk b).phase = .restoring ∨ (s.blk b).phase = .scrubbing then .scrubbing else .stopping)) ∧
      (∀ b, b < 128 → (s.blk b).ctx ≠ some c → (s.blk b).incoming = some c → (t.blk b).incoming = none ∧
        ((s.blk b).phase = .restoring → (t.blk b).ctx = some c ∧ (t.blk b).discard = true ∧ (t.blk b).phase = .scrubbing)) ∧
      (∀ b, (s.blk b).ctx ≠ some c → (s.blk b).incoming ≠ some c → t.blk b = s.blk b) ∧ (∀ d, d ≠ c → t.ctxOf d = s.ctxOf d) ∧
      (∀ n ∈ s.ctxQueues c, t.queueOf n = { s.queueOf n with entry := none, notify := [] }) ∧
      (∀ n, n ∉ s.ctxQueues c → t.queueOf n = s.queueOf n) ∧ (∀ k, SMap.get (fun _ => none) t.holds k ≠ some c) ∧
      (∀ k, (∀ p ∈ t.port k, p.ctxTag ≠ some tag) ∧ ∀ p ∈ s.port k, p.ctxTag ≠ some tag → p ∈ t.port k) ∧
      (∀ n, n < 2 ^ 32 → SMap.get (fun _ => false) t.plaitDone (tag * 2 ^ 32 + n) = false) ∧
      (∀ e, e < 16 → s.fld (COL_CTRL_CONTEXT e) = c → s.coilState e ∉ [0, 5, 7] → t.coilState e = 5)) ∧
    (∀ (c : Nat) (s : State),
      let pages := s.quarPages c
      let x := s.ctxOf c
      (4096 < s.quarUsed + pages.length → s.quarRanges c =
        ([⟨s.fld (SCH_PART_HBM_BASE x.part) * 65536, s.fld (SCH_PART_HBM_SIZE x.part) * 65536, x.gen, true⟩], true)) ∧
      (s.quarUsed + pages.length ≤ 4096 → s.quarRanges c = (pages.map fun n => ⟨n * 2 ^ 21, 2 ^ 21, x.gen, false⟩, false)) ∧
      (∀ a, x.saveBase ≤ a → a < x.saveBase + (s.homeBlocks c).length * 2 ^ 24 → a / 2 ^ 21 ∈ pages) ∧
      (∀ m ∈ s.moves, m.tag = s.tagOf c → m.dstVirt = true → 0 < m.len → ∀ i pa, m.row ≤ i → i < m.rows →
        s.translate c (m.dst.toNat + i * m.dstStride) .write = .ok (0, pa) → pa / 2 ^ 21 ∈ pages) ∧
      (∀ slot o pa, s.plaitSlot slot = some o → o.tag = s.tagOf c → 0 < o.recvElems →
        s.translate c o.desc.recvVa .write = .ok (0, pa) → pa / 2 ^ 21 ∈ pages)))

/-- From R411, R418, R423, R424, R426, R431, R435: a partition compute reset bumps the generation of its contexts and empties its blocks,
which are in reset until their tests have ended. The fabric manager's message asks for one, recorded, and refused where the partition does
not exist; the companion driver's command asks for one and shows RESULT 0 and not DONE; one of a partition that does not exist shows
RST_REFUSED, with a REFUSED record in place of its COMMAND record. At the end no block is in reset, and one whose plane bus, core or
vector registers failed is out of service. A drain that ends makes its context FREE under the same generation, unbinds its queues and
starts the scrub of every range that its last generation left in quarantine. A full device reset leaves registers, HBM, contexts, blocks
and the servo as after reset, the fuses and the commands that wait as they were, and the device without power. From R427 to R429, R434,
R435: messages of the fabric manager, accepted under an installed key and journaled, and what they do: a reset peer is posted to a
partition, a fenced peer's bit is set and its links fenced, a readmitted one's cleared and trained anew, this device fences itself or
returns; a register write changes a fence bit and no link. The fabric manager's return-to-service test starts, and HBM is lost, where it
is allowed; else it is refused; another class's command is journaled and ignored. Its end stores whether and how many lasting faults were
found, and a block whose plane bus, core or vector registers failed is out of service. ALIVE tells the device's health once step 1 of
upsett has ended. What log entries 63, 64, 65 and 66 say in it is the model's choice. -/
def Obligations.ResetsAndRecovery : Prop :=
  ((∀ (p : Nat) (s : State), s.partExists p = true → (s.partOf p).resetAt = none →
      let t := s.resetPart p
      (t.partOf p).resetAt = some s.now ∧ (t.partOf p).resetBlocks = s.partBlocks p ∧
      (∀ b ∈ s.partBlocks p, t.bst b = BlkState.reset ∧ (t.blk b).ctx = none ∧ (t.blk b).phase = .idle ∧ (t.blk b).inReset = true ∧
        (t.blk b).pq = []) ∧
      (∀ c ∈ s.partCtxs p, (s.ctxOf c).st ≠ .quarantine → (s.ctxOf c).tearing = false → (t.ctxOf c).gen = ((s.ctxOf c).gen + 1) % 256)) ∧
    (∀ (p : Path) (part : Nat) (s : State), s.powered = true → s.lid.key ≠ none → p = .mgmt0 ∨ p = .mgmt1 →
      (s.partExists part = true → exec (.partReset .operator p part) s = .next ((s.msgRecord p false 0x48 (leBytes part 1)).resetPart part)) ∧
      (s.partExists part = false → exec (.partReset .operator p part) s = .next (s.msgRecord p true 0x48 (leBytes part 1)))) ∧
    (∀ (part : Nat) (s : State), part < 16 → s.reaches .driver .josil RST_PART_CMD → s.partExists part = true →
      let v : Word := BitVec.ofNat 64 (2 ^ 62 + part * 2 ^ 48)
      let s1 := s.storeWith .driver .josil RST_PART_CMD v fun _ => true
      let s2 := (s1.commandRecord .driver .josil RST_PART_CMD (s.reg RST_PART_CMD)
        (BitVec.ofNat 64 ((s1.reg RST_PART_CMD).toNat ||| 2 ^ 62))).resetPart part
      let s3 : State := { s2 with parts := s2.parts.map fun e => (e.1, { e.2 with cmd := e.1 == part }) }
      exec (.partReset .driver .josil part) s = .next ((s3.setFld RST_PART_CMD_RESULT 0).setFlag RST_PART_CMD_DONE false)) ∧
    (∀ (part : Nat) (s : State), part < 16 → s.reaches .driver .josil RST_PART_CMD → s.partExists part = false →
      let v : Word := BitVec.ofNat 64 (2 ^ 62 + part * 2 ^ 48)
      let s1 := s.storeWith .driver .josil RST_PART_CMD v fun _ => true
      exec (.partReset .driver .josil part) s = .next (((s1.setFld RST_PART_CMD_RESULT RST_REFUSED).lastCode RST_STATUS_LAST_CODE
        RST_REFUSED).journal .driver .josil jRefused RST_PART_CMD (s.reg RST_PART_CMD)
          (BitVec.ofNat 64 ((s1.reg RST_PART_CMD).toNat ||| 2 ^ 62)))) ∧
    (∀ (part at_ : Nat) (found : List BlockFound) (s : State), s.powered = true → (s.partOf part).resetAt = some at_ →
      ∃ t, exec (.partResetDone part found) s = .next t ∧ (t.partOf part).resetAt = none ∧
        (∀ b ∈ (s.partOf part).resetBlocks, (t.blk b).inReset = false) ∧
        ∀ f ∈ found, f.block ∈ (s.partOf part).resetBlocks → f.block < 128 → f.bus = true ∨ f.core = true ∨ f.regs = true →
          t.blockOut f.block = true) ∧
    (∀ (c : Nat) (s : State), s.powered = true → (s.ctxOf c).st = .quarantine → (s.ctxOf c).drainAt ≤ s.now →
      ∃ t, exec (.drainEnd c) s = .next t ∧ (t.ctxOf c).st = .free ∧ (t.ctxOf c).gen = (s.ctxOf c).gen ∧
        (∀ q ∈ s.ctxQueues c, (t.queueOf q).st = .unbound) ∧
        let gen := ((s.ctxOf c).gen + 255) % 256
        ∀ q ∈ (s.ctxOf c).quar, q.gen = gen → (q.base, q.len, ScrubFor.quarantine c gen) ∈ t.scrubs) ∧
    (∀ (s : State), ∃ t, exec .fullReset s = .next t ∧ t.regs = State.reset.regs ∧ t.hbm = State.reset.hbm ∧ t.ctxs = [] ∧ t.blks = [] ∧
      t.powered = false ∧ t.fuses = s.fuses ∧ t.pending = s.pending ∧ t.resets = s.resets + 1 ∧ t.servo = State.reset.servo)) ∧
  ((∀ (port : Nat) (s : State), s.powered = true → s.lid.key ≠ none →
      let p := mgmtPath port
      (∀ addr kind part step, let m := leBytes addr 2 ++ leBytes kind 1 ++ leBytes part 1 ++ leBytes step 8
        (s.partExists part = true →
          let s1 := (s.msgRecord p false 0x49 m).lastCode RST_STATUS_LAST_CODE PEER_RESET
          exec (.peerReset port addr kind part step) s = .next (s1.postRing part ((⟨none, PEER_RESET, 0x0AFF, part, s1.now⟩ : Note).bytes s1.now))) ∧
        (s.partExists part = false → exec (.peerReset port addr kind part step) s = .next (s.msgRecord p true 0x49 m))) ∧
      (∀ addr digest, addr < 65536 →
        let s1 := s.msgRecord p false 0x4A (leBytes addr 2 ++ leBytes digest 32)
        (addr = s.fld RPT_GLOBAL_SELF → exec (.fencePeer port addr digest) s = .next s1.fenceSelf) ∧
        (addr ≠ s.fld RPT_GLOBAL_SELF → ∃ t, exec (.fencePeer port addr digest) s = .next t ∧ SMap.get (fun _ => false) t.fence addr = true ∧
          (∀ x, x ≠ addr → SMap.get (fun _ => false) t.fence x = SMap.get (fun _ => false) s.fence x) ∧
          ∀ k ∈ s.linksOf digest, t.linkState k = 10) ∧
        (let s2 := (s.msgRecord p false 0x4B (leBytes addr 2 ++ leBytes digest 32)).setFence addr false
         let s3 := s2.forEach (s2.linksOf digest) State.unfenceLink
         exec (.readmitPeer port addr digest) s = .next (s3.rstNote READMITTED 0xFF 0 0 false 0 s3.now) ∧
         SMap.get (fun _ => false) s2.fence addr = false)) ∧
      exec (.fenceSelf port) s = .next (s.msgRecord p false 0x4C []).fenceSelf ∧
      exec (.readmitSelf port) s = .next (s.msgRecord p false 0x4D []).readmitSelf) ∧
    (∀ (s : State), s.fenceSelf.flag RST_STATUS_SELF_FENCED = true ∧ (∀ k, s.linkPresent k = true → s.fenceSelf.linkState k = 10) ∧
      s.readmitSelf.flag RST_STATUS_SELF_FENCED = false) ∧
    (∀ (p : Path) (v : Word) (s : State), s.reaches .operator p RST_PEER_DATA →
      ∃ t, exec (.peerFenceWrite .operator p v) s = .next t ∧ t.links = s.links ∧
        SMap.get (fun _ => false) t.fence (s.fld RST_PEER_SEL_ADDR) = bitOf v.toNat 0 ∧
        ∀ x, x ≠ s.fld RST_PEER_SEL_ADDR → SMap.get (fun _ => false) t.fence x = SMap.get (fun _ => false) s.fence x) ∧
    (∀ (p : Path) (s : State), s.powered = true → s.lid.key ≠ none → p = .mgmt0 ∨ p = .mgmt1 →
      let s1 := s.msgRecord p false 0x4E []
      (s.rtsAllowed = true → exec (.rtsStart .operator p) s = .next s1.startRts ∧ s1.startRts.hbm = [] ∧ s1.startRts.lid.rtsRunning = true) ∧
      (s.rtsAllowed = false →
        exec (.rtsStart .operator p) s = .next ((s1.setFld HLT_RTS_RESULT RST_REFUSED).lastCode RST_STATUS_LAST_CODE RST_REFUSED))) ∧
    (∀ (a : Auth) (p : Path) (s : State), a ≠ .operator → s.reaches a p HLT_RTS → exec (.rtsStart a p) s =
      .next (s.commandRecord a p HLT_RTS (s.reg HLT_RTS) (BitVec.ofNat 64 ((s.reg HLT_RTS).toNat ||| 2 ^ 62)))) ∧
    (∀ (secs : Nat) (found : List BlockFound) (frames channels : List (Nat × Nat)) (s : State), s.powered = true → s.lid.rtsRunning = true →
      let r := s.patternTests (found.filter fun f => s.blockPresent f.block)
      let n := r.1 + (r.2.marchTest frames channels).1
      ∃ t, exec (.rtsResult secs found ⟨frames, channels⟩) s = .next t ∧ t.lid.rtsRunning = false ∧ t.flag HLT_RTS_DONE = true ∧
        t.fld HLT_RTS_RESULT = (if n = 0 then RTS_CLEAN else RTS_FAULTS) ∧ t.fld HLT_RTS_FOUND = n % 2 ^ 16 ∧
        ∀ f ∈ found, s.blockPresent f.block = true → f.bus = true ∨ f.core = true ∨ f.regs = true → t.blockOut f.block = true) ∧
    (∀ (s : State), s.driven = true → exec .alive s = .next (s.sendFm 0x40 (leBytes s.now 8 ++ leBytes (s.rstStatus % 2 ^ 32) 4 ++
      leBytes ((s.reg HLT_STATUS).toNat % 2 ^ 32) 4 ++ leBytes (s.reg HLT_COUNT).toNat 8 ++ leBytes (s.reg HLT_PRIOR).toNat 8))))

/-- From R439 to R445, R447, R462: the Josil link's training and its flits. DETECT, EQUALISE and ALIGN follow one another, and ALIGN ends in
ACTIVE, with the widths and the lanes of both directions and the credits, which the device grants as well, where both have a width and the
credits are enough; else the link fails. A lane that is lost retrains an ACTIVE link, which keeps its window; so does the driver's write,
which may flush the cache as well: a held line is evicted, at once or when its fill has ended. A retrain ends in ACTIVE, or fails without
a width or at its limit. A flit's 256 bytes are read back as they were formed. One that fails FEC or its CRC, or is of a reserved type
(the model's reading, log entry 68), is counted; a good one releases the flits below its ACK, and its NAK starts a replay; in sequence its
credits are taken, and a PAYLOAD flit moves the sequence on and its slots are read; a later one asks for a NAK. An acknowledgement that
does not come starts a replay, or retrains the link where a flit has been replayed as often as the limit allows. A slot carries the next
flit of a replay, a new PAYLOAD flit of what may be sent, or an IDLE flit. What log entries 67, 68 and 100 say in it is the model's
choice. -/
def Obligations.JosilLinkRules : Prop :=
  (∀ (s : State), s.powered = true →
    (∀ sig, s.jslState = 1 → ∃ t, exec (.jslDetectEnd sig) s = .next t ∧ t.jslState = 2 ∧ t.josil.signal = sig % 65536) ∧
    (s.jslState = 2 → ∃ t, exec .jslEqualiseDone s = .next t ∧ t.jslState = 3 ∧ t.josil.sets = trainingSets 0 0) ∧
    (∀ low high q d m, s.jslState = 3 →
      let found := alignLanes (fun p => !bitOf s.josil.signal p) (low ++ high)
      let ok := (chosenLanes found.good).length ≠ 0 ∧ found.txLanes.length ≠ 0 ∧ 1 ≤ q ∧ 256 ≤ d ∧ 1 ≤ m
      (ok → ∃ t, exec (.jslAlignDone low high q d m) s = .next t ∧ t.jslState = 4 ∧ t.josil.granted = (1024, 32768, 64) ∧
        (s.ptb.flag PTB_CTRL_EN = false → t.josil.crReq = q ∧ t.josil.crData = d ∧ t.josil.crMsg = m) ∧
        t.fld JSL_STATUS_RX_WIDTH = (chosenLanes found.good).length ∧ t.fld JSL_STATUS_TX_WIDTH = found.txLanes.length ∧
        t.josil.txLanes = found.txLanes) ∧
      (¬ ok → ∃ t, exec (.jslAlignDone low high q d m) s = .next t ∧ t.jslState = 6)) ∧
    (∀ lane, s.jslState = 4 → lane ∈ chosenLanes (s.fld JSL_STATUS_RX_GOOD) →
      ∃ t, exec (.jslLaneFecLoss lane) s = .next t ∧ t.jslState = 5 ∧ t.josil.window = s.josil.window ∧ t.josil.queue = s.josil.queue) ∧
    (∀ low high, s.jslState = 5 →
      let found := alignLanes (fun _ => false) (low ++ high)
      let ok := (chosenLanes found.good).length ≠ 0 ∧ found.txLanes.length ≠ 0 ∧ s.josil.retrains + 1 < Nat.max 1 (s.fld JSL_CTRL_RETRAIN_LIMIT)
      (ok → ∃ t, exec (.jslRetrainDone low high) s = .next t ∧ t.jslState = 4 ∧ t.josil.retrains = s.josil.retrains + 1 ∧
        t.josil.window = s.josil.window ∧ t.josil.txLanes = found.txLanes) ∧
      (¬ ok → ∃ t, exec (.jslRetrainDone low high) s = .next t ∧ t.jslState = 6))) ∧
  (∀ (p : Path) (v : Word) (s : State), s.reaches .driver p JSL_CTRL →
    let s1 := s.store .driver p JSL_CTRL v
    let s2 := if bitOf v.toNat 1 then s1.flushLines.setFlag JSL_STATUS_FLUSHING true else s1
    let t := if bitOf v.toNat 0 then s2.jslRetrain else s2
    (bitOf v.toNat 0 = true → exec (.jslRetrainWrite .driver p v) s = .next t) ∧
    (bitOf v.toNat 1 = true → exec (.flush .driver p v) s = .next t)) ∧
  (∀ (n : Nat) (s : State), (s.line n).st ≠ .invalid →
    let t := s.flushLines
    ((s.line n).filling = false → (t.line n).evicting = true ∧ (t.line n).st = .invalid) ∧
    ((s.line n).filling = true → n ∈ t.josil.flush ∧ t.line n = s.line n) ∧
    (n ∈ s.josil.flush → ((s.fillEnded n).line n).evicting = true ∧ n ∉ (s.fillEnded n).josil.flush)) ∧
  (∀ (s : State), s.powered = true → s.flag JSL_STATUS_FLUSHING = true → s.josil.flush = [] → (s.josil.lines.all fun e => !e.2.evicting) = true →
    exec .flushDone s = .next (s.setFlag JSL_STATUS_FLUSHING false)) ∧
  (∀ (f : OutFlit), f.seq < 4096 → f.ack < 4096 → f.crReq < 65536 → f.crData < 65536 → f.crMsg < 65536 → f.slots.length = 15 →
    (∀ x ∈ f.slots, x.length = 16) → f.bytes.length = 256 ∧ flitFrom f.bytes = some f) ∧
  (∀ (fl : Flit) (s : State), s.powered = true → s.jslState = 4 →
    (fl.fecOk = false ∨ flitFrom fl.bytes = none → exec (.flitReceive fl) s =
      .next ((if fl.fecOk then s else s.count JSL_COUNT0_FEC_UNCORR 1).count JSL_COUNT0_CRC_FAIL 1)) ∧
    (∀ f, fl.fecOk = true → flitFrom fl.bytes = some f →
      let s0 := s.releaseFlits f.ack
      let s1 := if f.nak then s0.startFlitReplay else s0
      s0.josil.window = (s.josil.window.filter fun g => !below12 g.seq f.ack) ∧
      (f.seq = s.josil.rxNext → f.payload = false → exec (.flitReceive fl) s = .next (s1.josilCredits f.crReq f.crData f.crMsg)) ∧
      (f.seq = s.josil.rxNext → f.payload = true →
        let s2 := (s1.josilCredits f.crReq f.crData f.crMsg).modJosil fun j =>
          { j with rxNext := (j.rxNext + 1) % 4096, gap := false, retrains := 0, rxSlots := j.rxSlots ++ f.slots }
        exec (.flitReceive fl) s = .next (s2.parseSlots s2.josil.rxSlots.length)) ∧
      (f.seq ≠ s.josil.rxNext → below12 s.josil.rxNext f.seq = true → exec (.flitReceive fl) s = .next s1.wantFlitNak ∧
        s1.wantFlitNak.josil.gap = true) ∧
      (f.seq ≠ s.josil.rxNext → below12 s.josil.rxNext f.seq = false → exec (.flitReceive fl) s = .next s1)) ∧
    exec .flitAckTimeout s = .next s.startFlitReplay ∧
    (let tries (f : OutFlit) : Nat := SMap.get (fun _ => 0) s.josil.tries f.seq
     let limit := Nat.max 1 (s.fld JSL_CTRL_REPLAY_LIMIT)
     (s.josil.window ≠ [] → (∀ f ∈ s.josil.window, tries f < limit) → s.startFlitReplay.josil.replay = s.josil.window) ∧
     ((∃ f ∈ s.josil.window, limit ≤ tries f) → s.startFlitReplay.jslState = 5)) ∧
    (∀ f rest, s.josil.replay = f :: rest → ∃ t, exec .flitSlot s = .next t ∧ t.josil.replay = rest ∧ ∃ g : OutFlit,
      t.josil.out = s.josil.out ++ [g] ∧ g.payload = true ∧ g.replay = true ∧ g.seq = f.seq ∧ g.nak = f.nak ∧ g.slots = f.slots ∧
      g.ack = s.josil.rxNext) ∧
    (∀ l s1, s.josil.replay = [] → s.josil.window.length < 1024 → s.fillSlots 64 15 = (l, s1) → l ≠ [] →
      ∃ t, exec .flitSlot s = .next t ∧ t.josil.txSeq = (s.josil.txSeq + 1) % 4096 ∧ ∃ g : OutFlit, g.payload = true ∧ g.replay = false ∧
        g.seq = s.josil.txSeq ∧ g.slots.take l.length = l ∧ t.josil.out = s1.josil.out ++ [g] ∧ t.josil.window = s1.josil.window ++ [g]) ∧
    (s.josil.replay = [] → (s.fillSlots 64 15).1 = [] → ∃ t, exec .flitSlot s = .next t ∧ ∃ g : OutFlit,
      t.josil.out = s.josil.out ++ [g] ∧ g.payload = false ∧ g.seq = s.josil.txSeq ∧ g.ack = s.josil.rxNext ∧ g.slots = [] ∧
      t.josil.txSeq = s.josil.txSeq))

/-- From R449, R451, R459, R460, R463, R470: messages of the companion. A response that no request awaits is dropped and counted as late. One
of a current tag answers its request: CMP or CMP_DATA the burst of a move with its status or its data, CMP_DATA what the lid fetches, CMP
the eviction of a line, or a fill that was not performed; a grant installs its line and is acknowledged, where the cache has room. A snoop
of a line that is neither evicted nor filled is answered at once, with the data of a modified line, and the line goes to I or S. A request
that is not answered in time is retired and ends with JSL_TIMEOUT. What log entries 22 and 69 say in it is the model's choice. -/
def Obligations.JosilMessages : Prop :=
  (∀ (h : JHdr) (data : List Byte) (s s1 : State) (m : JMsg), s.powered = true → m.data = data →
    (s.takeMsg fun m => decide (m.hdr = h ∧ m.data = data)) = (some m, s1) →
    (s1.takeReq h = (none, s1.count JSL_COUNT1_LATE_RSP 1) →
      (h.opc = 0x10 → data = [] → exec (.cmp h) s = .next (s1.count JSL_COUNT1_LATE_RSP 1)) ∧
      (h.opc = 0x11 → exec (.cmpData h data) s = .next (s1.count JSL_COUNT1_LATE_RSP 1)) ∧
      (h.opc = 0x12 → exec (.grantS h data) s = .next (s1.count JSL_COUNT1_LATE_RSP 1)) ∧
      (h.opc = 0x13 → exec (.grantE h data) s = .next (s1.count JSL_COUNT1_LATE_RSP 1))) ∧
    (∀ (r : JReq) (s2 : State), s1.takeReq h = (some r, s2) → (h.noCtx || s2.tagCurrent h.tag) = true →
      (∀ id, r.who = .move id →
        (h.opc = 0x10 → data = [] → exec (.cmp h) s = .next (
          let code := if h.status = 0 then 0 else moveStatus h.status
          (s2.noteTarget code).moveAnswer id code)) ∧
        (h.opc = 0x11 → exec (.cmpData h data) s = .next (s2.moveData id data h.poison))) ∧
      (r.who = .lidRead → h.opc = 0x11 → h.poison = false → ∃ t, exec (.cmpData h data) s = .next t ∧
        ∀ f, s2.lid.fetch = some f → ∃ g, t.lid.fetch = some g ∧ g.bytes = f.bytes ++ data ∧ g.ok = f.ok ∧ g.addr + g.left = f.addr + f.left) ∧
      (∀ n, r.who = .fill n → h.opc = 0x10 → data = [] → ∃ t, exec (.cmp h) s = .next t ∧ (t.line n).filling = false) ∧
      (∀ n, r.who = .evict n → h.opc = 0x10 → data = [] → ∃ t, exec (.cmp h) s = .next t ∧ (t.line n).evicting = false) ∧
      (∀ n, r.who = .fill n → s2.josil.held.length < 32768 → n ∉ s2.josil.flush → s2.josil.lidWaits = [] →
        (h.opc = 0x12 → ∃ t, exec (.grantS h data) s = .next t ∧ (t.line n).st = .shared ∧ (t.line n).data = data ∧ (t.line n).filling = false ∧
          t.josil.queue = s2.josil.queue ++ [⟨0, response 0x16 h false 0 0, 0, []⟩]) ∧
        (h.opc = 0x13 → ∃ t, exec (.grantE h data) s = .next t ∧ (t.line n).st = .exclusive ∧ (t.line n).data = data ∧
          (t.line n).filling = false ∧ t.josil.queue = s2.josil.queue ++ [⟨0, response 0x16 h false 0 0, 0, []⟩])))) ∧
  (∀ (h : JHdr) (s s1 : State) (m : JMsg), s.powered = true → m.hdr = h → (s.takeMsg fun m => decide (m.hdr = h)) = (some m, s1) →
    let n := h.addr / 128
    let l := s1.line n
    l.evicting = false → l.filling = false →
    (l.st = .modified → h.opc = 0x08 ∨ h.opc = 0x09 → ∃ t, exec (if h.opc = 0x08 then .snpInv h else .snpData h) s = .next t ∧
      (t.line n).st = (if h.opc = 0x08 then .invalid else .shared) ∧
      t.josil.queue = s1.josil.queue ++ [⟨0, response 0x15 h l.poison 0 128, 0, l.data⟩]) ∧
    (l.st ≠ .modified → h.opc = 0x08 ∨ h.opc = 0x09 → ∃ t, exec (if h.opc = 0x08 then .snpInv h else .snpData h) s = .next t ∧
      (t.line n).st = (if h.opc = 0x08 then .invalid else if l.st = .invalid then .invalid else .shared) ∧
      t.josil.queue = s1.josil.queue ++ [⟨0, response 0x14 h false 0 0, 0, []⟩])) ∧
  (∀ (tid : Nat) (r : JReq) (s : State), s.powered = true → (s.josil.reqs.find? fun r => r.tid == tid) = some r →
    r.at_ + 1000 * Nat.max 1 (s.fld JSL_CTRL_REQ_TIMEOUT_US) ≤ s.now →
    exec (.jslTimeout tid) s = .next ((((s.modJosil fun j =>
      { j with reqs := j.reqs.erase r, retired := j.retired ++ [(tid, s.now)] }).lastCode JSL_STATUS_LAST_CODE JSL_TIMEOUT).count
        JSL_COUNT1_TIMEOUTS 1).endReq r JSL_TIMEOUT))

/-- From R472 to R476, R483, R487, R504, R507, R510: upsett starts as JL_RESET_N rises, and waits for the rails; an under voltage that lasts
holds the device. The table is filled from the fuses once PWR_GOOD is high and a clock is present, and is VALID then; a step whose end
condition holds ends in the next, and step 7 in READY; step 6 ends after 900 ms anyway, and TIME_UNLOCKED reads 1 then; a stack that does
not train holds upsett at step 4 until a full device reset. A grade B device has 28 blocks of each region and 4 links of each optical
engine, a grade A device all. What log entries 3, 70, 72, 78, 81 and 82 say in it is the model's choice. -/
def Obligations.UpsettSteps : Prop :=
  (∀ (s : State), s.power.resetN = false →
    (s.power.held = false → ∃ t, exec .upsettStart s = .next t ∧ t.lid.upsett = true ∧ t.lid.loc = 0 ∧ t.power.resetN = true ∧
      (s.power.railsOn = true → t.powered = true)) ∧
    (s.power.held = true → s.power.faultCause % 16 = 2 → s.power.pwrGood = false →
      exec .upsettStart s = .next (s.modPower fun w => { w with resetN := true }))) ∧
  (∀ (clkB : Bool) (s : State), s.powered = true → s.lid.upsett = true → s.flag DIM_UNITS_VALID = false → s.power.pwrGood = true →
    ∃ t, exec (.refclkRecover clkB) s = .next t ∧ t.flag DIM_UNITS_VALID = true ∧ t.flag PWR_CLK_SEL = (clkB && !s.power.refA)) ∧
  (∀ (refA refB : Bool) (s : State), s.powered = true → s.lid.upsett = true → s.flag DIM_UNITS_VALID = false → refA = true ∨ refB = true →
    ∃ t, exec (.powerGood refA refB) s = .next t ∧ t.flag DIM_UNITS_VALID = true ∧
      t.fld DIM_UNITS_BLOCKS = (if s.fuses.grade = 1 then 128 else 112) ∧ t.fld DIM_UNITS_RIM_LINKS = (if s.fuses.grade = 1 then 36 else 24) ∧
      t.fld DIM_UNITS_ENVELOPE_W = (if s.fuses.grade = 1 then 1200 else 1050) ∧
      t.fld DIM_UNITS_PARTITIONS_MAX = (if s.fuses.grade = 1 then 16 else 14) ∧ t.reg (DIM_BLOCK_MASK 0) = BitVec.ofNat 64 s.fuses.blockMask ∧
      t.reg (DIM_BLOCK_MASK 1) = BitVec.ofNat 64 (s.fuses.blockMask / 2 ^ 64) ∧ t.flag PWR_CLK_A_OK = refA ∧ t.flag PWR_CLK_B_OK = refB ∧
      t.flag PWR_CLK_SEL = !refA) ∧
  (∀ (f : Fuses),
    (f.grade = 1 → f.blockMask = 2 ^ 128 - 1 ∧ f.linkMask = 2 ^ 36 - 1) ∧
    (f.grade ≠ 1 →
      (∀ r, r < 4 → ones 32 (f.blockMask / 2 ^ (32 * r)) = 28 ∧
        (ones 32 (f.blocks / 2 ^ (32 * r)) = 28 → f.blockMask / 2 ^ (32 * r) % 2 ^ 32 = f.blocks / 2 ^ (32 * r) % 2 ^ 32)) ∧
      (∀ e, e < 6 → ones 6 (f.linkMask / 2 ^ (6 * e)) = 4 ∧
        (ones 6 (f.links / 2 ^ (6 * e)) = 4 → f.linkMask / 2 ^ (6 * e) % 2 ^ 6 = f.links / 2 ^ (6 * e) % 2 ^ 6)))) ∧
  (∀ (found : List BlockFound) (s : State), s.powered = true → s.lid.upsett = true →
    let end_ := exec (.upsettStepEnd (s.fld LID_STATUS_STEP) found) s
    (∀ n, n ≠ s.fld LID_STATUS_STEP → exec (.upsettStepEnd n found) s = .next s) ∧
    (s.fld LID_STATUS_STEP = 1 → s.flag DIM_UNITS_VALID = true → end_ = .next ((s.setFld JSL_STATUS_STATE 1).enterStep 2)) ∧
    (s.fld LID_STATUS_STEP = 2 → s.jslState = 4 →
      end_ = .next ((s.setDigest LID_IDENT (leNat (shake256 (identityKey s.fuses.secret).public 32))).enterStep 3)) ∧
    (s.fld LID_STATUS_STEP = 3 → s.lid.imageOk = true → s.flag LID_CMD_DONE = true → end_ = .next (s.enterStep 4)) ∧
    (s.fld LID_STATUS_STEP = 4 → s.lid.repairOk = true → s.lid.trainFailed = false → ∃ t, end_ = .next t ∧ t.fld LID_STATUS_STEP = 5 ∧
      ∀ k, k < 8 → t.flag (HBM_STATUS_TRAINED k) = true) ∧
    (s.fld LID_STATUS_STEP = 4 → s.lid.repairOk = false ∨ s.lid.trainFailed = true → end_ = .next s) ∧
    (s.fld LID_STATUS_STEP = 5 → end_ = .next (s.endStep5 found)) ∧
    (s.fld LID_STATUS_STEP = 6 → s.linkList.all s.linkSettled = true → s.flag FTU_STATUS_LOCKED = true → end_ = .next (s.enterStep 7)) ∧
    (s.fld LID_STATUS_STEP = 7 → ∃ t, end_ = .next t ∧ t.ready = true ∧ t.lid.upsett = false)) ∧
  (∀ (n : Nat) (s : State), n < 8 → (s.enterStep n).fld LID_STATUS_STEP = n ∧ (s.enterStep n).flag LID_STATUS_HOLD = false) ∧
  (∀ (s : State), s.powered = true → s.lid.upsett = true → s.fld LID_STATUS_STEP = 6 →
    (s.lid.step6Due = none → s.lid.step6At + 900000000 ≤ s.local) → (∀ at_, s.lid.step6Due = some at_ → at_ ≤ s.now) →
    exec .step6Limit s = .next ((s.setFlag LID_STATUS_TIME_UNLOCKED true).enterStep 7)) ∧
  (∀ (k : Nat) (s : State), s.powered = true → s.lid.upsett = true → s.fld LID_STATUS_STEP = 4 → k < 8 →
    exec (.hbmTrainFailed k) s =
      .next (((s.modLid fun l => { l with trainFailed := true }).lidPost HBM_TRAIN_FAILED).holdStep HBM_TRAIN_FAILED))

/-- From R478 to R484: an image that the lid has fetched runs if and only if every check passes, in their order; one that fails holds upsett
with the code of the first check that fails, and is counted. A repair table that passes is kept and the blocks that it names leave service
at once; one that fails its digest, its form or a record holds upsett with its code. The rollback floor is raised to the level of the
image that runs. What log entries 24, 76, 77 and 78 say in it is the model's choice. -/
def Obligations.ImagesAndRepairs : Prop :=
  (∀ (s : State) (fetched : Bool) (m : List Byte),
    let total := leAt m 16 8
    (s.imageCheck fetched m = none ↔ fetched = true ∧ imageFormat m = true ∧ bitOf s.fuses.revoked (leAt m 8 1) = false ∧
      xmssVerify 20 (Config.vendorKey (leAt m 8 1)) (m.take total) (slice m total 2820) = true ∧ s.fuses.floor ≤ leAt m 9 1 ∧
      leAt m 10 1 ≤ s.fuses.stepping ∧ leAt m 11 1 = s.fld DIM_ID_ISA_LEVEL) ∧
    let failing := [(BOOT_FETCH, !fetched), (BOOT_FORMAT, !imageFormat m), (BOOT_KEY_REVOKED, bitOf s.fuses.revoked (leAt m 8 1)),
      (BOOT_SIGNATURE, !xmssVerify 20 (Config.vendorKey (leAt m 8 1)) (m.take total) (slice m total 2820)),
      (BOOT_ROLLBACK, decide (leAt m 9 1 < s.fuses.floor)),
      (BOOT_STEPPING, decide (s.fuses.stepping < leAt m 10 1) || decide (leAt m 11 1 ≠ s.fld DIM_ID_ISA_LEVEL))]
    s.imageCheck fetched m = (failing.find? (·.2)).map (·.1)) ∧
  (∀ (s : State) (fetched : Bool) (m : List Byte),
    let n := leAt m 4 4
    (fetched = false ∨ m.length < 64 → s.repairCheck fetched m = some REPAIR_FORMAT) ∧
    (fetched = true → 64 ≤ m.length → leAt m 32 32 ≠ s.ownDigest → s.repairCheck fetched m = some REPAIR_MISMATCH) ∧
    (fetched = true → 64 ≤ m.length → leAt m 32 32 = s.ownDigest →
      let good := leAt m 0 4 = 0x52504154 ∧ n ≤ 65536 ∧ zeroAt m 8 24 = true ∧ 64 + 16 * n ≤ m.length ∧
        ∀ i, i < n → repairOk m (64 + 16 * i) = true
      (good → s.repairCheck fetched m = none) ∧ (¬ good → s.repairCheck fetched m = some REPAIR_FORMAT))) ∧
  (∀ (m : List Byte) (a : Nat), repairOk m a = true → (repairAt m a).kind ∈ [1, 2, 3, 4] ∧
    ((repairAt m a).kind = 4 → (repairAt m a).unit < 128 ∧
      (repairAt m a).value ∈ [ARR_UNREPAIRABLE, CORE_UNREPAIRABLE, VREG_PARITY, OPSTORE_PARITY, ACC_PARITY])) ∧
  (∀ (s : State) (fetched : Bool) (m : List Byte), s.powered = true → s.lidFetched 1 fetched m = true →
    match s.imageCheck fetched m with
    | some code =>
      exec (.loadImage fetched m) s = .next ((((((s.modLid fun l => { l with fetch := none }).lidEvent 3 code).count LID_STATUS_BOOT_TRIES 1).lidDone code).mailBoot code).holdStep code)
    | none => ∃ t, exec (.loadImage fetched m) s = .next t ∧ t.lid.imageOk = true ∧ t.lid.sections = imageSections m ∧ t.lid.secLevel = leAt m 9 1 ∧
      t.lid.imageDigest = leNat (shake256 (m.take (leAt m 16 8)) 32) ∧ t.fld DIM_ID_FW_LEVEL = leAt m 6 2 ∧ t.flag LID_CMD_DONE = true ∧
      t.fld LID_CMD_RESULT = 0) ∧
  (∀ (s : State) (fetched : Bool) (m : List Byte), s.powered = true → s.lidFetched 2 fetched m = true →
    match s.repairCheck fetched m with
    | some code => exec (.loadRepair fetched m) s = .next (((s.modLid fun l => { l with fetch := none }).lidDone code).holdStep code)
    | none =>
      let rs := (List.range (leAt m 4 4)).map fun i => repairAt m (64 + 16 * i)
      ∃ t, exec (.loadRepair fetched m) s = .next t ∧ t.lid.repairOk = true ∧ t.lid.repairs = rs ∧ t.flag LID_CMD_DONE = true ∧
        (∀ r ∈ rs, r.kind = 4 → s.blockPresent r.unit = true → t.blockOut r.unit = true)) ∧
  (∀ (port : Nat) (s : State), s.powered = true → s.lid.key ≠ none → s.lid.imageOk = true →
    ∃ t, exec (.raiseFloor port) s = .next t ∧ t.fuses.floor = Nat.max s.fuses.floor s.lid.secLevel ∧
      t.fld LID_EPOCH_FLOOR = Nat.max s.fuses.floor s.lid.secLevel % 128)

/-- From R480, R487 to R490, R493, R494: a command of the lid that it allows starts to fetch from the address of its register, uncached and
without a context, and DONE is 0 until it is complete; one that it does not allow is refused, and one that comes while DONE is 0 is
ignored. Attestation of an exhausted device is refused, and while no epoch advances that of any other is answered under the next index; a
request of the driver must name a partition of its own or the chip; a tree that ends lets an advance go on; a key that is installed
applies from the next clk on, which takes it, counts its KEY_ID and starts the numbering of messages anew; debug authority is enabled by
message. What log entries 25, 79 and 80 say in it is the model's choice. -/
def Obligations.AttestationAndKeys : Prop :=
  (∀ (s : State) (nonce part : Nat) (asker : Asker),
    (s.flag LID_STATUS_EXHAUSTED = true ∨ s.flag LID_EPOCH_VALID = false →
      s.attest nonce part asker = (s.lastCode LID_STATUS_LAST_CODE ATTEST_REFUSED).attestAnswer asker ATTEST_REFUSED []) ∧
    (s.flag LID_STATUS_EXHAUSTED = false → s.flag LID_EPOCH_VALID = true → s.lid.advancing = false → s.fld LID_EPOCH_USED < 65535 →
      s.attest nonce part asker = (s.setFld LID_EPOCH_USED (s.fld LID_EPOCH_USED + 1)).attestAnswer asker 0 (s.bundle nonce part))) ∧
  (∀ (s : State) (fetched : Bool) (r : List Byte), s.powered = true → s.lidFetched 3 fetched r = true →
    let s1 := s.modLid fun l => { l with fetch := none }
    (fetched = false → exec (.attest fetched r) s = .next (s1.attestAnswer (.command 0) (lidCode (Config.lidResult 1 3)) [])) ∧
    (fetched = true →
    let part := leNat ((r.drop 32).take 1)
    let dest := leNat ((r.drop 56).take 8)
    (part = 0xFF ∨ s.driverOwns part = true → exec (.attest fetched r) s = .next (s1.attest (leNat (r.take 32)) part (.command dest))) ∧
    (part ≠ 0xFF → s.driverOwns part = false → exec (.attest fetched r) s =
      .next ((s1.lastCode LID_STATUS_LAST_CODE ATTEST_REFUSED).attestAnswer (.command dest) ATTEST_REFUSED [])))) ∧
  (∀ (port nonce part : Nat) (s : State), s.powered = true → s.lid.key ≠ none →
    let m := bytes32 nonce ++ leBytes part 1
    (part % 256 = 0xFF ∨ s.partExists (part % 256) = true → exec (.attestReq port nonce part) s =
      .next ((s.msgRecord (mgmtPath port) false 0x50 m).attest (nonce % 2 ^ 256) (part % 256) .message)) ∧
    (part % 256 ≠ 0xFF → s.partExists (part % 256) = false → exec (.attestReq port nonce part) s =
      .next (s.msgRecord (mgmtPath port) true 0x50 m))) ∧
  (∀ (s : State), s.powered = true → s.flag LID_STATUS_EXHAUSTED = false →
    (s.lid.advancing = true → exec (.epochTreeDone (s.fld LID_EPOCH_EPOCH)) s =
      .next (((s.modLid fun l => { l with advancing := false, trees := [], waiting := [] }).lidPost EPOCH_ADVANCED).forEach s.lid.waiting
        fun s q => s.attest q.1 q.2.1 q.2.2)) ∧
    (s.lid.advancing = false → 49152 ≤ s.fld LID_EPOCH_USED → s.lid.trees.length < 3 →
      exec (.epochTreeDone (s.fld LID_EPOCH_BURNED + s.lid.trees.length)) s =
        .next (s.modLid fun l => { l with trees := l.trees ++ [s.fld LID_EPOCH_BURNED + s.lid.trees.length] }))) ∧
  (∀ (p : Path) (v : Word) (s : State), s.reaches .driver p LID_CMD → s.flag LID_CMD_DONE = true → bitOf v.toNat 62 = true →
    let s1 := s.storeWith .driver p LID_CMD v fun f => ownAllows f.own .driver LID_CMD
    let s2 := s1.commandRecord .driver p LID_CMD (s.reg LID_CMD) (BitVec.ofNat 64 ((s1.reg LID_CMD).toNat ||| 2 ^ 62))
    let new := BitVec.ofNat 64 ((s1.reg LID_CMD).toNat ||| 2 ^ 62)
    (∀ op, s1.fld LID_CMD_OP = op → s1.lidAllows op = false → exec (.installKey .driver p v) s =
      .next ((s1.setFld LID_CMD_RESULT (lidCode (Config.lidResult 0 op))).journal .driver p jRefused LID_CMD (s.reg LID_CMD) new)) ∧
    (∀ op, s1.fld LID_CMD_OP = op → op ∈ [1, 2, 3] → s1.lidAllows op = true → ∃ t, exec (.installKey .driver p v) s = .next t ∧
      t.flag LID_CMD_DONE = false ∧ t.fld LID_CMD_RESULT = 0 ∧
      let base := 256 * s1.fld (if op = 1 then LID_BOOT_ADDR else if op = 2 then LID_REPAIR_ADDR else LID_ATTEST_ADDR)
      let len := if op = 3 then 64 else 256 * s1.fld LID_CMD_LEN
      (∃ f, t.lid.fetch = some f ∧ f.op = op ∧ f.bytes = [] ∧ f.addr + f.left = base + len) ∧
      (len ≠ 0 → s.josil.lidWaits = [] → s.josil.lines = [] →
        ∃ r ∈ t.josil.reqs, r.opc = 1 ∧ r.addr = base ∧ r.len = Nat.min len (4096 - base % 4096) ∧ r.noCtx = true ∧ r.who = .lidRead)) ∧
    (s2.fld LID_CMD_OP = 4 → exec (.installKey .driver p v) s = .next s2.installKey) ∧
    s2.installKey.lid.newKey = some (s2.digest LID_KEY) ∧ s2.installKey.lid.key = s2.lid.key ∧
    s2.installKey.flag LID_STATUS_SESSION = true ∧ s2.installKey.fld LID_CMD_RESULT = 0) ∧
  (∀ (p : Path) (v : Word) (s : State), s.reaches .driver p LID_CMD → s.flag LID_CMD_DONE = false → bitOf v.toNat 62 = true →
    let s1 := s.store .driver p LID_CMD v
    exec (.installKey .driver p v) s = .next (s1.commandRecord .driver p LID_CMD (s.reg LID_CMD)
      (BitVec.ofNat 64 ((s1.reg LID_CMD).toNat ||| 2 ^ 62)))) ∧
  (∀ (s : State), (s.lid.newKey = none → s.takeKey = s) ∧
    (∀ k, s.lid.newKey = some k → s.takeKey.lid.key = some k ∧ s.takeKey.lid.newKey = none ∧ s.takeKey.reg MGT_TX_SEQ = 0 ∧
      s.takeKey.reg MGT_RX_HIGH = 0 ∧ s.takeKey.lid.rxSeen = [] ∧
      s.takeKey.fld MGT_STATUS_KEY_ID = (s.fld MGT_STATUS_KEY_ID + 1) % 65536)) ∧
  (∀ (port : Nat) (s : State), s.powered = true → s.lid.key ≠ none →
    ∃ t, exec (.debugEnable port) s = .next t ∧ t.flag LID_AUTH_DEBUG_EN = true)

/-- From R3, R5, R492, R541: a write is judged field by field. A field of the writer's class takes the value, a field of another keeps its
own, and a read-only or reserved one does; a write that lands is journaled with the old and the new value, one that attempts a field of
another class as refused, and then the lid's LAST_CODE is AUTH_REFUSED. A tenant's write changes no field. No other register changes but
the journal's counter. What log entries 35 and 36 say in it is the model's choice. -/
def Obligations.RegisterFields : Prop :=
  (∀ r ∈ regTable, r.fields.Pairwise (fun f g => f.hi < g.lo ∨ g.hi < f.lo) ∧ ∀ f ∈ r.fields, f.lo ≤ f.hi ∧ f.hi < 64) ∧
  (∀ (fields : List FieldSpec) (old v : Nat) (may : FieldSpec → Bool), old < 2 ^ 64 →
    fields.Pairwise (fun f g => f.hi < g.lo ∨ g.hi < f.lo) → (∀ f ∈ fields, f.lo ≤ f.hi ∧ f.hi < 64) →
    let j := judge fields old v may
    (∀ f ∈ fields, bits j.value f.hi f.lo = match f.acc with
      | .ro | .rsv | .wo => bits old f.hi f.lo
      | .rw => bits v f.hi f.lo
      | .w1c => bits old f.hi f.lo &&& (bits v f.hi f.lo ^^^ (2 ^ (f.hi + 1 - f.lo) - 1))
      | .rwl | .wol => if may f then bits v f.hi f.lo else bits old f.hi f.lo) ∧
    (∀ i, (∀ f ∈ fields, i < f.lo ∨ f.hi < i) → bitOf j.value i = bitOf old i) ∧
    (j.landed = true ↔ ∃ f ∈ fields, (f.acc = .rwl ∨ f.acc = .wol) ∧ may f = true) ∧
    (j.attempted = true ↔ ∃ f ∈ fields, (f.acc = .rwl ∨ f.acc = .wol) ∧ may f = false ∧ bits old f.hi f.lo ≠ bits v f.hi f.lo)) ∧
  (∀ (s : State) (a : Auth) (p : Path) (off : Nat) (v : Word) (locked : Bool),
    let j := judge (regFields off) (s.reg off).toNat v.toNat fun f => !locked && ownAllows f.own a off
    let t := s.store a p off v locked
    let new := if a = .tenant then s.reg off else BitVec.ofNat 64 j.value
    (off ≠ LID_JOURNAL → off ≠ LID_STATUS ∨ j.attempted = false → t.reg off = new) ∧
    (∀ o, o ≠ off → o ≠ LID_JOURNAL → o ≠ LID_STATUS ∨ j.attempted = false → t.reg o = s.reg o) ∧
    (j.attempted = true → t.fld LID_STATUS_LAST_CODE = AUTH_REFUSED) ∧
    (t.reg LID_JOURNAL).toNat = ((s.reg LID_JOURNAL).toNat + b2n j.landed + b2n j.attempted) % 2 ^ 64 ∧
    (s.lid.journal.length < 1024 →
      (j.landed = false → j.attempted = false → t.lid.journal = s.lid.journal) ∧
      (j.landed = true → j.attempted = false → ∃ r, t.lid.journal = r :: s.lid.journal ∧ r.seq = (s.reg LID_JOURNAL).toNat ∧ r.cls = a ∧
        r.path = p ∧ r.kind = jWrite ∧ r.offset = off ∧ r.old = shown off (s.reg off) ∧ r.new = shown off new) ∧
      (j.landed = false → j.attempted = true → ∃ r, t.lid.journal = r :: s.lid.journal ∧ r.seq = (s.reg LID_JOURNAL).toNat ∧ r.cls = a ∧
        r.path = p ∧ r.kind = jRefused ∧ r.offset = off ∧ r.old = shown off (s.reg off) ∧ r.new = shown off v)) ∧
    s.sameHbm t ∧ s.sameLocal t ∧ t.ctxs = s.ctxs ∧ t.queues = s.queues ∧ t.links = s.links)

/-- From R3, R184, R453 to R456, R524, R542: a write that reaches a register does what that register's write does, and one to no register
nothing; an uncached request of the companion is answered with the data or with why not, and its writes act with driver authority; the
fabric manager's accesses act with operator authority and are answered; debug accesses act only while debug authority exists. What log
entries 23, 38, 39 and 40 say in it is the model's choice. -/
def Obligations.RegisterPaths : Prop :=
  (∀ (a : Auth) (p : Path) (off : Nat) (v : Word) (s : State), s.reaches a p off →
    (findReg regTable off = none → exec (.registerWrite a p off v) s = .next s) ∧
    (∀ r ix, findReg regTable off = some (r, ix) →
      ((regActions.find? (·.base == r.base)).isNone = true → exec (.registerWrite a p off v) s = .next (s.store a p off v)) ∧
      (∀ x, regActions.find? (·.base == r.base) = some x →
        exec (.registerWrite a p off v) s = .next (x.write s ⟨a, p, off, v⟩ (ix.headD 0) ((ix.drop 1).headD 0))))) ∧
  (∀ (p : Path) (b : Nat) (v : Word) (s : State), s.reaches .debug p (BLK_CORE_CTRL b) → bitOf v.toNat 1 = true →
    exec (.coreResume .debug p b v) s = .next ((s.store .debug p (BLK_CORE_CTRL b) v).setFlag (BLK_CORE_STATUS_HALTED b) false)) ∧
  (∀ (h : JHdr) (data : List Byte) (s s1 : State) (m : JMsg), s.powered = true →
    let st := s.apertureStatus h
    let off := h.addr % 2 ^ 39
    let s2 := s1.oweCredits m
    (h.opc = 1 → (s.takeMsg fun m => m.hdr == h) = (some m, s1) →
      (st ≠ 0 → exec (.rdNc h) s = .next (s2.refuseAccess h [] st)) ∧
      (st = 0 → s.accessWaits h = true → exec (.rdNc h) s = .next s) ∧
      (st = 0 → s.accessWaits h = false → bits h.addr 55 52 = 0 →
        exec (.rdNc h) s = .next (s2.answerData h false (leBytes (s.readReg off).toNat 8))) ∧
      (st = 0 → s.accessWaits h = false → bits h.addr 55 52 ≠ 0 → s.quiet →
        exec (.rdNc h) s = .next (s2.answerData h (s.hbmPoisonedRange off h.len) (s.hbmBytes off h.len)))) ∧
    (h.opc = 2 → (s.takeMsg fun m => m.hdr == h && m.data == data) = (some m, s1) →
      (st ≠ 0 → exec (.wrNc h data) s = .next (s2.refuseAccess h data st)) ∧
      (st = 0 → s.accessWaits h = true → exec (.wrNc h data) s = .next s) ∧
      (st = 0 → s.accessWaits h = false → bits h.addr 55 52 = 0 → exec (.wrNc h data) s =
        .next ((s2.writeReg .driver .josil off (BitVec.ofNat 64 (leNat (data.take 8)))).sendJosil ⟨1, response 0x10 h false 0 0, 0, []⟩)) ∧
      (st = 0 → s.accessWaits h = false → bits h.addr 55 52 ≠ 0 → s.writeHeld off data.length = true →
        ∃ t, exec (.wrNc h data) s = .next t ∧ s.sameHbm t ∧ t.josil.queue = s1.josil.queue ∧
          t.heldWrites = s.heldWrites ++ [(off, data, if h.poison then List.range data.length else [], some (response 0x10 h false 0 0))]) ∧
      (st = 0 → s.accessWaits h = false → bits h.addr 55 52 ≠ 0 → s.writeHeld off data.length = false →
        (∀ u ∈ s.upsets, u.site ≠ .hbmWrite) → ∃ t, exec (.wrNc h data) s = .next t ∧ (∀ i, i < data.length → t.hbmByte (off + i) = data.getD i 0) ∧
          (h.poison = true → ∀ i, i < data.length → t.hbmPoisoned (off + i) = true) ∧
          (∀ x, x < off ∨ off + data.length ≤ x → t.hbmByte x = s.hbmByte x) ∧
          t.josil.queue = s.josil.queue ++ [⟨1, response 0x10 h false 0 0, 0, []⟩]))) ∧
  (∀ (port off : Nat) (v : Word) (s : State), s.powered = true → s.lid.key ≠ none → off < 2 ^ 32 →
    let p := mgmtPath port
    let rd := s.msgRecord p false 0x22 (leBytes off 4)
    let wr := s.msgRecord p false 0x23 (leBytes off 4 ++ leBytes v.toNat 8)
    let dbg := s.msgRecord p false 0x54 (leBytes off 4 ++ leBytes v.toNat 8)
    exec (.regRead port off) s = .next (rd.regRsp off (s.regStatus off)) ∧
    (s.regStatus off = 0 → exec (.regWrite port off v) s = .next ((wr.writeReg .operator p off v).regRsp off 0)) ∧
    (s.regStatus off ≠ 0 → exec (.regWrite port off v) s = .next (wr.regRsp off (s.regStatus off))) ∧
    (s.flag LID_AUTH_DEBUG_EN = true → s.regStatus off = 0 →
      exec (.debugWrite port off v) s = .next ((dbg.writeReg .debug p off v).regRsp off 0)) ∧
    (s.flag LID_AUTH_DEBUG_EN = false → exec (.debugWrite port off v) s = .next ((dbg.debugRefused p off v).regRsp off 1))) ∧
  (∀ (wr : Bool) (off : Nat) (v : Word) (s : State), s.powered = true →
    (s.flag LID_AUTH_DEBUG_EN = false → exec (.debugPortAccess wr off v) s =
      .next (s.debugRefused .debugPort off (if wr then v else s.readReg off))) ∧
    (s.flag LID_AUTH_DEBUG_EN = true →
      exec (.debugPortAccess true off v) s = .next (s.writeReg .debug .debugPort off v) ∧
      (s.served off = true → exec (.debugPortAccess false off v) s =
        .next (s.modLid fun l => { l with debugOut := l.debugOut ++ [s.readReg off] })))) ∧
  (∀ (body : List Byte) (s s1 : State) (m : JMsg), s.powered = true → s.flag RST_STATUS_LID_WEDGED = false →
    (s.takeMsg fun m => m.hdr.opc == 0x20 && m.data.drop 8 == body) = (some m, s1) →
    exec (.echo body) s = .next ((s1.oweCredits m).sendMail 0x101 (m.data.drop 8)))

/-- From R505 to R518: supplies, clocks and temperatures. A wrong power-up order, an under voltage, the loss of both clocks and the trip stop
every unit and hold the device with their cause; a lost clock moves the device to the other, at once or as soon as that is good; a window
that ends moves the level up or down by the limit; a reading sets the thermal level, an emergency stop begins at 105 °C and ends below 100
°C; THROT_REQ_N acts at once and is released with the window. What log entries 12, 71, 72, 73 and 74 say in it is the model's choice. -/
def Obligations.PowerAndClocks : Prop :=
  (∀ (rail : Nat) (s : State), s.power.pwrGood = false → ∃ t, exec (.railOrderFault rail) s = .next t ∧ t.powered = false ∧ t.power.held = true ∧
    t.power.faultCause = 1 ∧ t.power.pwrFaultN = false ∧ t.power.smbAlertN = false ∧ t.fuses = s.fuses) ∧
  (∀ (rail : Nat) (s : State), s.power.railsOn = true → s.power.held = false → rail ∈ [3, 4, 5, 6] →
    ∃ t, exec (.underVoltage rail) s = .next t ∧ t.powered = false ∧ t.power.held = true ∧ t.power.faultCause = 2 + 16 * rail ∧
      t.power.pwrFaultN = false ∧ t.power.pwrGood = false ∧ t.power.smbAlertN = false) ∧
  (∀ (s : State), s.power.railsOn = true → s.power.held = false → s.flag PWR_CLK_A_OK = false → s.flag PWR_CLK_B_OK = false →
    s.flag DIM_UNITS_VALID = true → ∃ t, exec .refclkBothLost s = .next t ∧ t.powered = false ∧ t.power.held = true ∧ t.power.faultCause = 3 ∧
      t.power.pwrFaultN = false) ∧
  (∀ (s : State), ∃ t, exec .powerOff s = .next t ∧ t.powered = false ∧ t.power.railsOn = false ∧ t.fuses = s.fuses ∧ t.hbm = [] ∧
    t.regs = State.reset.regs) ∧
  (∀ (clkB : Bool) (s : State), s.powered = true →
    (s.flag (clkOk clkB) = true → ∃ t, exec (.refclkLoss clkB) s = .next t ∧ t.flag (clkOk clkB) = false ∧
      t.flag PWR_CLK_SEL = (if s.flag PWR_CLK_SEL = clkB ∧ s.flag (clkOk !clkB) = true then !clkB else s.flag PWR_CLK_SEL) ∧
      bitOf (t.reg HLT_STATUS).toNat (if clkB then 5 else 4) = true) ∧
    (s.flag DIM_UNITS_VALID = true → ∃ t, exec (.refclkRecover clkB) s = .next t ∧ t.flag (clkOk clkB) = true ∧
      t.flag PWR_CLK_SEL = (if s.flag PWR_CLK_SEL ≠ clkB ∧ s.flag (clkOk !clkB) = false then clkB else s.flag PWR_CLK_SEL) ∧
      bitOf (t.reg HLT_STATUS).toNat (if clkB then 5 else 4) = false)) ∧
  (∀ (a : Auth) (p : Path) (v : Word) (s : State), s.reaches a p PWR_CLK → bitOf v.toNat 3 = true →
    (a = .operator → let s1 := if s.otherGood then s.switchClock else s
      exec (.clockSelect a p v) s = .next (s1.journal a p 0 PWR_CLK (s.reg PWR_CLK) (s1.reg PWR_CLK))) ∧
    (a ≠ .operator → exec (.clockSelect a p v) s = .next (s.refuseAuth a p PWR_CLK (s.reg PWR_CLK) v))) ∧
  (∀ (w : Nat) (s : State), s.powered = true → s.flag DIM_UNITS_VALID = true → s.smbStuck = false →
    let up := Nat.max 1 (bits s.power.ctrl.toNat 39 36)
    let l := s.fld PWR_STATUS_L_PWR
    ∃ t, exec (.powerWindowEnd w) s = .next t ∧ t.power.ctrl = s.reg PWR_CTRL ∧
      t.fld PWR_STATUS_L_PWR = (if s.limitW < w then Nat.min (l + up) 56
        else if w + bits s.power.ctrl.toNat 47 40 < s.limitW then l - 1 else l) ∧
      t.fld PWR_STATUS_LEVEL = Nat.max (Nat.max (t.fld PWR_STATUS_L_PWR) (s.fld PWR_STATUS_L_TH)) t.power.lExt ∧
      t.fld PWR_STATUS_POWER_W = Nat.min w 65535 ∧ (s.power.throtReqN = true → t.power.lExt = 0)) ∧
  (∀ (s : State), s.powered = true → s.power.throtReqN = true → ∃ t, exec .throtReqAssert s = .next t ∧ t.power.throtReqN = false ∧
    t.power.lExt = Nat.min 56 (bits s.power.ctrl.toNat 35 30) ∧
    t.fld PWR_STATUS_LEVEL = Nat.max (Nat.max (s.fld PWR_STATUS_L_PWR) (s.fld PWR_STATUS_L_TH)) t.power.lExt) ∧
  (∀ (s : State), exec .throtReqDeassert s = .next (s.modPower fun w => { w with throtReqN := true })) ∧
  (∀ (temps : List Int) (s : State) (t : Int) (i : Nat), s.powered = true → s.power.thermTripN = true →
    ({ s.power with temps := temps } : Power).tj = some (t, i) →
    (920 ≤ t → ∃ u, exec (.thermalSample temps) s = .next u ∧ u.powered = false ∧ u.power.faultCause = 4 ∧ u.power.thermTripN = false) ∧
    (t < 920 → ∃ u, exec (.thermalSample temps) s = .next u ∧ u.fld PWR_THERM_TJ_MAX = wrap 16 t ∧
      u.fld PWR_STATUS_L_TH = thermalLevel s.power.thStart t ∧ (u.flag PWR_STATUS_STOP = true ↔ s.flag PWR_STATUS_STOP = true ∨ 840 ≤ t))) ∧
  (∀ (mv : Nat) (temp : Int) (s : State), s.powered = true → s.power.thermTripN = true →
    let open_ := mv < 300 ∨ 900 < mv
    let s1 := s.modPower fun w => { w with diode := if open_ then none else some temp }
    exec (.diodeSample mv temp) s = .next ((((s1.setFld PWR_THERM_DIODE (if open_ then 0 else wrap 16 temp)).setFlag PWR_THERM_DIODE_OPEN
      (decide open_)).condition 6 DIODE_OPEN (decide open_)).thermal)) ∧
  (∀ (s : State) (t : Int) (i : Nat), s.powered = true → s.flag PWR_STATUS_STOP = true → s.power.tj = some (t, i) → t < 800 →
    exec .thermalStopRelease s = .next ((s.setFlag PWR_STATUS_STOP false).thermalNote false i t))

/-- From R508, R519 to R526: management ports and SMBus; the device drives them once step 1 of upsett has ended. A port that goes down or up
shows it as a condition; a datagram to another address or UDP port, or one that fails its form, its tag or its number, is counted and does
nothing, one that is good acts as its message; a request of the network layer for the port's own address is answered with its MAC or its
echo, any other frame is counted; telemetry is sent; a regulator's readings are stored; the target answers its reads; a bus that is stuck
shows it until both lines are high. What log entries 19, 39 and 75 say in it is the model's choice. -/
def Obligations.ManagementAndSmbus : Prop :=
  (∀ (port : Nat) (s : State), s.powered = true → port < 2 →
    ∃ t, exec (.mgmtPortDown port) s = .next t ∧ t.flag (mgtUp port) = false ∧ bitOf (t.reg HLT_STATUS).toNat (2 + port) = true) ∧
  (∀ (port : Nat) (s : State), s.driven = true → port < 2 →
    (∀ fec, s.flag (mgtEn port) = true → ∃ t, exec (.mgmtPortUp port fec) s = .next t ∧ t.flag (mgtUp port) = true ∧
      t.flag (mgtFec port) = fec ∧ bitOf (t.reg HLT_STATUS).toNat (2 + port) = false) ∧
    (∀ target sender data, s.flag (mgtEn port) = true →
      let mine := target = s.fld (MGT_IP_HI_ADDR port) * 2 ^ 64 + s.fld (MGT_IP_LO_ADDR port)
      let answer := fun x : NetAnswer => s.modLid fun l => { l with answered := l.answered ++ [(port, x)] }
      let here := answer (.here target (s.fld (MGT_MAC_MAC port)) sender)
      let dropped := s.count MGT_COUNT_DROPPED 1
      (mine → exec (.mgmtNetworkFrame port (.arp target sender)) s = .next here ∧
        exec (.mgmtNetworkFrame port (.neighbourSolicitation target sender)) s = .next here ∧
        exec (.mgmtNetworkFrame port (.echo target sender data)) s = .next (answer (.echo target sender data))) ∧
      (¬ mine → exec (.mgmtNetworkFrame port (.arp target sender)) s = .next dropped ∧
        exec (.mgmtNetworkFrame port (.neighbourSolicitation target sender)) s = .next dropped ∧
        exec (.mgmtNetworkFrame port (.echo target sender data)) s = .next dropped) ∧
      exec (.mgmtNetworkFrame port .other) s = .next dropped) ∧
    (∀ d : Datagram, s.flag (mgtEn port) = true → d.dest ≠ s.mgtAddr port ∨ d.udpPort ≠ s.fld MGT_CTRL_UDP_PORT →
      exec (.mgmtDatagram port d) s = .next (s.count MGT_COUNT_DROPPED 1)) ∧
    (∀ d : Datagram, s.flag (mgtEn port) = true → d.dest = s.mgtAddr port → d.udpPort = s.fld MGT_CTRL_UDP_PORT →
      let l := d.bytes
      let type := dgAt l 3 1
      let payload := (l.drop 32).take (dgAt l 4 2)
      let run := exec (.mgmtDatagram port d) s
      (isDatagram l = false → run = .next (s.count MGT_COUNT_DROPPED 1)) ∧
      (isDatagram l = true → s.tagVerifies l = false ∨ dgAt l 26 2 ≠ s.fld MGT_STATUS_KEY_ID → run = .next (s.count MGT_COUNT_AUTH_FAIL 1)) ∧
      (isDatagram l = true → s.tagVerifies l = true → dgAt l 26 2 = s.fld MGT_STATUS_KEY_ID →
        (s.seqFresh (dgAt l 8 8) = false → run = .next (s.count MGT_COUNT_DUPLICATE 1)) ∧
        (s.seqFresh (dgAt l 8 8) = true →
          let s1 := s.seqAccept (dgAt l 8 8)
          s1.seqFresh (dgAt l 8 8) = false ∧
          (∀ n, msgLen type = some n → dgAt l 6 1 = 0 → dgAt l 7 1 = 1 → n ≤ payload.length → run = .next (s1.actMsg (mgmtPath port) type payload)) ∧
          (msgLen type = none → run = .next (s1.message (mgmtPath port) type payload false id)))))) ∧
  (∀ (s : State), s.driven = true → s.fld MGT_CTRL_TELEM_MS ≠ 0 → exec .telemetry s = .next (s.sendFm 0x21
    (leBytes (s.fld PWR_STATUS_POWER_W) 2 ++ leBytes (s.fld PWR_STATUS_LEVEL) 1 ++ leBytes (s.fld PWR_STATUS_STOP) 1 ++
      leBytes (s.fld PWR_THERM_TJ_MAX) 2 ++ leBytes (s.fld PWR_THERM_DIODE) 2 ++ leBytes (s.fld PWR_THERM_HOT_SENSOR) 1 ++
      List.replicate 7 0))) ∧
  (∀ (i mv a c : Nat) (s : State), s.driven = true → s.smbStuck = false → i < 9 → s.flag (SMB_VR_EN i) = true →
    exec (.regulatorPoll i false mv a c) s = .next (s.count SMB_STATUS_NAKS 1) ∧
    ∃ t, exec (.regulatorPoll i true mv a c) s = .next t ∧ t.flag PWR_STATUS_CALIBRATED = true ∧
      t.fld (SMB_VR_VOUT_MV i) = mv % 2 ^ ((SMB_VR_VOUT_MV i).hi + 1 - (SMB_VR_VOUT_MV i).lo) ∧
      t.fld (SMB_VR_IOUT i) = a % 2 ^ ((SMB_VR_IOUT i).hi + 1 - (SMB_VR_IOUT i).lo)) ∧
  (∀ (s : State),
    let answer := fun n => s.modPower fun w => { w with smbAnswer := some n }
    exec .smbStatusRead s = .next (answer (b2n s.ready + 2 * b2n (!s.power.pwrFaultN) + 4 * s.fld PWR_STATUS_STOP +
      8 * b2n (!s.power.thermTripN) + 16 * s.fld PWR_THERM_DIODE_OPEN + 32 * b2n s.smbStuck)) ∧
    exec .smbTjRead s = .next (answer (s.fld PWR_THERM_TJ_MAX)) ∧ exec .smbPowerRead s = .next (answer (s.fld PWR_STATUS_POWER_W)) ∧
    exec .smbFaultCauseRead s = .next (answer s.power.faultCause) ∧
    exec .alertResponse s = .next (s.modPower fun w => { w with smbAlertN := true }) ∧
    exec .smbTargetTimeout s = .next (s.modPower fun w => { w with smbAnswer := none })) ∧
  (∀ (s : State), s.driven = true →
    (∀ clk ok, ¬ (clk = false ∧ ok = true) → ∃ t, exec (.smbusStuck clk ok) s = .next t ∧ t.smbStuck = true ∧
      t.flag (if clk then SMB_STATUS_CLK_STUCK else SMB_STATUS_DAT_STUCK) = true ∧ t.flag PWR_STATUS_CALIBRATED = false) ∧
    exec (.smbusStuck false true) s = .next s.smbRecovered ∧
    (s.smbStuck = true → exec (.smbusRecoveryRetry true) s = .next s.smbRecovered ∧
      ∃ t, exec .smbusLinesHigh s = .next t ∧ t.smbStuck = false ∧ t.flag SMB_STATUS_DAT_STUCK = false ∧ t.flag SMB_STATUS_CLK_STUCK = false))

/-- From R529 to R535, R539, R541: the perturbation registers are written by debug authority alone: a write of another class changes none of
them, and one that would change a field or clear them is refused, with one REFUSED record. A write shows in its register at once and is in
force from the next clk on: the rest of the clk still sees the old values. CLEAR returns the registers to reset. With the next clk the
draws start anew if SEED was written, delayed credits are released if EN is 0, and held credits that a write begins to withhold are
counted. A delayed completion or credit takes effect at its time. What log entries 11 and 83 say in it is the model's choice. -/
def Obligations.Perturbations : Prop :=
  (∀ (p : Path) (v : Word) (s : State),
    let sameInForce := fun t : State => ∀ o ∈ PTB_CTRL :: ptbRegs, t.ptb.reg o = s.ptb.reg o
    (s.reaches .debug p PTB_CTRL →
      let s1 := s.storePtb .debug p PTB_CTRL v
      let t := if bitOf v.toNat 1 then s1.forEach ptbRegs fun s o => (s.keepPtb o).setReg o (regReset o) else s1
      exec (.ptbEnable .debug p v) s = .next t ∧ sameInForce t ∧ t.flag PTB_CTRL_EN = bitOf v.toNat 0 ∧
      (bitOf v.toNat 1 = true → exec (.ptbClear .debug p v) s = .next t ∧ ∀ o ∈ ptbRegs, t.reg o = regReset o)) ∧
    (∀ c ∈ ([(PTB_SEED, Instr.ptbSeedWrite), (PTB_INJ, .ptbInjWrite), (PTB_GEN, .ptbGenWrite), (PTB_SKEW, .ptbSkewWrite)] :
        List (Nat × (Auth → Path → Word → Instr))), s.reaches .debug p c.1 →
      let j := judge (regFields c.1) (s.reg c.1).toNat v.toNat fun f => ownAllows f.own .debug c.1
      ∃ t, exec (c.2 .debug p v) s = .next t ∧ t.reg c.1 = BitVec.ofNat 64 j.value ∧ sameInForce t ∧
        t.ptbOld.any (·.1 == c.1) = true) ∧
    (∀ off ∈ ptbRegs, s.reaches .debug p off →
      ∃ t, exec (.registerWrite .debug p off v) s = .next t ∧ sameInForce t ∧
        t.reg off = BitVec.ofNat 64 (judge (regFields off) (s.reg off).toNat v.toNat fun f => ownAllows f.own .debug off).value)) ∧
  (∀ (s : State),
    let t := s.ptbApplies
    t.ptbOld = [] ∧ (∀ o, t.ptb.reg o = t.reg o ∧ (o ≠ PTB_COUNT1 ∨ s.ptbOld = [] → t.reg o = s.reg o)) ∧
    (s.ptbOld ≠ [] → t.fld PTB_COUNT1_CRED_DELAYED = Nat.min (2 ^ 32 - 1) (s.fld PTB_COUNT1_CRED_DELAYED +
      sumNat (List.zipWith (fun x y => x - y) (State.withheld { s with ptbOld := [] }) s.withheld))) ∧
    (s.ptbOld.any (·.1 == PTB_SEED) = true → t.stallDraws = 0 ∧ t.delayDraws = 0) ∧
    (s.flag PTB_CTRL_EN = false → t.credits = [] ∧ ∀ k, k < 64 →
      (t.link k).credits = (s.link k).credits + ((s.credits.filter fun e => e.2.1 == k).map (·.2.2.2)).sum) ∧
    (s.flag PTB_CTRL_EN = true → t.credits = s.credits)) ∧
  (∀ (a : Auth) (p : Path) (off : Nat) (v : Word) (s : State), a ≠ .debug → off ∈ PTB_CTRL :: ptbRegs → s.reaches a p off →
    ∃ t, exec (.registerWrite a p off v) s = .next t ∧ (∀ o ∈ PTB_CTRL :: ptbRegs, t.reg o = s.reg o) ∧ t.ptbOld = s.ptbOld ∧
      t.credits = s.credits ∧
      ((judge (regFields off) (s.reg off).toNat v.toNat fun _ => false).attempted = true ∨ (off = PTB_CTRL ∧ bitOf v.toNat 1 = true) →
        t.fld LID_STATUS_LAST_CODE = AUTH_REFUSED ∧ (s.lid.journal.length < 1024 →
          ∃ r, t.lid.journal = r :: s.lid.journal ∧ r.kind = jRefused ∧ r.cls = a ∧ r.path = p ∧ r.offset = off)) ∧
      (∀ c ∈ ([(PTB_CTRL, Instr.ptbEnable), (PTB_SEED, .ptbSeedWrite), (PTB_INJ, .ptbInjWrite), (PTB_GEN, .ptbGenWrite),
          (PTB_SKEW, .ptbSkewWrite)] : List (Nat × (Auth → Path → Word → Instr))), c.1 = off → exec (c.2 a p v) s = .next t) ∧
      (off = PTB_CTRL → bitOf v.toNat 1 = true → exec (.ptbClear a p v) s = .next t)) ∧
  (∀ (i : Nat) (d : Delayed) (s : State), s.powered = true → s.delayed[i]? = some d → d.dueNs ≤ s.now →
    ((s.delayed.take i).any fun e => e.blk == d.blk && e.unit == d.unit && orderedUnit d.unit) = false →
    exec (.ptbDelayedCompletion i) s =
      .next (State.deliver { s with delayed := s.delayed.eraseIdx i } d.tag d.idx d.f d.ticket d.word)) ∧
  (∀ (i at_ key cls n : Nat) (s : State), s.powered = true → s.credits[i]? = some (at_, key, cls, n) → at_ ≤ s.now →
    ∃ t, exec (.ptbCreditRelease i) s = .next t ∧ t.credits = s.credits.eraseIdx i ∧
      (key < 64 → (t.link key).credits = (s.link key).credits + n) ∧
      (64 ≤ key → key < 128 → (cls = 0 → t.josil.crReq = s.josil.crReq + n) ∧ (cls = 1 → t.josil.crData = s.josil.crData + n) ∧
        (2 ≤ cls → t.josil.crMsg = s.josil.crMsg + n)) ∧
      (128 ≤ key → t = { s with credits := s.credits.eraseIdx i }))

/-- The queue (the model's own, log entry 7): a step takes the command at the front and does what it does, with the rest of the queue. No
command stops the model: every one answers a next state in every state. R17, R21, R23, R474, and the model's own choice of log entry 7: a
step on an empty queue is one clk. A device that is not powered does not change; on another the clk count rises by 1, the lid's local
counter by 10/27 ns while upsett runs or is done, and fabric time, which stands before the first lock, by one clk at the corrected
frequency and a slew of at most SLEW_PPM and 500 ppm, and never falls. Memory stays as it is where nothing is due in the clk: no hold, no
packet or time limit of an operation, no fault of a core, no page of a checkpoint, no command that waits, no end of a replay and no armed
trigger slot. What log entries 7, 13, 70 and 89 say in it is the model's choice. -/
def Obligations.StepRunsTheFrontCommand : Prop :=
  ((∀ (c : Instr) (s : State), step { s with pending := c :: s.pending } = exec c s) ∧
    (∀ (c : Instr) (rest : List Instr) (s : State), s.pending = c :: rest → step s = exec c { s with pending := rest }) ∧
    (∀ (nbits w : Nat) (s : State), decodeTableWord nbits w = none ∧ s.withFetchWord nbits w = s)) ∧
  (∀ (c : Instr) (s : State), ∃ t, exec c s = .next t) ∧
  (∀ (s : State), s.pending = [] →
      (s.powered = false → step s = .next s) ∧
      (s.powered = true → ∃ t, step s = .next t ∧ t.pending = [] ∧ t.clk = s.clk + 1 ∧
        t.lid.loc = s.lid.loc + (if s.lid.upsett ∨ s.ready = true then 10 else 0) ∧
        (s.servo.everLocked = false → t.servo.est = s.servo.est) ∧
        (s.servo.everLocked = true →
          let most : Int := 1590728628 * Nat.min 500 (s.fld FTU_SERVO_SLEW_PPM) / 1000000
          s.servo.est ≤ t.servo.est ∧ (most ≤ 1590728628 + s.servo.freq →
            s.servo.est + 1590728628 + s.servo.freq - most ≤ t.servo.est ∧ t.servo.est ≤ s.servo.est + 1590728628 + s.servo.freq + most)) ∧
        ((∀ slot o, s.plaitSlot slot = some o → o.holdPending = false ∧ o.endDue = false) → (s.links.all fun e => e.2.due.isEmpty) = true →
          s.lid.waits = [] → (s.blks.all fun e => !e.2.st.faultDue) = true →
          (∀ e, e < 16 → s.coilState e ≠ 3) → s.fld RPL_CTRL_MODE ≠ 2 → (∀ off, isTrigCtrl off = true → bitOf (s.reg off).toNat 0 = false) →
          s.sameHbm t ∧ s.sameLocal t)))

/-- The model's own choice of log entry 8: on a device that is not powered no command does anything, but those of supplies, clocks, sensors,
pins and the SMBus target. -/
def Obligations.UnpoweredDeviceIsInert : Prop :=
  ∀ (c : Instr) (s : State), s.powered = false → exec c s = .next s ∨
    (∃ r, c = .railOrderFault r) ∨ (∃ r, c = .underVoltage r) ∨ c = .powerOff ∨ c = .fullReset ∨ c = .upsettStart ∨
    (∃ x y, c = .powerGood x y) ∨ (∃ k, c = .refclkLoss k) ∨ (∃ k, c = .refclkRecover k) ∨ c = .refclkBothLost ∨ c = .throtReqAssert ∨
    c = .throtReqDeassert ∨ (∃ l, c = .thermalSample l) ∨ (∃ m t, c = .diodeSample m t) ∨ c = .alertResponse ∨
    c ∈ [Instr.smbStatusRead, .smbTjRead, .smbPowerRead, .smbFaultCauseRead, .smbTargetTimeout]

/-- From R160 to R162, R238: the word of every well-formed row of a core instruction decodes to that row, with the same block and set; every
field of the word is kept. -/
def Obligations.CoreWordRoundTrip : Prop :=
  ∀ (i : Instr) (b : Nat) (f : Bool) (w : Word), i.wf = true → coreOperands i = some (b, f, w) → decodeCore b f w = i

/-- The device right after a full reset: not powered, nothing queued, nothing in memory; every register holds its reset value, those of the
chapters' tables that are not 0 among them. What log entries 1 and 5 say in it is the model's choice. -/
def Obligations.ResetState : Prop :=
  let s := State.reset
  s.powered = false ∧ s.pending = [] ∧ s.hbmOk ∧ s.regsOk ∧ (∀ a, s.hbmByte a = 0 ∧ s.hbmPoisoned a = false) ∧ (∀ off, s.reg off = regReset off) ∧
  (∀ c, (s.ctxOf c).st = .free) ∧ (∀ p, s.partExists p = false) ∧ (∀ q, (s.queueOf q).st = .unbound) ∧
  (∀ p ∈ [(DIM_ID_PART, 0x6400), (DIM_ID_ISA_LEVEL, 2), (DIM_ARRAY_LANES, 32), (DIM_ARRAY_SPARE_COLS, 2), (DIM_ARRAY_COL_ROWS, 16),
      (DIM_ARRAY_COLUMNS, 128), (DIM_ARRAY_TILE_K, 512), (DIM_ARRAY_TILE_M_MAX, 256), (DIM_ARRAY_STAKE_SLOTS, 128), (DIM_MEMORY_HBM_STACKS, 8),
      (DIM_MEMORY_HBM_STACK_GB, 64), (DIM_COMPUTE_VLMAX, 1024), (DIM_SCHED_QUEUES, 0x8000), (DIM_SCHED_CONTEXTS, 0x1000), (DIM_UNITS_VALID, 0),
      (FTU_STATUS_ERR_BOUND, 0xFFFF), (FTU_STATUS_HOPS, 15), (FTU_STATUS_LOCKED, 0), (FTU_CTRL_HOLD_LIMIT_NS, 1000), (FTU_CTRL_OUTLIER_NS, 200),
      (FTU_CTRL_BEACON_US, 10), (FTU_SERVO_SLEW_PPM, 50), (FTU_SERVO_STEP_NS, 10000), (FTU_SERVO_BANDWIDTH, 4), (HBM_SCRUB_CTRL_DONE, 1),
      (HBM_TLBI_CTRL_DONE, 1), (SCH_CTRL_BLOCKED_NS, 20000), (SCH_CTRL_FILL_EN, 1), (SCH_CMD_DONE, 1), (RIM_GLOBAL_RTT_MAX_US, 36),
      (RPT_GLOBAL_HOP_LIMIT, 8), (PLT_CTRL_GRACE_NS, 50000), (PLT_CTRL_EARLY_US, 1000), (RST_CTRL_ALIVE_MS, 100), (RST_CTRL_STOP_US, 100),
      (RST_CTRL_ESCALATE_EN, 1), (RST_WD_BLOCK_STRIKES, 4), (RST_WD_SCHED_STRIKES, 3), (RST_WD_COMP_STRIKES, 5), (RST_WD_OVERRUN_LIMIT, 64),
      (HLT_RTS_DONE, 1), (JSL_CTRL_REQ_TIMEOUT_US, 10000), (JSL_CTRL_REPLAY_LIMIT, 8), (JSL_CTRL_RETRAIN_LIMIT, 4), (LID_STATUS_STEP, 1),
      (LID_STATUS_READY, 0), (LID_CMD_DONE, 1), (PWR_CTRL_HYST_W, 20), (PWR_CTRL_STEP_UP, 4), (PWR_CTRL_EXT_LEVEL, 32), (PWR_CTRL_TH_START_C, 95),
      (MGT_CTRL_UDP_PORT, 7462), (MGT_CTRL_TELEM_MS, 1000), (SMB_CTRL_TARGET_ADDR, 0x4C), (SMB_CTRL_POLL_MS, 1), (PTB_CTRL_EN, 0),
      (PTB_INJ_COLUMN, 0xFF), (PTB_GEN_SRC, 0xFFFF)], s.fld p.1 = p.2) ∧
  (∀ b, b < 128 → s.fld (BLK_CORE_CTRL_REPLAY_LIMIT b) = 4 ∧ s.fld (BLK_ARR_CTRL_REPLAY_LIMIT b) = 4 ∧ s.fld (BLK_ARR_CTRL_SKIP_ALLOW b) = 1 ∧
    ∀ a, a < 21 → s.fld (BLK_ARB_CFG_QUOTA b a) = 16 ∧ s.fld (BLK_ARB_CFG_WGROUP b a) = 63) ∧
  (∀ a, a < 17 → s.fld (SCH_ARB_CFG_QUOTA a) = 16 ∧ s.fld (SCH_ARB_CFG_BURST_M1 a) = 15 ∧ s.fld (SCH_ARB_CFG_EMERG_SEL a) = 2) ∧
  (∀ k, k < 36 → s.fld (RIM_CTRL_REPLAY_LIMIT k) = 8 ∧ s.fld (RIM_CTRL_ERR_LIMIT k) = 1000 ∧ s.fld (RIM_STATUS_STATE k) = 0 ∧
    s.fld (RIM_TIMER_OPEN_MS k) = 500 ∧ s.fld (RIM_TIMER_HOLD_MS k) = 1000) ∧
  (∀ i, i < 9 → s.fld (SMB_VR_EN i) = 1 ∧ s.fld (SMB_VR_ADDR i) = 0x40 + i)

/-- The model's own invariant: HBM and the register file are kept in canonical form by every step, from every state that has it, so that equal
contents are equal data. -/
def Obligations.StepKeepsCanonicalForm : Prop :=
  ∀ (s t : State), s.hbmOk → s.regsOk → step s = .next t → t.hbmOk ∧ t.regsOk
end

