-- ==== Sys2Proof/Laws/SMap.lean ====
section
/-!
SUPPORT. The laws of the sparse table: reading after a write, and the canonical form that every operation keeps.
-/

namespace Sys2Proof.SMap

variable {α : Type}

@[simp] theorem get_nil (d : Nat → α) (k : Nat) : get d [] k = d k := rfl

/-- Erasing a key leaves every other key. -/
theorem get_erase_ne (d : Nat → α) (m : SMap α) {k j : Nat} (h : j ≠ k) : get d (erase m k) j = get d m j := by
  induction m with
  | nil => rfl
  | cons e m ih =>
    obtain ⟨k', v⟩ := e
    by_cases hk : k' = k
    · subst hk; simp [erase, get, ih, Ne.symm h]
    · simp [erase, hk, get, ih]

/-- An erased key reads as unlisted. -/
theorem get_erase_eq (d : Nat → α) (m : SMap α) (k : Nat) : get d (erase m k) k = d k := by
  induction m with
  | nil => rfl
  | cons e m ih =>
    obtain ⟨k', v⟩ := e
    by_cases hk : k' = k
    · subst hk; simp [erase, ih]
    · simp [erase, hk, get, ih]

/-- A table without key `k` reads `v` there after an insertion. -/
theorem get_insert_eq (d : Nat → α) (m : SMap α) (k : Nat) (v : α) (h : ∀ e ∈ m, e.1 ≠ k) : get d (insert m k v) k = v := by
  induction m with
  | nil => simp [insert, get]
  | cons e m ih =>
    obtain ⟨k', v'⟩ := e
    have hk : k' ≠ k := h (k', v') (by simp)
    have hm := ih fun e he => h e (by simp [he])
    by_cases hl : k < k' <;> simp [insert, hl, get, hk, hm]

/-- An insertion leaves every other key. -/
theorem get_insert_ne (d : Nat → α) (m : SMap α) {k j : Nat} (v : α) (h : j ≠ k) : get d (insert m k v) j = get d m j := by
  induction m with
  | nil => simp [insert, get, Ne.symm h]
  | cons e m ih =>
    obtain ⟨k', v'⟩ := e
    by_cases hl : k < k'
    · simp [insert, hl, get, Ne.symm h]
    · simp [insert, hl, get, ih]

theorem erase_ne (m : SMap α) (k : Nat) : ∀ e ∈ erase m k, e.1 ≠ k := by
  induction m with
  | nil => simp [erase]
  | cons e m ih =>
    obtain ⟨k', v⟩ := e
    by_cases hk : k' = k
    · simpa [erase, hk] using ih
    · intro e he
      simp only [erase, hk, if_false, List.mem_cons] at he
      rcases he with rfl | he
      · exact hk
      · exact ih e he

variable [DecidableEq α]

/-- A read after a write of the same key gives the value written. -/
@[simp] theorem get_set_eq (d : Nat → α) (m : SMap α) (k : Nat) (v : α) : get d (set d m k v) k = v := by
  unfold set
  split
  · rename_i h; rw [get_erase_eq, h]
  · exact get_insert_eq d _ k v (erase_ne m k)

/-- A write leaves every other key. -/
theorem get_set_ne (d : Nat → α) (m : SMap α) {k j : Nat} (v : α) (h : j ≠ k) : get d (set d m k v) j = get d m j := by
  unfold set
  split
  · exact get_erase_ne d m h
  · rw [get_insert_ne d _ v h, get_erase_ne d m h]

/-- A read after a write. -/
theorem get_set (d : Nat → α) (m : SMap α) (k j : Nat) (v : α) : get d (set d m k v) j = if j = k then v else get d m j := by
  by_cases h : j = k
  · subst h; simp
  · simp [h, get_set_ne d m v h]

@[simp] theorem get_modify_eq (d : Nat → α) (m : SMap α) (k : Nat) (g : α → α) : get d (modify d m k g) k = g (get d m k) := by
  simp [modify]

theorem get_modify_ne (d : Nat → α) (m : SMap α) {k j : Nat} (g : α → α) (h : j ≠ k) : get d (modify d m k g) j = get d m j := by
  simp [modify, get_set_ne d m _ h]

/-! ### Canonical form -/

/-- The lowest key of a canonical table bounds all its keys. -/
theorem wf_lt (d : Nat → α) {k : Nat} {v : α} {m : SMap α} (h : wf d ((k, v) :: m) = true) : ∀ e ∈ m, k < e.1 := by
  induction m generalizing k v with
  | nil => simp
  | cons e m ih =>
    obtain ⟨k', v'⟩ := e
    simp only [wf, Bool.and_eq_true, decide_eq_true_eq] at h
    intro e he
    simp only [List.mem_cons] at he
    rcases he with rfl | he
    · exact h.1.2
    · exact Nat.lt_trans h.1.2 (ih (v := v') (by simp [wf, h.2.1, h.2.2]) e he)

theorem wf_tail (d : Nat → α) {e : Nat × α} {m : SMap α} (h : wf d (e :: m) = true) : wf d m = true := by
  obtain ⟨k, v⟩ := e
  simp only [wf, Bool.and_eq_true] at h
  exact h.2

theorem wf_head (d : Nat → α) {k : Nat} {v : α} {m : SMap α} (h : wf d ((k, v) :: m) = true) : v ≠ d k := by
  simp only [wf, Bool.and_eq_true, decide_eq_true_eq] at h
  exact h.1.1

/-- A value that is not the default, before keys that are all larger, keeps the form. -/
theorem wf_cons (d : Nat → α) {k : Nat} {v : α} {m : SMap α} (hv : v ≠ d k) (hk : ∀ e ∈ m, k < e.1) (hm : wf d m = true) :
    wf d ((k, v) :: m) = true := by
  cases m with
  | nil => simp [wf, hv]
  | cons e m =>
    obtain ⟨k', v'⟩ := e
    have := hk (k', v') (by simp)
    simp only [wf, Bool.and_eq_true, decide_eq_true_eq] at hm ⊢
    exact ⟨⟨hv, this⟩, hm⟩

omit [DecidableEq α] in
theorem mem_erase (m : SMap α) (k : Nat) {e : Nat × α} (h : e ∈ erase m k) : e ∈ m := by
  induction m with
  | nil => simp [erase] at h
  | cons x m ih =>
    obtain ⟨k', v⟩ := x
    by_cases hk : k' = k
    · simp only [erase, hk, if_true] at h; simp [ih h]
    · simp only [erase, hk, if_false, List.mem_cons] at h
      rcases h with rfl | h
      · simp
      · simp [ih h]

theorem wf_erase (d : Nat → α) (m : SMap α) (k : Nat) (h : wf d m = true) : wf d (erase m k) = true := by
  induction m with
  | nil => rfl
  | cons x m ih =>
    obtain ⟨k', v⟩ := x
    have ht := ih (wf_tail d h)
    by_cases hk : k' = k
    · simpa [erase, hk] using ht
    · simp only [erase, hk, if_false]
      exact wf_cons d (wf_head d h) (fun e he => wf_lt d h e (mem_erase m k he)) ht

omit [DecidableEq α] in
theorem mem_insert (m : SMap α) (k : Nat) (v : α) {e : Nat × α} (h : e ∈ insert m k v) : e = (k, v) ∨ e ∈ m := by
  induction m with
  | nil => simpa [insert] using h
  | cons x m ih =>
    obtain ⟨k', v'⟩ := x
    by_cases hl : k < k'
    · simpa [insert, hl] using h
    · simp only [insert, hl, if_false, List.mem_cons] at h
      rcases h with rfl | h
      · simp
      · rcases ih h with h | h <;> simp [h]

theorem wf_insert (d : Nat → α) (m : SMap α) (k : Nat) (v : α) (hv : v ≠ d k) (hk : ∀ e ∈ m, e.1 ≠ k) (h : wf d m = true) :
    wf d (insert m k v) = true := by
  induction m with
  | nil => simp [insert, wf, hv]
  | cons x m ih =>
    obtain ⟨k', v'⟩ := x
    by_cases hl : k < k'
    · simp only [insert, hl, if_true]
      refine wf_cons d hv (fun e he => ?_) h
      simp only [List.mem_cons] at he
      rcases he with rfl | he
      · exact hl
      · exact Nat.lt_trans hl (wf_lt d h e he)
    · have hne : k' ≠ k := hk (k', v') (by simp)
      have hlt : k' < k := by omega
      simp only [insert, hl, if_false]
      refine wf_cons d (wf_head d h) (fun e he => ?_) (ih (fun e he => hk e (by simp [he])) (wf_tail d h))
      rcases mem_insert m k v he with rfl | he
      · exact hlt
      · exact wf_lt d h e he

/-- A write keeps the canonical form. -/
theorem wf_set (d : Nat → α) (m : SMap α) (k : Nat) (v : α) (h : wf d m = true) : wf d (set d m k v) = true := by
  unfold set
  split
  · exact wf_erase d m k h
  · rename_i hv; exact wf_insert d _ k v hv (erase_ne m k) (wf_erase d m k h)

theorem wf_modify (d : Nat → α) (m : SMap α) (k : Nat) (g : α → α) (h : wf d m = true) : wf d (modify d m k g) = true :=
  wf_set d m k _ h

/-- Dropping entries keeps the canonical form. -/
theorem wf_filter (d : Nat → α) (m : SMap α) (p : Nat × α → Bool) (h : wf d m = true) : wf d (m.filter p) = true := by
  induction m with
  | nil => rfl
  | cons x m ih =>
    obtain ⟨k, v⟩ := x
    have ht := ih (wf_tail d h)
    by_cases hp : p (k, v) = true
    · rw [List.filter_cons_of_pos hp]
      exact wf_cons d (wf_head d h) (fun e he => wf_lt d h e (List.mem_filter.1 he).1) ht
    · rw [List.filter_cons_of_neg (by simpa using hp)]; exact ht

/-- Two canonical tables that read the same are the same. -/
theorem ext (d : Nat → α) {m n : SMap α} (hm : wf d m = true) (hn : wf d n = true) (h : ∀ k, get d m k = get d n k) : m = n := by
  have out : ∀ (m : SMap α) (k : Nat), (∀ e ∈ m, k < e.1) → get d m k = d k := by
    intro m
    induction m with
    | nil => intro k _; rfl
    | cons e m ih =>
      obtain ⟨k', v⟩ := e
      intro k hk
      have h1 := hk (k', v) (by simp)
      have : k' ≠ k := by simp only at h1; omega
      simp [get, this, ih k fun e he => hk e (by simp [he])]
  induction m generalizing n with
  | nil =>
    cases n with
    | nil => rfl
    | cons e n => obtain ⟨k, v⟩ := e; exact absurd (by simpa [get] using (h k).symm) (wf_head d hn)
  | cons e m ih =>
    obtain ⟨k, v⟩ := e
    cases n with
    | nil => exact absurd (by simpa [get] using h k) (wf_head d hm)
    | cons e' n =>
      obtain ⟨k', v'⟩ := e'
      have hk : k = k' := by
        rcases Nat.lt_trichotomy k k' with hl | he | hl
        · have h1 := h k
          rw [out ((k', v') :: n) k (by
            intro e he
            simp only [List.mem_cons] at he
            rcases he with rfl | he
            · exact hl
            · exact Nat.lt_trans hl (wf_lt d hn e he))] at h1
          exact absurd (by simpa [get] using h1) (wf_head d hm)
        · exact he
        · have h1 := h k'
          rw [out ((k, v) :: m) k' (by
            intro e he
            simp only [List.mem_cons] at he
            rcases he with rfl | he
            · exact hl
            · exact Nat.lt_trans hl (wf_lt d hm e he))] at h1
          exact absurd (by simpa [get] using h1.symm) (wf_head d hn)
      subst hk
      have hv : v = v' := by simpa [get] using h k
      subst hv
      rw [ih (wf_tail d hm) (wf_tail d hn)]
      intro j
      by_cases hj : k = j
      · subst hj; rw [out m k (wf_lt d hm), out n k (wf_lt d hn)]
      · simpa [get, hj] using h j

end Sys2Proof.SMap
end

