-- ==== Sys2Proof/Laws/State.lean ====
section
/-!
SUPPORT. What each update of the state leaves and what it writes, field by field: true by rfl, so that no proof unfolds a record update.
-/

namespace Sys2Proof.Machine

variable (s : State)

/-- `setReg` changes regs alone. -/
@[simp] theorem State.setReg_frame (o : Nat) (v : Word) :
  (s.setReg o v).pending = s.pending ∧ (s.setReg o v).clk = s.clk ∧ (s.setReg o v).hbm = s.hbm ∧
    (s.setReg o v).hbmPoison = s.hbmPoison ∧ (s.setReg o v).heldWrites = s.heldWrites ∧
    (s.setReg o v).ringWaits = s.ringWaits ∧ (s.setReg o v).saveAreas = s.saveAreas ∧ (s.setReg o v).saveDraws = s.saveDraws ∧
    (s.setReg o v).badChannels = s.badChannels ∧ (s.setReg o v).remap = s.remap ∧ (s.setReg o v).frameTests = s.frameTests ∧
    (s.setReg o v).scrubs = s.scrubs ∧ (s.setReg o v).scrubLog = s.scrubLog ∧ (s.setReg o v).tlb = s.tlb ∧
    (s.setReg o v).moves = s.moves ∧ (s.setReg o v).moveId = s.moveId ∧ (s.setReg o v).blks = s.blks ∧
    (s.setReg o v).parts = s.parts ∧ (s.setReg o v).ctxs = s.ctxs ∧ (s.setReg o v).queues = s.queues ∧
    (s.setReg o v).links = s.links ∧ (s.setReg o v).ports = s.ports ∧ (s.setReg o v).routes = s.routes ∧
    (s.setReg o v).plait = s.plait ∧ (s.setReg o v).early = s.early ∧ (s.setReg o v).carries = s.carries ∧
    (s.setReg o v).holds = s.holds ∧ (s.setReg o v).fences = s.fences ∧ (s.setReg o v).plaitDone = s.plaitDone ∧
    (s.setReg o v).coils = s.coils ∧ (s.setReg o v).recorder = s.recorder ∧ (s.setReg o v).rplFull = s.rplFull ∧
    (s.setReg o v).replay = s.replay ∧ (s.setReg o v).fence = s.fence ∧ (s.setReg o v).wds = s.wds ∧
    (s.setReg o v).expiries = s.expiries ∧ (s.setReg o v).overruns = s.overruns ∧ (s.setReg o v).heartbeats = s.heartbeats ∧
    (s.setReg o v).josil = s.josil ∧ (s.setReg o v).lid = s.lid ∧ (s.setReg o v).power = s.power ∧
    (s.setReg o v).servo = s.servo ∧ (s.setReg o v).sources = s.sources ∧ (s.setReg o v).arbs = s.arbs ∧
    (s.setReg o v).arbReqs = s.arbReqs ∧ (s.setReg o v).delayed = s.delayed ∧ (s.setReg o v).credits = s.credits ∧
    (s.setReg o v).ptbOld = s.ptbOld ∧ (s.setReg o v).stallDraws = s.stallDraws ∧ (s.setReg o v).delayDraws = s.delayDraws ∧
    (s.setReg o v).upsets = s.upsets ∧ (s.setReg o v).fuses = s.fuses ∧ (s.setReg o v).resets = s.resets :=
  ⟨rfl, rfl, rfl, rfl, rfl, rfl, rfl, rfl, rfl, rfl, rfl, rfl, rfl, rfl, rfl, rfl, rfl, rfl, rfl, rfl, rfl, rfl, rfl, rfl, rfl, rfl, rfl, rfl, rfl, rfl, rfl, rfl, rfl, rfl, rfl, rfl, rfl, rfl, rfl, rfl, rfl, rfl, rfl, rfl, rfl, rfl, rfl, rfl, rfl, rfl, rfl, rfl, rfl⟩
@[simp] theorem State.setReg_regs (o : Nat) (v : Word) : (s.setReg o v).regs = SMap.set regReset s.regs o v := rfl

/-- `setBlk` changes blks alone. -/
@[simp] theorem State.setBlk_frame (b : Nat) (x : Blk) :
  (s.setBlk b x).pending = s.pending ∧ (s.setBlk b x).clk = s.clk ∧ (s.setBlk b x).regs = s.regs ∧ (s.setBlk b x).hbm = s.hbm ∧
    (s.setBlk b x).hbmPoison = s.hbmPoison ∧ (s.setBlk b x).heldWrites = s.heldWrites ∧
    (s.setBlk b x).ringWaits = s.ringWaits ∧ (s.setBlk b x).saveAreas = s.saveAreas ∧ (s.setBlk b x).saveDraws = s.saveDraws ∧
    (s.setBlk b x).badChannels = s.badChannels ∧ (s.setBlk b x).remap = s.remap ∧ (s.setBlk b x).frameTests = s.frameTests ∧
    (s.setBlk b x).scrubs = s.scrubs ∧ (s.setBlk b x).scrubLog = s.scrubLog ∧ (s.setBlk b x).tlb = s.tlb ∧
    (s.setBlk b x).moves = s.moves ∧ (s.setBlk b x).moveId = s.moveId ∧ (s.setBlk b x).parts = s.parts ∧
    (s.setBlk b x).ctxs = s.ctxs ∧ (s.setBlk b x).queues = s.queues ∧ (s.setBlk b x).links = s.links ∧
    (s.setBlk b x).ports = s.ports ∧ (s.setBlk b x).routes = s.routes ∧ (s.setBlk b x).plait = s.plait ∧
    (s.setBlk b x).early = s.early ∧ (s.setBlk b x).carries = s.carries ∧ (s.setBlk b x).holds = s.holds ∧
    (s.setBlk b x).fences = s.fences ∧ (s.setBlk b x).plaitDone = s.plaitDone ∧ (s.setBlk b x).coils = s.coils ∧
    (s.setBlk b x).recorder = s.recorder ∧ (s.setBlk b x).rplFull = s.rplFull ∧ (s.setBlk b x).replay = s.replay ∧
    (s.setBlk b x).fence = s.fence ∧ (s.setBlk b x).wds = s.wds ∧ (s.setBlk b x).expiries = s.expiries ∧
    (s.setBlk b x).overruns = s.overruns ∧ (s.setBlk b x).heartbeats = s.heartbeats ∧ (s.setBlk b x).josil = s.josil ∧
    (s.setBlk b x).lid = s.lid ∧ (s.setBlk b x).power = s.power ∧ (s.setBlk b x).servo = s.servo ∧
    (s.setBlk b x).sources = s.sources ∧ (s.setBlk b x).arbs = s.arbs ∧ (s.setBlk b x).arbReqs = s.arbReqs ∧
    (s.setBlk b x).delayed = s.delayed ∧ (s.setBlk b x).credits = s.credits ∧ (s.setBlk b x).ptbOld = s.ptbOld ∧
    (s.setBlk b x).stallDraws = s.stallDraws ∧ (s.setBlk b x).delayDraws = s.delayDraws ∧ (s.setBlk b x).upsets = s.upsets ∧
    (s.setBlk b x).fuses = s.fuses ∧ (s.setBlk b x).resets = s.resets :=
  ⟨rfl, rfl, rfl, rfl, rfl, rfl, rfl, rfl, rfl, rfl, rfl, rfl, rfl, rfl, rfl, rfl, rfl, rfl, rfl, rfl, rfl, rfl, rfl, rfl, rfl, rfl, rfl, rfl, rfl, rfl, rfl, rfl, rfl, rfl, rfl, rfl, rfl, rfl, rfl, rfl, rfl, rfl, rfl, rfl, rfl, rfl, rfl, rfl, rfl, rfl, rfl, rfl, rfl⟩
@[simp] theorem State.setBlk_blks (b : Nat) (x : Blk) : (s.setBlk b x).blks = SMap.set (fun _ => Blk.reset) s.blks b x := rfl

/-- `modBlk` changes blks alone. -/
@[simp] theorem State.modBlk_frame (b : Nat) (g : Blk → Blk) :
  (s.modBlk b g).pending = s.pending ∧ (s.modBlk b g).clk = s.clk ∧ (s.modBlk b g).regs = s.regs ∧ (s.modBlk b g).hbm = s.hbm ∧
    (s.modBlk b g).hbmPoison = s.hbmPoison ∧ (s.modBlk b g).heldWrites = s.heldWrites ∧
    (s.modBlk b g).ringWaits = s.ringWaits ∧ (s.modBlk b g).saveAreas = s.saveAreas ∧ (s.modBlk b g).saveDraws = s.saveDraws ∧
    (s.modBlk b g).badChannels = s.badChannels ∧ (s.modBlk b g).remap = s.remap ∧ (s.modBlk b g).frameTests = s.frameTests ∧
    (s.modBlk b g).scrubs = s.scrubs ∧ (s.modBlk b g).scrubLog = s.scrubLog ∧ (s.modBlk b g).tlb = s.tlb ∧
    (s.modBlk b g).moves = s.moves ∧ (s.modBlk b g).moveId = s.moveId ∧ (s.modBlk b g).parts = s.parts ∧
    (s.modBlk b g).ctxs = s.ctxs ∧ (s.modBlk b g).queues = s.queues ∧ (s.modBlk b g).links = s.links ∧
    (s.modBlk b g).ports = s.ports ∧ (s.modBlk b g).routes = s.routes ∧ (s.modBlk b g).plait = s.plait ∧
    (s.modBlk b g).early = s.early ∧ (s.modBlk b g).carries = s.carries ∧ (s.modBlk b g).holds = s.holds ∧
    (s.modBlk b g).fences = s.fences ∧ (s.modBlk b g).plaitDone = s.plaitDone ∧ (s.modBlk b g).coils = s.coils ∧
    (s.modBlk b g).recorder = s.recorder ∧ (s.modBlk b g).rplFull = s.rplFull ∧ (s.modBlk b g).replay = s.replay ∧
    (s.modBlk b g).fence = s.fence ∧ (s.modBlk b g).wds = s.wds ∧ (s.modBlk b g).expiries = s.expiries ∧
    (s.modBlk b g).overruns = s.overruns ∧ (s.modBlk b g).heartbeats = s.heartbeats ∧ (s.modBlk b g).josil = s.josil ∧
    (s.modBlk b g).lid = s.lid ∧ (s.modBlk b g).power = s.power ∧ (s.modBlk b g).servo = s.servo ∧
    (s.modBlk b g).sources = s.sources ∧ (s.modBlk b g).arbs = s.arbs ∧ (s.modBlk b g).arbReqs = s.arbReqs ∧
    (s.modBlk b g).delayed = s.delayed ∧ (s.modBlk b g).credits = s.credits ∧ (s.modBlk b g).ptbOld = s.ptbOld ∧
    (s.modBlk b g).stallDraws = s.stallDraws ∧ (s.modBlk b g).delayDraws = s.delayDraws ∧ (s.modBlk b g).upsets = s.upsets ∧
    (s.modBlk b g).fuses = s.fuses ∧ (s.modBlk b g).resets = s.resets :=
  ⟨rfl, rfl, rfl, rfl, rfl, rfl, rfl, rfl, rfl, rfl, rfl, rfl, rfl, rfl, rfl, rfl, rfl, rfl, rfl, rfl, rfl, rfl, rfl, rfl, rfl, rfl, rfl, rfl, rfl, rfl, rfl, rfl, rfl, rfl, rfl, rfl, rfl, rfl, rfl, rfl, rfl, rfl, rfl, rfl, rfl, rfl, rfl, rfl, rfl, rfl, rfl, rfl, rfl⟩

/-- `modBst` changes blks alone. -/
@[simp] theorem State.modBst_frame (b : Nat) (g : BlkState → BlkState) :
  (s.modBst b g).pending = s.pending ∧ (s.modBst b g).clk = s.clk ∧ (s.modBst b g).regs = s.regs ∧ (s.modBst b g).hbm = s.hbm ∧
    (s.modBst b g).hbmPoison = s.hbmPoison ∧ (s.modBst b g).heldWrites = s.heldWrites ∧
    (s.modBst b g).ringWaits = s.ringWaits ∧ (s.modBst b g).saveAreas = s.saveAreas ∧ (s.modBst b g).saveDraws = s.saveDraws ∧
    (s.modBst b g).badChannels = s.badChannels ∧ (s.modBst b g).remap = s.remap ∧ (s.modBst b g).frameTests = s.frameTests ∧
    (s.modBst b g).scrubs = s.scrubs ∧ (s.modBst b g).scrubLog = s.scrubLog ∧ (s.modBst b g).tlb = s.tlb ∧
    (s.modBst b g).moves = s.moves ∧ (s.modBst b g).moveId = s.moveId ∧ (s.modBst b g).parts = s.parts ∧
    (s.modBst b g).ctxs = s.ctxs ∧ (s.modBst b g).queues = s.queues ∧ (s.modBst b g).links = s.links ∧
    (s.modBst b g).ports = s.ports ∧ (s.modBst b g).routes = s.routes ∧ (s.modBst b g).plait = s.plait ∧
    (s.modBst b g).early = s.early ∧ (s.modBst b g).carries = s.carries ∧ (s.modBst b g).holds = s.holds ∧
    (s.modBst b g).fences = s.fences ∧ (s.modBst b g).plaitDone = s.plaitDone ∧ (s.modBst b g).coils = s.coils ∧
    (s.modBst b g).recorder = s.recorder ∧ (s.modBst b g).rplFull = s.rplFull ∧ (s.modBst b g).replay = s.replay ∧
    (s.modBst b g).fence = s.fence ∧ (s.modBst b g).wds = s.wds ∧ (s.modBst b g).expiries = s.expiries ∧
    (s.modBst b g).overruns = s.overruns ∧ (s.modBst b g).heartbeats = s.heartbeats ∧ (s.modBst b g).josil = s.josil ∧
    (s.modBst b g).lid = s.lid ∧ (s.modBst b g).power = s.power ∧ (s.modBst b g).servo = s.servo ∧
    (s.modBst b g).sources = s.sources ∧ (s.modBst b g).arbs = s.arbs ∧ (s.modBst b g).arbReqs = s.arbReqs ∧
    (s.modBst b g).delayed = s.delayed ∧ (s.modBst b g).credits = s.credits ∧ (s.modBst b g).ptbOld = s.ptbOld ∧
    (s.modBst b g).stallDraws = s.stallDraws ∧ (s.modBst b g).delayDraws = s.delayDraws ∧ (s.modBst b g).upsets = s.upsets ∧
    (s.modBst b g).fuses = s.fuses ∧ (s.modBst b g).resets = s.resets :=
  ⟨rfl, rfl, rfl, rfl, rfl, rfl, rfl, rfl, rfl, rfl, rfl, rfl, rfl, rfl, rfl, rfl, rfl, rfl, rfl, rfl, rfl, rfl, rfl, rfl, rfl, rfl, rfl, rfl, rfl, rfl, rfl, rfl, rfl, rfl, rfl, rfl, rfl, rfl, rfl, rfl, rfl, rfl, rfl, rfl, rfl, rfl, rfl, rfl, rfl, rfl, rfl, rfl, rfl⟩

/-- `modSet` changes blks alone. -/
@[simp] theorem State.modSet_frame (b : Nat) (f : Bool) (g : CoreSet → CoreSet) :
  (s.modSet b f g).pending = s.pending ∧ (s.modSet b f g).clk = s.clk ∧ (s.modSet b f g).regs = s.regs ∧
    (s.modSet b f g).hbm = s.hbm ∧ (s.modSet b f g).hbmPoison = s.hbmPoison ∧ (s.modSet b f g).heldWrites = s.heldWrites ∧
    (s.modSet b f g).ringWaits = s.ringWaits ∧ (s.modSet b f g).saveAreas = s.saveAreas ∧
    (s.modSet b f g).saveDraws = s.saveDraws ∧ (s.modSet b f g).badChannels = s.badChannels ∧
    (s.modSet b f g).remap = s.remap ∧ (s.modSet b f g).frameTests = s.frameTests ∧ (s.modSet b f g).scrubs = s.scrubs ∧
    (s.modSet b f g).scrubLog = s.scrubLog ∧ (s.modSet b f g).tlb = s.tlb ∧ (s.modSet b f g).moves = s.moves ∧
    (s.modSet b f g).moveId = s.moveId ∧ (s.modSet b f g).parts = s.parts ∧ (s.modSet b f g).ctxs = s.ctxs ∧
    (s.modSet b f g).queues = s.queues ∧ (s.modSet b f g).links = s.links ∧ (s.modSet b f g).ports = s.ports ∧
    (s.modSet b f g).routes = s.routes ∧ (s.modSet b f g).plait = s.plait ∧ (s.modSet b f g).early = s.early ∧
    (s.modSet b f g).carries = s.carries ∧ (s.modSet b f g).holds = s.holds ∧ (s.modSet b f g).fences = s.fences ∧
    (s.modSet b f g).plaitDone = s.plaitDone ∧ (s.modSet b f g).coils = s.coils ∧ (s.modSet b f g).recorder = s.recorder ∧
    (s.modSet b f g).rplFull = s.rplFull ∧ (s.modSet b f g).replay = s.replay ∧ (s.modSet b f g).fence = s.fence ∧
    (s.modSet b f g).wds = s.wds ∧ (s.modSet b f g).expiries = s.expiries ∧ (s.modSet b f g).overruns = s.overruns ∧
    (s.modSet b f g).heartbeats = s.heartbeats ∧ (s.modSet b f g).josil = s.josil ∧ (s.modSet b f g).lid = s.lid ∧
    (s.modSet b f g).power = s.power ∧ (s.modSet b f g).servo = s.servo ∧ (s.modSet b f g).sources = s.sources ∧
    (s.modSet b f g).arbs = s.arbs ∧ (s.modSet b f g).arbReqs = s.arbReqs ∧ (s.modSet b f g).delayed = s.delayed ∧
    (s.modSet b f g).credits = s.credits ∧ (s.modSet b f g).ptbOld = s.ptbOld ∧ (s.modSet b f g).stallDraws = s.stallDraws ∧
    (s.modSet b f g).delayDraws = s.delayDraws ∧ (s.modSet b f g).upsets = s.upsets ∧ (s.modSet b f g).fuses = s.fuses ∧
    (s.modSet b f g).resets = s.resets :=
  ⟨rfl, rfl, rfl, rfl, rfl, rfl, rfl, rfl, rfl, rfl, rfl, rfl, rfl, rfl, rfl, rfl, rfl, rfl, rfl, rfl, rfl, rfl, rfl, rfl, rfl, rfl, rfl, rfl, rfl, rfl, rfl, rfl, rfl, rfl, rfl, rfl, rfl, rfl, rfl, rfl, rfl, rfl, rfl, rfl, rfl, rfl, rfl, rfl, rfl, rfl, rfl, rfl, rfl⟩

/-- `setCtx` changes ctxs alone. -/
@[simp] theorem State.setCtx_frame (c : Nat) (x : Ctx) :
  (s.setCtx c x).pending = s.pending ∧ (s.setCtx c x).clk = s.clk ∧ (s.setCtx c x).regs = s.regs ∧ (s.setCtx c x).hbm = s.hbm ∧
    (s.setCtx c x).hbmPoison = s.hbmPoison ∧ (s.setCtx c x).heldWrites = s.heldWrites ∧
    (s.setCtx c x).ringWaits = s.ringWaits ∧ (s.setCtx c x).saveAreas = s.saveAreas ∧ (s.setCtx c x).saveDraws = s.saveDraws ∧
    (s.setCtx c x).badChannels = s.badChannels ∧ (s.setCtx c x).remap = s.remap ∧ (s.setCtx c x).frameTests = s.frameTests ∧
    (s.setCtx c x).scrubs = s.scrubs ∧ (s.setCtx c x).scrubLog = s.scrubLog ∧ (s.setCtx c x).tlb = s.tlb ∧
    (s.setCtx c x).moves = s.moves ∧ (s.setCtx c x).moveId = s.moveId ∧ (s.setCtx c x).blks = s.blks ∧
    (s.setCtx c x).parts = s.parts ∧ (s.setCtx c x).queues = s.queues ∧ (s.setCtx c x).links = s.links ∧
    (s.setCtx c x).ports = s.ports ∧ (s.setCtx c x).routes = s.routes ∧ (s.setCtx c x).plait = s.plait ∧
    (s.setCtx c x).early = s.early ∧ (s.setCtx c x).carries = s.carries ∧ (s.setCtx c x).holds = s.holds ∧
    (s.setCtx c x).fences = s.fences ∧ (s.setCtx c x).plaitDone = s.plaitDone ∧ (s.setCtx c x).coils = s.coils ∧
    (s.setCtx c x).recorder = s.recorder ∧ (s.setCtx c x).rplFull = s.rplFull ∧ (s.setCtx c x).replay = s.replay ∧
    (s.setCtx c x).fence = s.fence ∧ (s.setCtx c x).wds = s.wds ∧ (s.setCtx c x).expiries = s.expiries ∧
    (s.setCtx c x).overruns = s.overruns ∧ (s.setCtx c x).heartbeats = s.heartbeats ∧ (s.setCtx c x).josil = s.josil ∧
    (s.setCtx c x).lid = s.lid ∧ (s.setCtx c x).power = s.power ∧ (s.setCtx c x).servo = s.servo ∧
    (s.setCtx c x).sources = s.sources ∧ (s.setCtx c x).arbs = s.arbs ∧ (s.setCtx c x).arbReqs = s.arbReqs ∧
    (s.setCtx c x).delayed = s.delayed ∧ (s.setCtx c x).credits = s.credits ∧ (s.setCtx c x).ptbOld = s.ptbOld ∧
    (s.setCtx c x).stallDraws = s.stallDraws ∧ (s.setCtx c x).delayDraws = s.delayDraws ∧ (s.setCtx c x).upsets = s.upsets ∧
    (s.setCtx c x).fuses = s.fuses ∧ (s.setCtx c x).resets = s.resets :=
  ⟨rfl, rfl, rfl, rfl, rfl, rfl, rfl, rfl, rfl, rfl, rfl, rfl, rfl, rfl, rfl, rfl, rfl, rfl, rfl, rfl, rfl, rfl, rfl, rfl, rfl, rfl, rfl, rfl, rfl, rfl, rfl, rfl, rfl, rfl, rfl, rfl, rfl, rfl, rfl, rfl, rfl, rfl, rfl, rfl, rfl, rfl, rfl, rfl, rfl, rfl, rfl, rfl, rfl⟩
@[simp] theorem State.setCtx_ctxs (c : Nat) (x : Ctx) : (s.setCtx c x).ctxs = SMap.set (fun _ => Ctx.reset) s.ctxs c x := rfl

/-- `modCtx` changes ctxs alone. -/
@[simp] theorem State.modCtx_frame (c : Nat) (g : Ctx → Ctx) :
  (s.modCtx c g).pending = s.pending ∧ (s.modCtx c g).clk = s.clk ∧ (s.modCtx c g).regs = s.regs ∧ (s.modCtx c g).hbm = s.hbm ∧
    (s.modCtx c g).hbmPoison = s.hbmPoison ∧ (s.modCtx c g).heldWrites = s.heldWrites ∧
    (s.modCtx c g).ringWaits = s.ringWaits ∧ (s.modCtx c g).saveAreas = s.saveAreas ∧ (s.modCtx c g).saveDraws = s.saveDraws ∧
    (s.modCtx c g).badChannels = s.badChannels ∧ (s.modCtx c g).remap = s.remap ∧ (s.modCtx c g).frameTests = s.frameTests ∧
    (s.modCtx c g).scrubs = s.scrubs ∧ (s.modCtx c g).scrubLog = s.scrubLog ∧ (s.modCtx c g).tlb = s.tlb ∧
    (s.modCtx c g).moves = s.moves ∧ (s.modCtx c g).moveId = s.moveId ∧ (s.modCtx c g).blks = s.blks ∧
    (s.modCtx c g).parts = s.parts ∧ (s.modCtx c g).queues = s.queues ∧ (s.modCtx c g).links = s.links ∧
    (s.modCtx c g).ports = s.ports ∧ (s.modCtx c g).routes = s.routes ∧ (s.modCtx c g).plait = s.plait ∧
    (s.modCtx c g).early = s.early ∧ (s.modCtx c g).carries = s.carries ∧ (s.modCtx c g).holds = s.holds ∧
    (s.modCtx c g).fences = s.fences ∧ (s.modCtx c g).plaitDone = s.plaitDone ∧ (s.modCtx c g).coils = s.coils ∧
    (s.modCtx c g).recorder = s.recorder ∧ (s.modCtx c g).rplFull = s.rplFull ∧ (s.modCtx c g).replay = s.replay ∧
    (s.modCtx c g).fence = s.fence ∧ (s.modCtx c g).wds = s.wds ∧ (s.modCtx c g).expiries = s.expiries ∧
    (s.modCtx c g).overruns = s.overruns ∧ (s.modCtx c g).heartbeats = s.heartbeats ∧ (s.modCtx c g).josil = s.josil ∧
    (s.modCtx c g).lid = s.lid ∧ (s.modCtx c g).power = s.power ∧ (s.modCtx c g).servo = s.servo ∧
    (s.modCtx c g).sources = s.sources ∧ (s.modCtx c g).arbs = s.arbs ∧ (s.modCtx c g).arbReqs = s.arbReqs ∧
    (s.modCtx c g).delayed = s.delayed ∧ (s.modCtx c g).credits = s.credits ∧ (s.modCtx c g).ptbOld = s.ptbOld ∧
    (s.modCtx c g).stallDraws = s.stallDraws ∧ (s.modCtx c g).delayDraws = s.delayDraws ∧ (s.modCtx c g).upsets = s.upsets ∧
    (s.modCtx c g).fuses = s.fuses ∧ (s.modCtx c g).resets = s.resets :=
  ⟨rfl, rfl, rfl, rfl, rfl, rfl, rfl, rfl, rfl, rfl, rfl, rfl, rfl, rfl, rfl, rfl, rfl, rfl, rfl, rfl, rfl, rfl, rfl, rfl, rfl, rfl, rfl, rfl, rfl, rfl, rfl, rfl, rfl, rfl, rfl, rfl, rfl, rfl, rfl, rfl, rfl, rfl, rfl, rfl, rfl, rfl, rfl, rfl, rfl, rfl, rfl, rfl, rfl⟩

/-- `setQueue` changes queues alone. -/
@[simp] theorem State.setQueue_frame (q : Nat) (x : Queue) :
  (s.setQueue q x).pending = s.pending ∧ (s.setQueue q x).clk = s.clk ∧ (s.setQueue q x).regs = s.regs ∧
    (s.setQueue q x).hbm = s.hbm ∧ (s.setQueue q x).hbmPoison = s.hbmPoison ∧ (s.setQueue q x).heldWrites = s.heldWrites ∧
    (s.setQueue q x).ringWaits = s.ringWaits ∧ (s.setQueue q x).saveAreas = s.saveAreas ∧
    (s.setQueue q x).saveDraws = s.saveDraws ∧ (s.setQueue q x).badChannels = s.badChannels ∧
    (s.setQueue q x).remap = s.remap ∧ (s.setQueue q x).frameTests = s.frameTests ∧ (s.setQueue q x).scrubs = s.scrubs ∧
    (s.setQueue q x).scrubLog = s.scrubLog ∧ (s.setQueue q x).tlb = s.tlb ∧ (s.setQueue q x).moves = s.moves ∧
    (s.setQueue q x).moveId = s.moveId ∧ (s.setQueue q x).blks = s.blks ∧ (s.setQueue q x).parts = s.parts ∧
    (s.setQueue q x).ctxs = s.ctxs ∧ (s.setQueue q x).links = s.links ∧ (s.setQueue q x).ports = s.ports ∧
    (s.setQueue q x).routes = s.routes ∧ (s.setQueue q x).plait = s.plait ∧ (s.setQueue q x).early = s.early ∧
    (s.setQueue q x).carries = s.carries ∧ (s.setQueue q x).holds = s.holds ∧ (s.setQueue q x).fences = s.fences ∧
    (s.setQueue q x).plaitDone = s.plaitDone ∧ (s.setQueue q x).coils = s.coils ∧ (s.setQueue q x).recorder = s.recorder ∧
    (s.setQueue q x).rplFull = s.rplFull ∧ (s.setQueue q x).replay = s.replay ∧ (s.setQueue q x).fence = s.fence ∧
    (s.setQueue q x).wds = s.wds ∧ (s.setQueue q x).expiries = s.expiries ∧ (s.setQueue q x).overruns = s.overruns ∧
    (s.setQueue q x).heartbeats = s.heartbeats ∧ (s.setQueue q x).josil = s.josil ∧ (s.setQueue q x).lid = s.lid ∧
    (s.setQueue q x).power = s.power ∧ (s.setQueue q x).servo = s.servo ∧ (s.setQueue q x).sources = s.sources ∧
    (s.setQueue q x).arbs = s.arbs ∧ (s.setQueue q x).arbReqs = s.arbReqs ∧ (s.setQueue q x).delayed = s.delayed ∧
    (s.setQueue q x).credits = s.credits ∧ (s.setQueue q x).ptbOld = s.ptbOld ∧ (s.setQueue q x).stallDraws = s.stallDraws ∧
    (s.setQueue q x).delayDraws = s.delayDraws ∧ (s.setQueue q x).upsets = s.upsets ∧ (s.setQueue q x).fuses = s.fuses ∧
    (s.setQueue q x).resets = s.resets :=
  ⟨rfl, rfl, rfl, rfl, rfl, rfl, rfl, rfl, rfl, rfl, rfl, rfl, rfl, rfl, rfl, rfl, rfl, rfl, rfl, rfl, rfl, rfl, rfl, rfl, rfl, rfl, rfl, rfl, rfl, rfl, rfl, rfl, rfl, rfl, rfl, rfl, rfl, rfl, rfl, rfl, rfl, rfl, rfl, rfl, rfl, rfl, rfl, rfl, rfl, rfl, rfl, rfl, rfl⟩
@[simp] theorem State.setQueue_queues (q : Nat) (x : Queue) : (s.setQueue q x).queues = SMap.set (fun _ => Queue.reset) s.queues q x := rfl

/-- `modQueue` changes queues alone. -/
@[simp] theorem State.modQueue_frame (q : Nat) (g : Queue → Queue) :
  (s.modQueue q g).pending = s.pending ∧ (s.modQueue q g).clk = s.clk ∧ (s.modQueue q g).regs = s.regs ∧
    (s.modQueue q g).hbm = s.hbm ∧ (s.modQueue q g).hbmPoison = s.hbmPoison ∧ (s.modQueue q g).heldWrites = s.heldWrites ∧
    (s.modQueue q g).ringWaits = s.ringWaits ∧ (s.modQueue q g).saveAreas = s.saveAreas ∧
    (s.modQueue q g).saveDraws = s.saveDraws ∧ (s.modQueue q g).badChannels = s.badChannels ∧
    (s.modQueue q g).remap = s.remap ∧ (s.modQueue q g).frameTests = s.frameTests ∧ (s.modQueue q g).scrubs = s.scrubs ∧
    (s.modQueue q g).scrubLog = s.scrubLog ∧ (s.modQueue q g).tlb = s.tlb ∧ (s.modQueue q g).moves = s.moves ∧
    (s.modQueue q g).moveId = s.moveId ∧ (s.modQueue q g).blks = s.blks ∧ (s.modQueue q g).parts = s.parts ∧
    (s.modQueue q g).ctxs = s.ctxs ∧ (s.modQueue q g).links = s.links ∧ (s.modQueue q g).ports = s.ports ∧
    (s.modQueue q g).routes = s.routes ∧ (s.modQueue q g).plait = s.plait ∧ (s.modQueue q g).early = s.early ∧
    (s.modQueue q g).carries = s.carries ∧ (s.modQueue q g).holds = s.holds ∧ (s.modQueue q g).fences = s.fences ∧
    (s.modQueue q g).plaitDone = s.plaitDone ∧ (s.modQueue q g).coils = s.coils ∧ (s.modQueue q g).recorder = s.recorder ∧
    (s.modQueue q g).rplFull = s.rplFull ∧ (s.modQueue q g).replay = s.replay ∧ (s.modQueue q g).fence = s.fence ∧
    (s.modQueue q g).wds = s.wds ∧ (s.modQueue q g).expiries = s.expiries ∧ (s.modQueue q g).overruns = s.overruns ∧
    (s.modQueue q g).heartbeats = s.heartbeats ∧ (s.modQueue q g).josil = s.josil ∧ (s.modQueue q g).lid = s.lid ∧
    (s.modQueue q g).power = s.power ∧ (s.modQueue q g).servo = s.servo ∧ (s.modQueue q g).sources = s.sources ∧
    (s.modQueue q g).arbs = s.arbs ∧ (s.modQueue q g).arbReqs = s.arbReqs ∧ (s.modQueue q g).delayed = s.delayed ∧
    (s.modQueue q g).credits = s.credits ∧ (s.modQueue q g).ptbOld = s.ptbOld ∧ (s.modQueue q g).stallDraws = s.stallDraws ∧
    (s.modQueue q g).delayDraws = s.delayDraws ∧ (s.modQueue q g).upsets = s.upsets ∧ (s.modQueue q g).fuses = s.fuses ∧
    (s.modQueue q g).resets = s.resets :=
  ⟨rfl, rfl, rfl, rfl, rfl, rfl, rfl, rfl, rfl, rfl, rfl, rfl, rfl, rfl, rfl, rfl, rfl, rfl, rfl, rfl, rfl, rfl, rfl, rfl, rfl, rfl, rfl, rfl, rfl, rfl, rfl, rfl, rfl, rfl, rfl, rfl, rfl, rfl, rfl, rfl, rfl, rfl, rfl, rfl, rfl, rfl, rfl, rfl, rfl, rfl, rfl, rfl, rfl⟩

/-- `modPart` changes parts alone. -/
@[simp] theorem State.modPart_frame (p : Nat) (g : Part → Part) :
  (s.modPart p g).pending = s.pending ∧ (s.modPart p g).clk = s.clk ∧ (s.modPart p g).regs = s.regs ∧
    (s.modPart p g).hbm = s.hbm ∧ (s.modPart p g).hbmPoison = s.hbmPoison ∧ (s.modPart p g).heldWrites = s.heldWrites ∧
    (s.modPart p g).ringWaits = s.ringWaits ∧ (s.modPart p g).saveAreas = s.saveAreas ∧
    (s.modPart p g).saveDraws = s.saveDraws ∧ (s.modPart p g).badChannels = s.badChannels ∧ (s.modPart p g).remap = s.remap ∧
    (s.modPart p g).frameTests = s.frameTests ∧ (s.modPart p g).scrubs = s.scrubs ∧ (s.modPart p g).scrubLog = s.scrubLog ∧
    (s.modPart p g).tlb = s.tlb ∧ (s.modPart p g).moves = s.moves ∧ (s.modPart p g).moveId = s.moveId ∧
    (s.modPart p g).blks = s.blks ∧ (s.modPart p g).ctxs = s.ctxs ∧ (s.modPart p g).queues = s.queues ∧
    (s.modPart p g).links = s.links ∧ (s.modPart p g).ports = s.ports ∧ (s.modPart p g).routes = s.routes ∧
    (s.modPart p g).plait = s.plait ∧ (s.modPart p g).early = s.early ∧ (s.modPart p g).carries = s.carries ∧
    (s.modPart p g).holds = s.holds ∧ (s.modPart p g).fences = s.fences ∧ (s.modPart p g).plaitDone = s.plaitDone ∧
    (s.modPart p g).coils = s.coils ∧ (s.modPart p g).recorder = s.recorder ∧ (s.modPart p g).rplFull = s.rplFull ∧
    (s.modPart p g).replay = s.replay ∧ (s.modPart p g).fence = s.fence ∧ (s.modPart p g).wds = s.wds ∧
    (s.modPart p g).expiries = s.expiries ∧ (s.modPart p g).overruns = s.overruns ∧ (s.modPart p g).heartbeats = s.heartbeats ∧
    (s.modPart p g).josil = s.josil ∧ (s.modPart p g).lid = s.lid ∧ (s.modPart p g).power = s.power ∧
    (s.modPart p g).servo = s.servo ∧ (s.modPart p g).sources = s.sources ∧ (s.modPart p g).arbs = s.arbs ∧
    (s.modPart p g).arbReqs = s.arbReqs ∧ (s.modPart p g).delayed = s.delayed ∧ (s.modPart p g).credits = s.credits ∧
    (s.modPart p g).ptbOld = s.ptbOld ∧ (s.modPart p g).stallDraws = s.stallDraws ∧ (s.modPart p g).delayDraws = s.delayDraws ∧
    (s.modPart p g).upsets = s.upsets ∧ (s.modPart p g).fuses = s.fuses ∧ (s.modPart p g).resets = s.resets :=
  ⟨rfl, rfl, rfl, rfl, rfl, rfl, rfl, rfl, rfl, rfl, rfl, rfl, rfl, rfl, rfl, rfl, rfl, rfl, rfl, rfl, rfl, rfl, rfl, rfl, rfl, rfl, rfl, rfl, rfl, rfl, rfl, rfl, rfl, rfl, rfl, rfl, rfl, rfl, rfl, rfl, rfl, rfl, rfl, rfl, rfl, rfl, rfl, rfl, rfl, rfl, rfl, rfl, rfl⟩
@[simp] theorem State.modPart_parts (p : Nat) (g : Part → Part) : (s.modPart p g).parts = SMap.modify (fun _ => Part.reset) s.parts p g := rfl

/-- `modLink` changes links alone. -/
@[simp] theorem State.modLink_frame (k : Nat) (g : Link → Link) :
  (s.modLink k g).pending = s.pending ∧ (s.modLink k g).clk = s.clk ∧ (s.modLink k g).regs = s.regs ∧
    (s.modLink k g).hbm = s.hbm ∧ (s.modLink k g).hbmPoison = s.hbmPoison ∧ (s.modLink k g).heldWrites = s.heldWrites ∧
    (s.modLink k g).ringWaits = s.ringWaits ∧ (s.modLink k g).saveAreas = s.saveAreas ∧
    (s.modLink k g).saveDraws = s.saveDraws ∧ (s.modLink k g).badChannels = s.badChannels ∧ (s.modLink k g).remap = s.remap ∧
    (s.modLink k g).frameTests = s.frameTests ∧ (s.modLink k g).scrubs = s.scrubs ∧ (s.modLink k g).scrubLog = s.scrubLog ∧
    (s.modLink k g).tlb = s.tlb ∧ (s.modLink k g).moves = s.moves ∧ (s.modLink k g).moveId = s.moveId ∧
    (s.modLink k g).blks = s.blks ∧ (s.modLink k g).parts = s.parts ∧ (s.modLink k g).ctxs = s.ctxs ∧
    (s.modLink k g).queues = s.queues ∧ (s.modLink k g).ports = s.ports ∧ (s.modLink k g).routes = s.routes ∧
    (s.modLink k g).plait = s.plait ∧ (s.modLink k g).early = s.early ∧ (s.modLink k g).carries = s.carries ∧
    (s.modLink k g).holds = s.holds ∧ (s.modLink k g).fences = s.fences ∧ (s.modLink k g).plaitDone = s.plaitDone ∧
    (s.modLink k g).coils = s.coils ∧ (s.modLink k g).recorder = s.recorder ∧ (s.modLink k g).rplFull = s.rplFull ∧
    (s.modLink k g).replay = s.replay ∧ (s.modLink k g).fence = s.fence ∧ (s.modLink k g).wds = s.wds ∧
    (s.modLink k g).expiries = s.expiries ∧ (s.modLink k g).overruns = s.overruns ∧ (s.modLink k g).heartbeats = s.heartbeats ∧
    (s.modLink k g).josil = s.josil ∧ (s.modLink k g).lid = s.lid ∧ (s.modLink k g).power = s.power ∧
    (s.modLink k g).servo = s.servo ∧ (s.modLink k g).sources = s.sources ∧ (s.modLink k g).arbs = s.arbs ∧
    (s.modLink k g).arbReqs = s.arbReqs ∧ (s.modLink k g).delayed = s.delayed ∧ (s.modLink k g).credits = s.credits ∧
    (s.modLink k g).ptbOld = s.ptbOld ∧ (s.modLink k g).stallDraws = s.stallDraws ∧ (s.modLink k g).delayDraws = s.delayDraws ∧
    (s.modLink k g).upsets = s.upsets ∧ (s.modLink k g).fuses = s.fuses ∧ (s.modLink k g).resets = s.resets :=
  ⟨rfl, rfl, rfl, rfl, rfl, rfl, rfl, rfl, rfl, rfl, rfl, rfl, rfl, rfl, rfl, rfl, rfl, rfl, rfl, rfl, rfl, rfl, rfl, rfl, rfl, rfl, rfl, rfl, rfl, rfl, rfl, rfl, rfl, rfl, rfl, rfl, rfl, rfl, rfl, rfl, rfl, rfl, rfl, rfl, rfl, rfl, rfl, rfl, rfl, rfl, rfl, rfl, rfl⟩
@[simp] theorem State.modLink_links (k : Nat) (g : Link → Link) : (s.modLink k g).links = SMap.modify (fun _ => Link.reset) s.links k g := rfl

/-- `modCoil` changes coils alone. -/
@[simp] theorem State.modCoil_frame (e : Nat) (g : Coil → Coil) :
  (s.modCoil e g).pending = s.pending ∧ (s.modCoil e g).clk = s.clk ∧ (s.modCoil e g).regs = s.regs ∧
    (s.modCoil e g).hbm = s.hbm ∧ (s.modCoil e g).hbmPoison = s.hbmPoison ∧ (s.modCoil e g).heldWrites = s.heldWrites ∧
    (s.modCoil e g).ringWaits = s.ringWaits ∧ (s.modCoil e g).saveAreas = s.saveAreas ∧
    (s.modCoil e g).saveDraws = s.saveDraws ∧ (s.modCoil e g).badChannels = s.badChannels ∧ (s.modCoil e g).remap = s.remap ∧
    (s.modCoil e g).frameTests = s.frameTests ∧ (s.modCoil e g).scrubs = s.scrubs ∧ (s.modCoil e g).scrubLog = s.scrubLog ∧
    (s.modCoil e g).tlb = s.tlb ∧ (s.modCoil e g).moves = s.moves ∧ (s.modCoil e g).moveId = s.moveId ∧
    (s.modCoil e g).blks = s.blks ∧ (s.modCoil e g).parts = s.parts ∧ (s.modCoil e g).ctxs = s.ctxs ∧
    (s.modCoil e g).queues = s.queues ∧ (s.modCoil e g).links = s.links ∧ (s.modCoil e g).ports = s.ports ∧
    (s.modCoil e g).routes = s.routes ∧ (s.modCoil e g).plait = s.plait ∧ (s.modCoil e g).early = s.early ∧
    (s.modCoil e g).carries = s.carries ∧ (s.modCoil e g).holds = s.holds ∧ (s.modCoil e g).fences = s.fences ∧
    (s.modCoil e g).plaitDone = s.plaitDone ∧ (s.modCoil e g).recorder = s.recorder ∧ (s.modCoil e g).rplFull = s.rplFull ∧
    (s.modCoil e g).replay = s.replay ∧ (s.modCoil e g).fence = s.fence ∧ (s.modCoil e g).wds = s.wds ∧
    (s.modCoil e g).expiries = s.expiries ∧ (s.modCoil e g).overruns = s.overruns ∧ (s.modCoil e g).heartbeats = s.heartbeats ∧
    (s.modCoil e g).josil = s.josil ∧ (s.modCoil e g).lid = s.lid ∧ (s.modCoil e g).power = s.power ∧
    (s.modCoil e g).servo = s.servo ∧ (s.modCoil e g).sources = s.sources ∧ (s.modCoil e g).arbs = s.arbs ∧
    (s.modCoil e g).arbReqs = s.arbReqs ∧ (s.modCoil e g).delayed = s.delayed ∧ (s.modCoil e g).credits = s.credits ∧
    (s.modCoil e g).ptbOld = s.ptbOld ∧ (s.modCoil e g).stallDraws = s.stallDraws ∧ (s.modCoil e g).delayDraws = s.delayDraws ∧
    (s.modCoil e g).upsets = s.upsets ∧ (s.modCoil e g).fuses = s.fuses ∧ (s.modCoil e g).resets = s.resets :=
  ⟨rfl, rfl, rfl, rfl, rfl, rfl, rfl, rfl, rfl, rfl, rfl, rfl, rfl, rfl, rfl, rfl, rfl, rfl, rfl, rfl, rfl, rfl, rfl, rfl, rfl, rfl, rfl, rfl, rfl, rfl, rfl, rfl, rfl, rfl, rfl, rfl, rfl, rfl, rfl, rfl, rfl, rfl, rfl, rfl, rfl, rfl, rfl, rfl, rfl, rfl, rfl, rfl, rfl⟩
@[simp] theorem State.modCoil_coils (e : Nat) (g : Coil → Coil) : (s.modCoil e g).coils = SMap.modify (fun _ => Coil.reset) s.coils e g := rfl

/-- `setPlaitSlot` changes plait alone. -/
@[simp] theorem State.setPlaitSlot_frame (i : Nat) (o : Option PlaitOp) :
  (s.setPlaitSlot i o).pending = s.pending ∧ (s.setPlaitSlot i o).clk = s.clk ∧ (s.setPlaitSlot i o).regs = s.regs ∧
    (s.setPlaitSlot i o).hbm = s.hbm ∧ (s.setPlaitSlot i o).hbmPoison = s.hbmPoison ∧
    (s.setPlaitSlot i o).heldWrites = s.heldWrites ∧ (s.setPlaitSlot i o).ringWaits = s.ringWaits ∧
    (s.setPlaitSlot i o).saveAreas = s.saveAreas ∧ (s.setPlaitSlot i o).saveDraws = s.saveDraws ∧
    (s.setPlaitSlot i o).badChannels = s.badChannels ∧ (s.setPlaitSlot i o).remap = s.remap ∧
    (s.setPlaitSlot i o).frameTests = s.frameTests ∧ (s.setPlaitSlot i o).scrubs = s.scrubs ∧
    (s.setPlaitSlot i o).scrubLog = s.scrubLog ∧ (s.setPlaitSlot i o).tlb = s.tlb ∧ (s.setPlaitSlot i o).moves = s.moves ∧
    (s.setPlaitSlot i o).moveId = s.moveId ∧ (s.setPlaitSlot i o).blks = s.blks ∧ (s.setPlaitSlot i o).parts = s.parts ∧
    (s.setPlaitSlot i o).ctxs = s.ctxs ∧ (s.setPlaitSlot i o).queues = s.queues ∧ (s.setPlaitSlot i o).links = s.links ∧
    (s.setPlaitSlot i o).ports = s.ports ∧ (s.setPlaitSlot i o).routes = s.routes ∧ (s.setPlaitSlot i o).early = s.early ∧
    (s.setPlaitSlot i o).carries = s.carries ∧ (s.setPlaitSlot i o).holds = s.holds ∧ (s.setPlaitSlot i o).fences = s.fences ∧
    (s.setPlaitSlot i o).plaitDone = s.plaitDone ∧ (s.setPlaitSlot i o).coils = s.coils ∧
    (s.setPlaitSlot i o).recorder = s.recorder ∧ (s.setPlaitSlot i o).rplFull = s.rplFull ∧
    (s.setPlaitSlot i o).replay = s.replay ∧ (s.setPlaitSlot i o).fence = s.fence ∧ (s.setPlaitSlot i o).wds = s.wds ∧
    (s.setPlaitSlot i o).expiries = s.expiries ∧ (s.setPlaitSlot i o).overruns = s.overruns ∧
    (s.setPlaitSlot i o).heartbeats = s.heartbeats ∧ (s.setPlaitSlot i o).josil = s.josil ∧ (s.setPlaitSlot i o).lid = s.lid ∧
    (s.setPlaitSlot i o).power = s.power ∧ (s.setPlaitSlot i o).servo = s.servo ∧ (s.setPlaitSlot i o).sources = s.sources ∧
    (s.setPlaitSlot i o).arbs = s.arbs ∧ (s.setPlaitSlot i o).arbReqs = s.arbReqs ∧ (s.setPlaitSlot i o).delayed = s.delayed ∧
    (s.setPlaitSlot i o).credits = s.credits ∧ (s.setPlaitSlot i o).ptbOld = s.ptbOld ∧
    (s.setPlaitSlot i o).stallDraws = s.stallDraws ∧ (s.setPlaitSlot i o).delayDraws = s.delayDraws ∧
    (s.setPlaitSlot i o).upsets = s.upsets ∧ (s.setPlaitSlot i o).fuses = s.fuses ∧ (s.setPlaitSlot i o).resets = s.resets :=
  ⟨rfl, rfl, rfl, rfl, rfl, rfl, rfl, rfl, rfl, rfl, rfl, rfl, rfl, rfl, rfl, rfl, rfl, rfl, rfl, rfl, rfl, rfl, rfl, rfl, rfl, rfl, rfl, rfl, rfl, rfl, rfl, rfl, rfl, rfl, rfl, rfl, rfl, rfl, rfl, rfl, rfl, rfl, rfl, rfl, rfl, rfl, rfl, rfl, rfl, rfl, rfl, rfl, rfl⟩
@[simp] theorem State.setPlaitSlot_plait (i : Nat) (o : Option PlaitOp) : (s.setPlaitSlot i o).plait = SMap.set (fun _ => none) s.plait i o := rfl

/-- `setPort` changes ports alone. -/
@[simp] theorem State.setPort_frame (k : Nat) (l : List QPkt) :
  (s.setPort k l).pending = s.pending ∧ (s.setPort k l).clk = s.clk ∧ (s.setPort k l).regs = s.regs ∧
    (s.setPort k l).hbm = s.hbm ∧ (s.setPort k l).hbmPoison = s.hbmPoison ∧ (s.setPort k l).heldWrites = s.heldWrites ∧
    (s.setPort k l).ringWaits = s.ringWaits ∧ (s.setPort k l).saveAreas = s.saveAreas ∧
    (s.setPort k l).saveDraws = s.saveDraws ∧ (s.setPort k l).badChannels = s.badChannels ∧ (s.setPort k l).remap = s.remap ∧
    (s.setPort k l).frameTests = s.frameTests ∧ (s.setPort k l).scrubs = s.scrubs ∧ (s.setPort k l).scrubLog = s.scrubLog ∧
    (s.setPort k l).tlb = s.tlb ∧ (s.setPort k l).moves = s.moves ∧ (s.setPort k l).moveId = s.moveId ∧
    (s.setPort k l).blks = s.blks ∧ (s.setPort k l).parts = s.parts ∧ (s.setPort k l).ctxs = s.ctxs ∧
    (s.setPort k l).queues = s.queues ∧ (s.setPort k l).links = s.links ∧ (s.setPort k l).routes = s.routes ∧
    (s.setPort k l).plait = s.plait ∧ (s.setPort k l).early = s.early ∧ (s.setPort k l).carries = s.carries ∧
    (s.setPort k l).holds = s.holds ∧ (s.setPort k l).fences = s.fences ∧ (s.setPort k l).plaitDone = s.plaitDone ∧
    (s.setPort k l).coils = s.coils ∧ (s.setPort k l).recorder = s.recorder ∧ (s.setPort k l).rplFull = s.rplFull ∧
    (s.setPort k l).replay = s.replay ∧ (s.setPort k l).fence = s.fence ∧ (s.setPort k l).wds = s.wds ∧
    (s.setPort k l).expiries = s.expiries ∧ (s.setPort k l).overruns = s.overruns ∧ (s.setPort k l).heartbeats = s.heartbeats ∧
    (s.setPort k l).josil = s.josil ∧ (s.setPort k l).lid = s.lid ∧ (s.setPort k l).power = s.power ∧
    (s.setPort k l).servo = s.servo ∧ (s.setPort k l).sources = s.sources ∧ (s.setPort k l).arbs = s.arbs ∧
    (s.setPort k l).arbReqs = s.arbReqs ∧ (s.setPort k l).delayed = s.delayed ∧ (s.setPort k l).credits = s.credits ∧
    (s.setPort k l).ptbOld = s.ptbOld ∧ (s.setPort k l).stallDraws = s.stallDraws ∧ (s.setPort k l).delayDraws = s.delayDraws ∧
    (s.setPort k l).upsets = s.upsets ∧ (s.setPort k l).fuses = s.fuses ∧ (s.setPort k l).resets = s.resets :=
  ⟨rfl, rfl, rfl, rfl, rfl, rfl, rfl, rfl, rfl, rfl, rfl, rfl, rfl, rfl, rfl, rfl, rfl, rfl, rfl, rfl, rfl, rfl, rfl, rfl, rfl, rfl, rfl, rfl, rfl, rfl, rfl, rfl, rfl, rfl, rfl, rfl, rfl, rfl, rfl, rfl, rfl, rfl, rfl, rfl, rfl, rfl, rfl, rfl, rfl, rfl, rfl, rfl, rfl⟩
@[simp] theorem State.setPort_ports (k : Nat) (l : List QPkt) : (s.setPort k l).ports = SMap.set (fun _ => []) s.ports k l := rfl

/-- `modArb` changes arbs alone. -/
@[simp] theorem State.modArb_frame (o : Nat) (g : Arb → Arb) :
  (s.modArb o g).pending = s.pending ∧ (s.modArb o g).clk = s.clk ∧ (s.modArb o g).regs = s.regs ∧ (s.modArb o g).hbm = s.hbm ∧
    (s.modArb o g).hbmPoison = s.hbmPoison ∧ (s.modArb o g).heldWrites = s.heldWrites ∧
    (s.modArb o g).ringWaits = s.ringWaits ∧ (s.modArb o g).saveAreas = s.saveAreas ∧ (s.modArb o g).saveDraws = s.saveDraws ∧
    (s.modArb o g).badChannels = s.badChannels ∧ (s.modArb o g).remap = s.remap ∧ (s.modArb o g).frameTests = s.frameTests ∧
    (s.modArb o g).scrubs = s.scrubs ∧ (s.modArb o g).scrubLog = s.scrubLog ∧ (s.modArb o g).tlb = s.tlb ∧
    (s.modArb o g).moves = s.moves ∧ (s.modArb o g).moveId = s.moveId ∧ (s.modArb o g).blks = s.blks ∧
    (s.modArb o g).parts = s.parts ∧ (s.modArb o g).ctxs = s.ctxs ∧ (s.modArb o g).queues = s.queues ∧
    (s.modArb o g).links = s.links ∧ (s.modArb o g).ports = s.ports ∧ (s.modArb o g).routes = s.routes ∧
    (s.modArb o g).plait = s.plait ∧ (s.modArb o g).early = s.early ∧ (s.modArb o g).carries = s.carries ∧
    (s.modArb o g).holds = s.holds ∧ (s.modArb o g).fences = s.fences ∧ (s.modArb o g).plaitDone = s.plaitDone ∧
    (s.modArb o g).coils = s.coils ∧ (s.modArb o g).recorder = s.recorder ∧ (s.modArb o g).rplFull = s.rplFull ∧
    (s.modArb o g).replay = s.replay ∧ (s.modArb o g).fence = s.fence ∧ (s.modArb o g).wds = s.wds ∧
    (s.modArb o g).expiries = s.expiries ∧ (s.modArb o g).overruns = s.overruns ∧ (s.modArb o g).heartbeats = s.heartbeats ∧
    (s.modArb o g).josil = s.josil ∧ (s.modArb o g).lid = s.lid ∧ (s.modArb o g).power = s.power ∧
    (s.modArb o g).servo = s.servo ∧ (s.modArb o g).sources = s.sources ∧ (s.modArb o g).arbReqs = s.arbReqs ∧
    (s.modArb o g).delayed = s.delayed ∧ (s.modArb o g).credits = s.credits ∧ (s.modArb o g).ptbOld = s.ptbOld ∧
    (s.modArb o g).stallDraws = s.stallDraws ∧ (s.modArb o g).delayDraws = s.delayDraws ∧ (s.modArb o g).upsets = s.upsets ∧
    (s.modArb o g).fuses = s.fuses ∧ (s.modArb o g).resets = s.resets :=
  ⟨rfl, rfl, rfl, rfl, rfl, rfl, rfl, rfl, rfl, rfl, rfl, rfl, rfl, rfl, rfl, rfl, rfl, rfl, rfl, rfl, rfl, rfl, rfl, rfl, rfl, rfl, rfl, rfl, rfl, rfl, rfl, rfl, rfl, rfl, rfl, rfl, rfl, rfl, rfl, rfl, rfl, rfl, rfl, rfl, rfl, rfl, rfl, rfl, rfl, rfl, rfl, rfl, rfl⟩
@[simp] theorem State.modArb_arbs (o : Nat) (g : Arb → Arb) : (s.modArb o g).arbs = SMap.modify (fun _ => Arb.reset) s.arbs o g := rfl

/-- `modJosil` changes josil alone. -/
@[simp] theorem State.modJosil_frame (g : Josil → Josil) :
  (s.modJosil g).pending = s.pending ∧ (s.modJosil g).clk = s.clk ∧ (s.modJosil g).regs = s.regs ∧ (s.modJosil g).hbm = s.hbm ∧
    (s.modJosil g).hbmPoison = s.hbmPoison ∧ (s.modJosil g).heldWrites = s.heldWrites ∧
    (s.modJosil g).ringWaits = s.ringWaits ∧ (s.modJosil g).saveAreas = s.saveAreas ∧ (s.modJosil g).saveDraws = s.saveDraws ∧
    (s.modJosil g).badChannels = s.badChannels ∧ (s.modJosil g).remap = s.remap ∧ (s.modJosil g).frameTests = s.frameTests ∧
    (s.modJosil g).scrubs = s.scrubs ∧ (s.modJosil g).scrubLog = s.scrubLog ∧ (s.modJosil g).tlb = s.tlb ∧
    (s.modJosil g).moves = s.moves ∧ (s.modJosil g).moveId = s.moveId ∧ (s.modJosil g).blks = s.blks ∧
    (s.modJosil g).parts = s.parts ∧ (s.modJosil g).ctxs = s.ctxs ∧ (s.modJosil g).queues = s.queues ∧
    (s.modJosil g).links = s.links ∧ (s.modJosil g).ports = s.ports ∧ (s.modJosil g).routes = s.routes ∧
    (s.modJosil g).plait = s.plait ∧ (s.modJosil g).early = s.early ∧ (s.modJosil g).carries = s.carries ∧
    (s.modJosil g).holds = s.holds ∧ (s.modJosil g).fences = s.fences ∧ (s.modJosil g).plaitDone = s.plaitDone ∧
    (s.modJosil g).coils = s.coils ∧ (s.modJosil g).recorder = s.recorder ∧ (s.modJosil g).rplFull = s.rplFull ∧
    (s.modJosil g).replay = s.replay ∧ (s.modJosil g).fence = s.fence ∧ (s.modJosil g).wds = s.wds ∧
    (s.modJosil g).expiries = s.expiries ∧ (s.modJosil g).overruns = s.overruns ∧ (s.modJosil g).heartbeats = s.heartbeats ∧
    (s.modJosil g).lid = s.lid ∧ (s.modJosil g).power = s.power ∧ (s.modJosil g).servo = s.servo ∧
    (s.modJosil g).sources = s.sources ∧ (s.modJosil g).arbs = s.arbs ∧ (s.modJosil g).arbReqs = s.arbReqs ∧
    (s.modJosil g).delayed = s.delayed ∧ (s.modJosil g).credits = s.credits ∧ (s.modJosil g).ptbOld = s.ptbOld ∧
    (s.modJosil g).stallDraws = s.stallDraws ∧ (s.modJosil g).delayDraws = s.delayDraws ∧ (s.modJosil g).upsets = s.upsets ∧
    (s.modJosil g).fuses = s.fuses ∧ (s.modJosil g).resets = s.resets :=
  ⟨rfl, rfl, rfl, rfl, rfl, rfl, rfl, rfl, rfl, rfl, rfl, rfl, rfl, rfl, rfl, rfl, rfl, rfl, rfl, rfl, rfl, rfl, rfl, rfl, rfl, rfl, rfl, rfl, rfl, rfl, rfl, rfl, rfl, rfl, rfl, rfl, rfl, rfl, rfl, rfl, rfl, rfl, rfl, rfl, rfl, rfl, rfl, rfl, rfl, rfl, rfl, rfl, rfl⟩
@[simp] theorem State.modJosil_josil (g : Josil → Josil) : (s.modJosil g).josil = g s.josil := rfl

/-- `setLine` changes josil alone. -/
@[simp] theorem State.setLine_frame (n : Nat) (x : Line) :
  (s.setLine n x).pending = s.pending ∧ (s.setLine n x).clk = s.clk ∧ (s.setLine n x).regs = s.regs ∧
    (s.setLine n x).hbm = s.hbm ∧ (s.setLine n x).hbmPoison = s.hbmPoison ∧ (s.setLine n x).heldWrites = s.heldWrites ∧
    (s.setLine n x).ringWaits = s.ringWaits ∧ (s.setLine n x).saveAreas = s.saveAreas ∧
    (s.setLine n x).saveDraws = s.saveDraws ∧ (s.setLine n x).badChannels = s.badChannels ∧ (s.setLine n x).remap = s.remap ∧
    (s.setLine n x).frameTests = s.frameTests ∧ (s.setLine n x).scrubs = s.scrubs ∧ (s.setLine n x).scrubLog = s.scrubLog ∧
    (s.setLine n x).tlb = s.tlb ∧ (s.setLine n x).moves = s.moves ∧ (s.setLine n x).moveId = s.moveId ∧
    (s.setLine n x).blks = s.blks ∧ (s.setLine n x).parts = s.parts ∧ (s.setLine n x).ctxs = s.ctxs ∧
    (s.setLine n x).queues = s.queues ∧ (s.setLine n x).links = s.links ∧ (s.setLine n x).ports = s.ports ∧
    (s.setLine n x).routes = s.routes ∧ (s.setLine n x).plait = s.plait ∧ (s.setLine n x).early = s.early ∧
    (s.setLine n x).carries = s.carries ∧ (s.setLine n x).holds = s.holds ∧ (s.setLine n x).fences = s.fences ∧
    (s.setLine n x).plaitDone = s.plaitDone ∧ (s.setLine n x).coils = s.coils ∧ (s.setLine n x).recorder = s.recorder ∧
    (s.setLine n x).rplFull = s.rplFull ∧ (s.setLine n x).replay = s.replay ∧ (s.setLine n x).fence = s.fence ∧
    (s.setLine n x).wds = s.wds ∧ (s.setLine n x).expiries = s.expiries ∧ (s.setLine n x).overruns = s.overruns ∧
    (s.setLine n x).heartbeats = s.heartbeats ∧ (s.setLine n x).lid = s.lid ∧ (s.setLine n x).power = s.power ∧
    (s.setLine n x).servo = s.servo ∧ (s.setLine n x).sources = s.sources ∧ (s.setLine n x).arbs = s.arbs ∧
    (s.setLine n x).arbReqs = s.arbReqs ∧ (s.setLine n x).delayed = s.delayed ∧ (s.setLine n x).credits = s.credits ∧
    (s.setLine n x).ptbOld = s.ptbOld ∧ (s.setLine n x).stallDraws = s.stallDraws ∧ (s.setLine n x).delayDraws = s.delayDraws ∧
    (s.setLine n x).upsets = s.upsets ∧ (s.setLine n x).fuses = s.fuses ∧ (s.setLine n x).resets = s.resets :=
  ⟨rfl, rfl, rfl, rfl, rfl, rfl, rfl, rfl, rfl, rfl, rfl, rfl, rfl, rfl, rfl, rfl, rfl, rfl, rfl, rfl, rfl, rfl, rfl, rfl, rfl, rfl, rfl, rfl, rfl, rfl, rfl, rfl, rfl, rfl, rfl, rfl, rfl, rfl, rfl, rfl, rfl, rfl, rfl, rfl, rfl, rfl, rfl, rfl, rfl, rfl, rfl, rfl, rfl⟩

/-- `modLid` changes lid alone. -/
@[simp] theorem State.modLid_frame (g : Lid → Lid) :
  (s.modLid g).pending = s.pending ∧ (s.modLid g).clk = s.clk ∧ (s.modLid g).regs = s.regs ∧ (s.modLid g).hbm = s.hbm ∧
    (s.modLid g).hbmPoison = s.hbmPoison ∧ (s.modLid g).heldWrites = s.heldWrites ∧ (s.modLid g).ringWaits = s.ringWaits ∧
    (s.modLid g).saveAreas = s.saveAreas ∧ (s.modLid g).saveDraws = s.saveDraws ∧ (s.modLid g).badChannels = s.badChannels ∧
    (s.modLid g).remap = s.remap ∧ (s.modLid g).frameTests = s.frameTests ∧ (s.modLid g).scrubs = s.scrubs ∧
    (s.modLid g).scrubLog = s.scrubLog ∧ (s.modLid g).tlb = s.tlb ∧ (s.modLid g).moves = s.moves ∧
    (s.modLid g).moveId = s.moveId ∧ (s.modLid g).blks = s.blks ∧ (s.modLid g).parts = s.parts ∧ (s.modLid g).ctxs = s.ctxs ∧
    (s.modLid g).queues = s.queues ∧ (s.modLid g).links = s.links ∧ (s.modLid g).ports = s.ports ∧
    (s.modLid g).routes = s.routes ∧ (s.modLid g).plait = s.plait ∧ (s.modLid g).early = s.early ∧
    (s.modLid g).carries = s.carries ∧ (s.modLid g).holds = s.holds ∧ (s.modLid g).fences = s.fences ∧
    (s.modLid g).plaitDone = s.plaitDone ∧ (s.modLid g).coils = s.coils ∧ (s.modLid g).recorder = s.recorder ∧
    (s.modLid g).rplFull = s.rplFull ∧ (s.modLid g).replay = s.replay ∧ (s.modLid g).fence = s.fence ∧
    (s.modLid g).wds = s.wds ∧ (s.modLid g).expiries = s.expiries ∧ (s.modLid g).overruns = s.overruns ∧
    (s.modLid g).heartbeats = s.heartbeats ∧ (s.modLid g).josil = s.josil ∧ (s.modLid g).power = s.power ∧
    (s.modLid g).servo = s.servo ∧ (s.modLid g).sources = s.sources ∧ (s.modLid g).arbs = s.arbs ∧
    (s.modLid g).arbReqs = s.arbReqs ∧ (s.modLid g).delayed = s.delayed ∧ (s.modLid g).credits = s.credits ∧
    (s.modLid g).ptbOld = s.ptbOld ∧ (s.modLid g).stallDraws = s.stallDraws ∧ (s.modLid g).delayDraws = s.delayDraws ∧
    (s.modLid g).upsets = s.upsets ∧ (s.modLid g).fuses = s.fuses ∧ (s.modLid g).resets = s.resets :=
  ⟨rfl, rfl, rfl, rfl, rfl, rfl, rfl, rfl, rfl, rfl, rfl, rfl, rfl, rfl, rfl, rfl, rfl, rfl, rfl, rfl, rfl, rfl, rfl, rfl, rfl, rfl, rfl, rfl, rfl, rfl, rfl, rfl, rfl, rfl, rfl, rfl, rfl, rfl, rfl, rfl, rfl, rfl, rfl, rfl, rfl, rfl, rfl, rfl, rfl, rfl, rfl, rfl, rfl⟩
@[simp] theorem State.modLid_lid (g : Lid → Lid) : (s.modLid g).lid = g s.lid := rfl

/-- `modPower` changes power alone. -/
@[simp] theorem State.modPower_frame (g : Power → Power) :
  (s.modPower g).pending = s.pending ∧ (s.modPower g).clk = s.clk ∧ (s.modPower g).regs = s.regs ∧ (s.modPower g).hbm = s.hbm ∧
    (s.modPower g).hbmPoison = s.hbmPoison ∧ (s.modPower g).heldWrites = s.heldWrites ∧
    (s.modPower g).ringWaits = s.ringWaits ∧ (s.modPower g).saveAreas = s.saveAreas ∧ (s.modPower g).saveDraws = s.saveDraws ∧
    (s.modPower g).badChannels = s.badChannels ∧ (s.modPower g).remap = s.remap ∧ (s.modPower g).frameTests = s.frameTests ∧
    (s.modPower g).scrubs = s.scrubs ∧ (s.modPower g).scrubLog = s.scrubLog ∧ (s.modPower g).tlb = s.tlb ∧
    (s.modPower g).moves = s.moves ∧ (s.modPower g).moveId = s.moveId ∧ (s.modPower g).blks = s.blks ∧
    (s.modPower g).parts = s.parts ∧ (s.modPower g).ctxs = s.ctxs ∧ (s.modPower g).queues = s.queues ∧
    (s.modPower g).links = s.links ∧ (s.modPower g).ports = s.ports ∧ (s.modPower g).routes = s.routes ∧
    (s.modPower g).plait = s.plait ∧ (s.modPower g).early = s.early ∧ (s.modPower g).carries = s.carries ∧
    (s.modPower g).holds = s.holds ∧ (s.modPower g).fences = s.fences ∧ (s.modPower g).plaitDone = s.plaitDone ∧
    (s.modPower g).coils = s.coils ∧ (s.modPower g).recorder = s.recorder ∧ (s.modPower g).rplFull = s.rplFull ∧
    (s.modPower g).replay = s.replay ∧ (s.modPower g).fence = s.fence ∧ (s.modPower g).wds = s.wds ∧
    (s.modPower g).expiries = s.expiries ∧ (s.modPower g).overruns = s.overruns ∧ (s.modPower g).heartbeats = s.heartbeats ∧
    (s.modPower g).josil = s.josil ∧ (s.modPower g).lid = s.lid ∧ (s.modPower g).servo = s.servo ∧
    (s.modPower g).sources = s.sources ∧ (s.modPower g).arbs = s.arbs ∧ (s.modPower g).arbReqs = s.arbReqs ∧
    (s.modPower g).delayed = s.delayed ∧ (s.modPower g).credits = s.credits ∧ (s.modPower g).ptbOld = s.ptbOld ∧
    (s.modPower g).stallDraws = s.stallDraws ∧ (s.modPower g).delayDraws = s.delayDraws ∧ (s.modPower g).upsets = s.upsets ∧
    (s.modPower g).fuses = s.fuses ∧ (s.modPower g).resets = s.resets :=
  ⟨rfl, rfl, rfl, rfl, rfl, rfl, rfl, rfl, rfl, rfl, rfl, rfl, rfl, rfl, rfl, rfl, rfl, rfl, rfl, rfl, rfl, rfl, rfl, rfl, rfl, rfl, rfl, rfl, rfl, rfl, rfl, rfl, rfl, rfl, rfl, rfl, rfl, rfl, rfl, rfl, rfl, rfl, rfl, rfl, rfl, rfl, rfl, rfl, rfl, rfl, rfl, rfl, rfl⟩
@[simp] theorem State.modPower_power (g : Power → Power) : (s.modPower g).power = g s.power := rfl

/-- `modServo` changes servo alone. -/
@[simp] theorem State.modServo_frame (g : Servo → Servo) :
  (s.modServo g).pending = s.pending ∧ (s.modServo g).clk = s.clk ∧ (s.modServo g).regs = s.regs ∧ (s.modServo g).hbm = s.hbm ∧
    (s.modServo g).hbmPoison = s.hbmPoison ∧ (s.modServo g).heldWrites = s.heldWrites ∧
    (s.modServo g).ringWaits = s.ringWaits ∧ (s.modServo g).saveAreas = s.saveAreas ∧ (s.modServo g).saveDraws = s.saveDraws ∧
    (s.modServo g).badChannels = s.badChannels ∧ (s.modServo g).remap = s.remap ∧ (s.modServo g).frameTests = s.frameTests ∧
    (s.modServo g).scrubs = s.scrubs ∧ (s.modServo g).scrubLog = s.scrubLog ∧ (s.modServo g).tlb = s.tlb ∧
    (s.modServo g).moves = s.moves ∧ (s.modServo g).moveId = s.moveId ∧ (s.modServo g).blks = s.blks ∧
    (s.modServo g).parts = s.parts ∧ (s.modServo g).ctxs = s.ctxs ∧ (s.modServo g).queues = s.queues ∧
    (s.modServo g).links = s.links ∧ (s.modServo g).ports = s.ports ∧ (s.modServo g).routes = s.routes ∧
    (s.modServo g).plait = s.plait ∧ (s.modServo g).early = s.early ∧ (s.modServo g).carries = s.carries ∧
    (s.modServo g).holds = s.holds ∧ (s.modServo g).fences = s.fences ∧ (s.modServo g).plaitDone = s.plaitDone ∧
    (s.modServo g).coils = s.coils ∧ (s.modServo g).recorder = s.recorder ∧ (s.modServo g).rplFull = s.rplFull ∧
    (s.modServo g).replay = s.replay ∧ (s.modServo g).fence = s.fence ∧ (s.modServo g).wds = s.wds ∧
    (s.modServo g).expiries = s.expiries ∧ (s.modServo g).overruns = s.overruns ∧ (s.modServo g).heartbeats = s.heartbeats ∧
    (s.modServo g).josil = s.josil ∧ (s.modServo g).lid = s.lid ∧ (s.modServo g).power = s.power ∧
    (s.modServo g).sources = s.sources ∧ (s.modServo g).arbs = s.arbs ∧ (s.modServo g).arbReqs = s.arbReqs ∧
    (s.modServo g).delayed = s.delayed ∧ (s.modServo g).credits = s.credits ∧ (s.modServo g).ptbOld = s.ptbOld ∧
    (s.modServo g).stallDraws = s.stallDraws ∧ (s.modServo g).delayDraws = s.delayDraws ∧ (s.modServo g).upsets = s.upsets ∧
    (s.modServo g).fuses = s.fuses ∧ (s.modServo g).resets = s.resets :=
  ⟨rfl, rfl, rfl, rfl, rfl, rfl, rfl, rfl, rfl, rfl, rfl, rfl, rfl, rfl, rfl, rfl, rfl, rfl, rfl, rfl, rfl, rfl, rfl, rfl, rfl, rfl, rfl, rfl, rfl, rfl, rfl, rfl, rfl, rfl, rfl, rfl, rfl, rfl, rfl, rfl, rfl, rfl, rfl, rfl, rfl, rfl, rfl, rfl, rfl, rfl, rfl, rfl, rfl⟩
@[simp] theorem State.modServo_servo (g : Servo → Servo) : (s.modServo g).servo = g s.servo := rfl

/-- `setPoison` changes hbmPoison alone. -/
@[simp] theorem State.setPoison_frame (a : Nat) (p : Bool) :
  (s.setPoison a p).pending = s.pending ∧ (s.setPoison a p).clk = s.clk ∧ (s.setPoison a p).regs = s.regs ∧
    (s.setPoison a p).hbm = s.hbm ∧ (s.setPoison a p).heldWrites = s.heldWrites ∧ (s.setPoison a p).ringWaits = s.ringWaits ∧
    (s.setPoison a p).saveAreas = s.saveAreas ∧ (s.setPoison a p).saveDraws = s.saveDraws ∧
    (s.setPoison a p).badChannels = s.badChannels ∧ (s.setPoison a p).remap = s.remap ∧
    (s.setPoison a p).frameTests = s.frameTests ∧ (s.setPoison a p).scrubs = s.scrubs ∧
    (s.setPoison a p).scrubLog = s.scrubLog ∧ (s.setPoison a p).tlb = s.tlb ∧ (s.setPoison a p).moves = s.moves ∧
    (s.setPoison a p).moveId = s.moveId ∧ (s.setPoison a p).blks = s.blks ∧ (s.setPoison a p).parts = s.parts ∧
    (s.setPoison a p).ctxs = s.ctxs ∧ (s.setPoison a p).queues = s.queues ∧ (s.setPoison a p).links = s.links ∧
    (s.setPoison a p).ports = s.ports ∧ (s.setPoison a p).routes = s.routes ∧ (s.setPoison a p).plait = s.plait ∧
    (s.setPoison a p).early = s.early ∧ (s.setPoison a p).carries = s.carries ∧ (s.setPoison a p).holds = s.holds ∧
    (s.setPoison a p).fences = s.fences ∧ (s.setPoison a p).plaitDone = s.plaitDone ∧ (s.setPoison a p).coils = s.coils ∧
    (s.setPoison a p).recorder = s.recorder ∧ (s.setPoison a p).rplFull = s.rplFull ∧ (s.setPoison a p).replay = s.replay ∧
    (s.setPoison a p).fence = s.fence ∧ (s.setPoison a p).wds = s.wds ∧ (s.setPoison a p).expiries = s.expiries ∧
    (s.setPoison a p).overruns = s.overruns ∧ (s.setPoison a p).heartbeats = s.heartbeats ∧ (s.setPoison a p).josil = s.josil ∧
    (s.setPoison a p).lid = s.lid ∧ (s.setPoison a p).power = s.power ∧ (s.setPoison a p).servo = s.servo ∧
    (s.setPoison a p).sources = s.sources ∧ (s.setPoison a p).arbs = s.arbs ∧ (s.setPoison a p).arbReqs = s.arbReqs ∧
    (s.setPoison a p).delayed = s.delayed ∧ (s.setPoison a p).credits = s.credits ∧ (s.setPoison a p).ptbOld = s.ptbOld ∧
    (s.setPoison a p).stallDraws = s.stallDraws ∧ (s.setPoison a p).delayDraws = s.delayDraws ∧
    (s.setPoison a p).upsets = s.upsets ∧ (s.setPoison a p).fuses = s.fuses ∧ (s.setPoison a p).resets = s.resets :=
  ⟨rfl, rfl, rfl, rfl, rfl, rfl, rfl, rfl, rfl, rfl, rfl, rfl, rfl, rfl, rfl, rfl, rfl, rfl, rfl, rfl, rfl, rfl, rfl, rfl, rfl, rfl, rfl, rfl, rfl, rfl, rfl, rfl, rfl, rfl, rfl, rfl, rfl, rfl, rfl, rfl, rfl, rfl, rfl, rfl, rfl, rfl, rfl, rfl, rfl, rfl, rfl, rfl, rfl⟩
@[simp] theorem State.setPoison_hbmPoison (a : Nat) (p : Bool) : (s.setPoison a p).hbmPoison = SMap.set (fun _ => false) s.hbmPoison (a / 256) p := rfl

/-- `startScrub` changes scrubs alone. -/
@[simp] theorem State.startScrub_frame (b l : Nat) (y : ScrubFor) :
  (s.startScrub b l y).pending = s.pending ∧ (s.startScrub b l y).clk = s.clk ∧ (s.startScrub b l y).regs = s.regs ∧
    (s.startScrub b l y).hbm = s.hbm ∧ (s.startScrub b l y).hbmPoison = s.hbmPoison ∧
    (s.startScrub b l y).heldWrites = s.heldWrites ∧ (s.startScrub b l y).ringWaits = s.ringWaits ∧
    (s.startScrub b l y).saveAreas = s.saveAreas ∧ (s.startScrub b l y).saveDraws = s.saveDraws ∧
    (s.startScrub b l y).badChannels = s.badChannels ∧ (s.startScrub b l y).remap = s.remap ∧
    (s.startScrub b l y).frameTests = s.frameTests ∧ (s.startScrub b l y).scrubLog = s.scrubLog ∧
    (s.startScrub b l y).tlb = s.tlb ∧ (s.startScrub b l y).moves = s.moves ∧ (s.startScrub b l y).moveId = s.moveId ∧
    (s.startScrub b l y).blks = s.blks ∧ (s.startScrub b l y).parts = s.parts ∧ (s.startScrub b l y).ctxs = s.ctxs ∧
    (s.startScrub b l y).queues = s.queues ∧ (s.startScrub b l y).links = s.links ∧ (s.startScrub b l y).ports = s.ports ∧
    (s.startScrub b l y).routes = s.routes ∧ (s.startScrub b l y).plait = s.plait ∧ (s.startScrub b l y).early = s.early ∧
    (s.startScrub b l y).carries = s.carries ∧ (s.startScrub b l y).holds = s.holds ∧ (s.startScrub b l y).fences = s.fences ∧
    (s.startScrub b l y).plaitDone = s.plaitDone ∧ (s.startScrub b l y).coils = s.coils ∧
    (s.startScrub b l y).recorder = s.recorder ∧ (s.startScrub b l y).rplFull = s.rplFull ∧
    (s.startScrub b l y).replay = s.replay ∧ (s.startScrub b l y).fence = s.fence ∧ (s.startScrub b l y).wds = s.wds ∧
    (s.startScrub b l y).expiries = s.expiries ∧ (s.startScrub b l y).overruns = s.overruns ∧
    (s.startScrub b l y).heartbeats = s.heartbeats ∧ (s.startScrub b l y).josil = s.josil ∧ (s.startScrub b l y).lid = s.lid ∧
    (s.startScrub b l y).power = s.power ∧ (s.startScrub b l y).servo = s.servo ∧ (s.startScrub b l y).sources = s.sources ∧
    (s.startScrub b l y).arbs = s.arbs ∧ (s.startScrub b l y).arbReqs = s.arbReqs ∧ (s.startScrub b l y).delayed = s.delayed ∧
    (s.startScrub b l y).credits = s.credits ∧ (s.startScrub b l y).ptbOld = s.ptbOld ∧
    (s.startScrub b l y).stallDraws = s.stallDraws ∧ (s.startScrub b l y).delayDraws = s.delayDraws ∧
    (s.startScrub b l y).upsets = s.upsets ∧ (s.startScrub b l y).fuses = s.fuses ∧ (s.startScrub b l y).resets = s.resets :=
  ⟨rfl, rfl, rfl, rfl, rfl, rfl, rfl, rfl, rfl, rfl, rfl, rfl, rfl, rfl, rfl, rfl, rfl, rfl, rfl, rfl, rfl, rfl, rfl, rfl, rfl, rfl, rfl, rfl, rfl, rfl, rfl, rfl, rfl, rfl, rfl, rfl, rfl, rfl, rfl, rfl, rfl, rfl, rfl, rfl, rfl, rfl, rfl, rfl, rfl, rfl, rfl, rfl, rfl⟩

end Sys2Proof.Machine
end

