-- ==== Sys2Proof/Laws/Ops.lean ====
section
/-!
SUPPORT. The laws of the named operations: bit fields, stored registers, block tables, HBM bytes, and what each shared operation of the
meanings can do.
-/

namespace Sys2Proof.Machine

/-! ### Bit fields -/

/-- `withBits` as the low part, the new field and the high part. -/
theorem withBits_eq (n hi lo v : Nat) (h : lo ≤ hi) :
    withBits n hi lo v =
      n % 2 ^ lo + 2 ^ lo * (v % 2 ^ (hi + 1 - lo) + 2 ^ (hi + 1 - lo) * (n / 2 ^ (hi + 1))) := by
  have hp : 2 ^ (hi + 1) = 2 ^ lo * 2 ^ (hi + 1 - lo) := by rw [← Nat.pow_add]; congr 1; omega
  unfold withBits
  generalize n / 2 ^ (hi + 1) = q
  generalize v % 2 ^ (hi + 1 - lo) = u
  have e1 : q * (2 ^ lo * 2 ^ (hi + 1 - lo)) = 2 ^ lo * (2 ^ (hi + 1 - lo) * q) := by rw [Nat.mul_comm q, Nat.mul_assoc]
  rw [hp, Nat.mul_add, e1, Nat.mul_comm u]
  omega

/-- The field just written reads as the low bits of the value. -/
theorem bits_withBits_same (n v : Nat) {hi lo : Nat} (h : lo ≤ hi) : bits (withBits n hi lo v) hi lo = v % 2 ^ (hi + 1 - lo) := by
  unfold bits
  rw [withBits_eq n hi lo v h, Nat.add_mul_div_left _ _ (Nat.two_pow_pos lo),
    Nat.div_eq_of_lt (Nat.mod_lt _ (Nat.two_pow_pos lo)), Nat.zero_add, Nat.add_mul_mod_self_left, Nat.mod_mod]

/-- A bit outside the field written keeps its value. -/
theorem testBit_withBits (n v : Nat) {hi lo : Nat} (h : lo ≤ hi) (i : Nat) :
    (withBits n hi lo v).testBit i = if lo ≤ i ∧ i ≤ hi then v.testBit (i - lo) else n.testBit i := by
  have e : withBits n hi lo v =
      2 ^ lo * (2 ^ (hi + 1 - lo) * (n / 2 ^ (hi + 1)) + v % 2 ^ (hi + 1 - lo)) + n % 2 ^ lo := by
    rw [withBits_eq n hi lo v h, Nat.add_comm (v % _), Nat.add_comm]
  rw [e, Nat.testBit_two_pow_mul_add _ (Nat.mod_lt _ (Nat.two_pow_pos lo)),
    Nat.testBit_two_pow_mul_add _ (Nat.mod_lt _ (Nat.two_pow_pos _)), Nat.testBit_mod_two_pow, Nat.testBit_mod_two_pow,
    Nat.testBit_div_two_pow]
  by_cases h1 : i < lo
  · simp [h1, show ¬ (lo ≤ i) by omega]
  · by_cases h2 : i ≤ hi
    · simp [h1, show lo ≤ i by omega, h2, show i - lo < hi + 1 - lo by omega]
    · simp [h1, h2, show ¬ (i - lo < hi + 1 - lo) by omega, show i - lo - (hi + 1 - lo) + (hi + 1) = i by omega]

/-- Bit `i` of a field. -/
theorem testBit_bits (n hi lo i : Nat) : (bits n hi lo).testBit i = (decide (i < hi + 1 - lo) && n.testBit (i + lo)) := by
  unfold bits
  rw [Nat.testBit_mod_two_pow, Nat.testBit_div_two_pow]

/-- A field that does not meet the field written keeps its value. -/
theorem bits_withBits_ne (n v : Nat) {hi lo hi' lo' : Nat} (h : lo ≤ hi) (hd : hi' < lo ∨ hi < lo') :
    bits (withBits n hi lo v) hi' lo' = bits n hi' lo' := by
  apply Nat.eq_of_testBit_eq
  intro i
  rw [testBit_bits, testBit_bits, testBit_withBits n v h]
  by_cases hi1 : i < hi' + 1 - lo'
  · rw [if_neg (by omega)]
  · simp [hi1]

/-- A number of 64 bits stays one when a field inside it is written. -/
theorem withBits_lt {n hi lo : Nat} (v : Nat) (hn : n < 2 ^ 64) (h : lo ≤ hi) (hh : hi < 64) : withBits n hi lo v < 2 ^ 64 := by
  apply Nat.lt_pow_two_of_testBit
  intro i hi64
  rw [testBit_withBits n v h, if_neg (by omega)]
  exact Nat.testBit_lt_two_pow (Nat.lt_of_lt_of_le hn (Nat.pow_le_pow_right (by decide) hi64))

/-! ### Stored registers -/

@[simp] theorem reg_setReg_same (s : State) (o : Nat) (v : Word) : (s.setReg o v).reg o = v := by
  simp [State.reg, State.setReg]

theorem reg_setReg_ne (s : State) {o o' : Nat} (v : Word) (h : o' ≠ o) : (s.setReg o v).reg o' = s.reg o' := by
  simp [State.reg, State.setReg, SMap.get_set_ne _ _ _ h]

theorem reg_setReg (s : State) (o o' : Nat) (v : Word) : (s.setReg o v).reg o' = if o' = o then v else s.reg o' := by
  by_cases h : o' = o
  · subst h; simp
  · simp [h, reg_setReg_ne s v h]

/-- A register of another offset keeps its value when a field is stored. -/
theorem reg_setFld_ne (s : State) (f : Fld) (v : Nat) {o : Nat} (h : o ≠ f.off) : (s.setFld f v).reg o = s.reg o :=
  reg_setReg_ne s _ h

/-- The field just stored reads as the low bits of the value. -/
theorem fld_setFld_same (s : State) (f : Fld) (v : Nat) (h : f.lo ≤ f.hi) (hh : f.hi < 64) :
    (s.setFld f v).fld f = v % 2 ^ (f.hi + 1 - f.lo) := by
  unfold State.fld State.setFld
  rw [reg_setReg_same, BitVec.toNat_ofNat, Nat.mod_eq_of_lt (withBits_lt v (s.reg f.off).isLt h hh), bits_withBits_same _ _ h]

/-- A field of another register, or of other bits of the same register, keeps its value. -/
theorem fld_setFld_ne (s : State) (f g : Fld) (v : Nat) (h : f.lo ≤ f.hi) (hh : f.hi < 64)
    (hd : g.off ≠ f.off ∨ g.hi < f.lo ∨ f.hi < g.lo) : (s.setFld f v).fld g = s.fld g := by
  unfold State.fld
  by_cases ho : g.off = f.off
  · have hd' : g.hi < f.lo ∨ f.hi < g.lo := hd.resolve_left (fun hn => hn ho)
    unfold State.setFld
    rw [ho, reg_setReg_same, BitVec.toNat_ofNat, Nat.mod_eq_of_lt (withBits_lt v (s.reg f.off).isLt h hh),
      bits_withBits_ne _ _ h hd']
  · rw [reg_setFld_ne s f v ho]

/-- The flag just stored. -/
theorem flag_setFlag_same (s : State) (f : Fld) (b : Bool) (h : f.lo = f.hi) (hh : f.hi < 64) : (s.setFlag f b).flag f = b := by
  unfold State.flag State.setFlag
  rw [fld_setFld_same s f _ (by omega) hh]
  have e : f.hi + 1 - f.lo = 1 := by omega
  rw [e]
  cases b <;> rfl

/-- Another flag keeps its value. -/
theorem flag_setFlag_ne (s : State) (f g : Fld) (b : Bool) (h : f.lo ≤ f.hi) (hh : f.hi < 64)
    (hd : g.off ≠ f.off ∨ g.hi < f.lo ∨ f.hi < g.lo) : (s.setFlag f b).flag g = s.flag g := by
  unfold State.flag State.setFlag
  rw [fld_setFld_ne s f g _ h hh hd]

/-- The register file keeps its canonical form under every store. -/
theorem regsOk_setReg (s : State) (o : Nat) (v : Word) (h : SMap.wf regReset s.regs = true) :
    SMap.wf regReset (s.setReg o v).regs = true := SMap.wf_set _ _ _ _ h

/-! ### Blocks, contexts and queues -/

@[simp] theorem blk_setBlk_same (s : State) (b : Nat) (x : Blk) : (s.setBlk b x).blk b = x := by
  simp [State.blk, State.setBlk]

theorem blk_setBlk_ne (s : State) {b b' : Nat} (x : Blk) (h : b' ≠ b) : (s.setBlk b x).blk b' = s.blk b' := by
  simp [State.blk, State.setBlk, SMap.get_set_ne _ _ _ h]

@[simp] theorem blk_modBlk_same (s : State) (b : Nat) (g : Blk → Blk) : (s.modBlk b g).blk b = g (s.blk b) := by
  simp [State.modBlk]

theorem blk_modBlk_ne (s : State) {b b' : Nat} (g : Blk → Blk) (h : b' ≠ b) : (s.modBlk b g).blk b' = s.blk b' :=
  blk_setBlk_ne s _ h

@[simp] theorem bst_modBst_same (s : State) (b : Nat) (g : BlkState → BlkState) : (s.modBst b g).bst b = g (s.bst b) := by
  simp [State.modBst, State.bst]

theorem bst_modBst_ne (s : State) {b b' : Nat} (g : BlkState → BlkState) (h : b' ≠ b) : (s.modBst b g).bst b' = s.bst b' := by
  simp [State.modBst, State.bst, blk_modBlk_ne s _ h]

@[simp] theorem cset_modSet_same (s : State) (b : Nat) (f : Bool) (g : CoreSet → CoreSet) :
    (s.modSet b f g).cset b f = g (s.cset b f) := by
  cases f <;> simp [State.modSet, State.cset, BlkState.set, BlkState.modSet]

/-- The other set of the block, and every set of another block, stay. -/
theorem cset_modSet_ne (s : State) {b b' : Nat} {f f' : Bool} (g : CoreSet → CoreSet) (h : b' ≠ b ∨ f' ≠ f) :
    (s.modSet b f g).cset b' f' = s.cset b' f' := by
  by_cases hb : b' = b
  · subst hb
    have hf : f' ≠ f := h.resolve_left (fun hn => hn rfl)
    cases f <;> cases f' <;> simp_all [State.modSet, State.cset, BlkState.set, BlkState.modSet]
  · simp [State.modSet, State.cset, bst_modBst_ne s _ hb]

/-- s0 reads 0 (R163). -/
@[simp] theorem rd_zero (x : CoreSet) : x.rd 0 = 0 := rfl

/-- Reading a register after a write to it: a write to s0 is discarded. -/
theorem rd_wr_same (x : CoreSet) (n : Nat) (v : Word) : (x.wr n v).rd n = if n = 0 then 0 else v := by
  by_cases h : n = 0
  · subst h; rfl
  · simp [CoreSet.rd, CoreSet.wr, h]

/-- A write leaves every other register. -/
theorem rd_wr_ne (x : CoreSet) {n m : Nat} (v : Word) (h : m ≠ n) : (x.wr n v).rd m = x.rd m := by
  by_cases hn : n = 0
  · simp [CoreSet.wr, hn]
  · simp only [CoreSet.wr, if_neg hn, CoreSet.rd]
    split
    · rfl
    · rw [SMap.get_set_ne _ _ _ h]

theorem sreg_setSreg_same (s : State) (b : Nat) (f : Bool) (n : Nat) (v : Word) :
    (s.setSreg b f n v).sreg b f n = if n = 0 then 0 else v := by
  simp [State.sreg, State.setSreg, rd_wr_same]

theorem sreg_setSreg_ne (s : State) (b : Nat) (f : Bool) {n m : Nat} (v : Word) (h : m ≠ n) :
    (s.setSreg b f n v).sreg b f m = s.sreg b f m := by
  simp [State.sreg, State.setSreg, rd_wr_ne _ _ h]

@[simp] theorem ctxOf_setCtx_same (s : State) (c : Nat) (x : Ctx) : (s.setCtx c x).ctxOf c = x := by
  simp [State.ctxOf, State.setCtx]

theorem ctxOf_setCtx_ne (s : State) {c c' : Nat} (x : Ctx) (h : c' ≠ c) : (s.setCtx c x).ctxOf c' = s.ctxOf c' := by
  simp [State.ctxOf, State.setCtx, SMap.get_set_ne _ _ _ h]

@[simp] theorem ctxOf_modCtx_same (s : State) (c : Nat) (g : Ctx → Ctx) : (s.modCtx c g).ctxOf c = g (s.ctxOf c) := by
  simp [State.modCtx]

@[simp] theorem queueOf_setQueue_same (s : State) (q : Nat) (x : Queue) : (s.setQueue q x).queueOf q = x := by
  simp [State.queueOf, State.setQueue]

theorem queueOf_setQueue_ne (s : State) {q q' : Nat} (x : Queue) (h : q' ≠ q) : (s.setQueue q x).queueOf q' = s.queueOf q' := by
  simp [State.queueOf, State.setQueue, SMap.get_set_ne _ _ _ h]

@[simp] theorem queueOf_modQueue_same (s : State) (q : Nat) (g : Queue → Queue) :
    (s.modQueue q g).queueOf q = g (s.queueOf q) := by
  simp [State.modQueue]

@[simp] theorem link_modLink_same (s : State) (k : Nat) (g : Link → Link) : (s.modLink k g).link k = g (s.link k) := by
  simp [State.link, State.modLink]

@[simp] theorem coil_modCoil_same (s : State) (e : Nat) (g : Coil → Coil) : (s.modCoil e g).coil e = g (s.coil e) := by
  simp [State.coil, State.modCoil]

@[simp] theorem partOf_modPart_same (s : State) (p : Nat) (g : Part → Part) : (s.modPart p g).partOf p = g (s.partOf p) := by
  simp [State.partOf, State.modPart]

/-! ### Registers and block state do not meet -/

@[simp] theorem reg_modBlk (s : State) (b : Nat) (g : Blk → Blk) (o : Nat) : (s.modBlk b g).reg o = s.reg o := rfl
@[simp] theorem reg_modBst (s : State) (b : Nat) (g : BlkState → BlkState) (o : Nat) : (s.modBst b g).reg o = s.reg o := rfl
@[simp] theorem reg_modSet (s : State) (b : Nat) (f : Bool) (g : CoreSet → CoreSet) (o : Nat) : (s.modSet b f g).reg o = s.reg o := rfl
@[simp] theorem reg_modCtx (s : State) (c : Nat) (g : Ctx → Ctx) (o : Nat) : (s.modCtx c g).reg o = s.reg o := rfl
@[simp] theorem reg_modQueue (s : State) (q : Nat) (g : Queue → Queue) (o : Nat) : (s.modQueue q g).reg o = s.reg o := rfl
@[simp] theorem fld_modBlk (s : State) (b : Nat) (g : Blk → Blk) (f : Fld) : (s.modBlk b g).fld f = s.fld f := rfl
@[simp] theorem fld_modBst (s : State) (b : Nat) (g : BlkState → BlkState) (f : Fld) : (s.modBst b g).fld f = s.fld f := rfl
@[simp] theorem fld_modSet (s : State) (b : Nat) (f : Bool) (g : CoreSet → CoreSet) (x : Fld) : (s.modSet b f g).fld x = s.fld x := rfl
@[simp] theorem flag_modBlk (s : State) (b : Nat) (g : Blk → Blk) (f : Fld) : (s.modBlk b g).flag f = s.flag f := rfl
@[simp] theorem flag_modBst (s : State) (b : Nat) (g : BlkState → BlkState) (f : Fld) : (s.modBst b g).flag f = s.flag f := rfl
@[simp] theorem flag_modSet (s : State) (b : Nat) (f : Bool) (g : CoreSet → CoreSet) (x : Fld) : (s.modSet b f g).flag x = s.flag x := rfl
@[simp] theorem blk_setReg (s : State) (o : Nat) (v : Word) (b : Nat) : (s.setReg o v).blk b = s.blk b := rfl
@[simp] theorem blk_setFld (s : State) (f : Fld) (v b : Nat) : (s.setFld f v).blk b = s.blk b := rfl
@[simp] theorem blk_setFlag (s : State) (f : Fld) (x : Bool) (b : Nat) : (s.setFlag f x).blk b = s.blk b := rfl
@[simp] theorem blk_count (s : State) (f : Fld) (k b : Nat) : (s.count f k).blk b = s.blk b := rfl
@[simp] theorem bst_setReg (s : State) (o : Nat) (v : Word) (b : Nat) : (s.setReg o v).bst b = s.bst b := rfl
@[simp] theorem bst_setFld (s : State) (f : Fld) (v b : Nat) : (s.setFld f v).bst b = s.bst b := rfl
@[simp] theorem bst_count (s : State) (f : Fld) (k b : Nat) : (s.count f k).bst b = s.bst b := rfl
@[simp] theorem cset_count (s : State) (f : Fld) (k b : Nat) (x : Bool) : (s.count f k).cset b x = s.cset b x := rfl

/-- What a change of a core set leaves of its block. -/
@[simp] theorem blk_modSet_same (s : State) (b : Nat) (f : Bool) (g : CoreSet → CoreSet) :
    (s.modSet b f g).blk b = { s.blk b with st := (s.bst b).modSet f g } := by
  simp [State.modSet, State.modBst, State.bst]

theorem blk_modSet_ne (s : State) {b b' : Nat} (f : Bool) (g : CoreSet → CoreSet) (h : b' ≠ b) :
    (s.modSet b f g).blk b' = s.blk b' := blk_modBlk_ne s _ h

@[simp] theorem bst_modSet_same (s : State) (b : Nat) (f : Bool) (g : CoreSet → CoreSet) :
    (s.modSet b f g).bst b = (s.bst b).modSet f g := by
  simp [State.modSet]

/-! ### HBM bytes -/

/-- The byte read back after a list of bytes is written. -/
theorem get_putBytes (l : List Byte) : ∀ (m : SMap Byte) (a k : Nat),
    SMap.get (fun _ => (0 : Byte)) (putBytes m a l) k =
      if a ≤ k ∧ k < a + l.length then l.getD (k - a) 0 else SMap.get (fun _ => (0 : Byte)) m k := by
  induction l with
  | nil => intro m a k; rw [if_neg (by simp)]; rfl
  | cons x xs ih =>
    intro m a k
    rw [putBytes, ih]
    by_cases h1 : a + 1 ≤ k ∧ k < a + 1 + xs.length
    · rw [if_pos h1, if_pos (by simp; omega), show k - a = (k - (a + 1)) + 1 by omega]
      rfl
    · rw [if_neg h1, SMap.get_set]
      by_cases h2 : k = a
      · subst h2; simp
      · rw [if_neg h2, if_neg (by simp; omega)]

/-- Writing bytes keeps a byte table in canonical form. -/
theorem wf_putBytes (l : List Byte) : ∀ (m : SMap Byte) (a : Nat),
    SMap.wf (fun _ => (0 : Byte)) m = true → SMap.wf (fun _ => (0 : Byte)) (putBytes m a l) = true := by
  induction l with
  | nil => intro m a h; exact h
  | cons x xs ih => intro m a h; exact ih _ _ (SMap.wf_set _ _ _ _ h)

/-- `forEach` keeps what every step of it keeps. -/
theorem forEach_keeps {α : Type} (P : State → Prop) (g : State → α → State) (hg : ∀ s a, P s → P (g s a)) :
    ∀ (l : List α) (s : State), P s → P (s.forEach l g) := by
  intro l
  induction l with
  | nil => intro s h; exact h
  | cons a l ih => intro s h; exact ih _ (hg _ _ h)

/-- A value of the state that every step of a `forEach` keeps. -/
theorem forEach_same {α β : Type} (v : State → β) (g : State → α → State) (hg : ∀ s a, v (g s a) = v s) :
    ∀ (l : List α) (s : State), v (s.forEach l g) = v s := by
  intro l
  induction l with
  | nil => intro s; rfl
  | cons a l ih => intro s; exact (ih (g s a)).trans (hg s a)

@[simp] theorem setMaskBit_hbm (s : State) (o i : Nat) (b : Bool) : (s.setMaskBit o i b).hbm = s.hbm := rfl

/-- Marking a list of pages dirty changes no byte and no save's range. -/
theorem markPages_hbm (l : List Nat) (s : State) :
    let t := s.forEach l fun s p =>
      if p * 2 ^ 21 < usableEnd then s.setMaskBit (HBM_DIRTY (s.fld HBM_DIRTY_CTRL_ACTIVE) (p / 64)) (p % 64) true else s
    t.hbm = s.hbm ∧ t.saveAreas = s.saveAreas := by
  induction l generalizing s with
  | nil => exact ⟨rfl, rfl⟩
  | cons p l ih =>
    unfold State.forEach at ih ⊢
    simp only [List.foldl_cons] at ih ⊢
    rw [(ih _).1, (ih _).2]
    split <;> exact ⟨rfl, rfl⟩

/-- Marking pages dirty changes no byte. -/
@[simp] theorem markDirty_hbm (s : State) (a n : Nat) : (s.markDirty a n).hbm = s.hbm := by
  unfold State.markDirty
  by_cases h : n = 0
  · rw [if_pos h]
  · rw [if_neg h]
    exact (markPages_hbm _ s).1

/-- What marking pages dirty leaves of the saves' ranges. -/
@[simp] theorem markDirty_saveAreas (s : State) (a n : Nat) : (s.markDirty a n).saveAreas = s.saveAreas := by
  unfold State.markDirty
  by_cases h : n = 0
  · rw [if_pos h]
  · rw [if_neg h]
    exact (markPages_hbm _ s).2

/-- The save that gives a byte is the same after a range is cut, outside the range, and there is none in it. -/
theorem find_cutAreas (l : List SaveArea) (lo hi k : Nat) :
    ((cutAreas l lo hi).find? (·.has k)).map (fun r => (r.id, r.base)) =
      if lo ≤ k ∧ k < hi then none else (l.find? (·.has k)).map (fun r => (r.id, r.base)) := by
  induction l with
  | nil => simp [cutAreas]
  | cons r l ih =>
    unfold cutAreas at ih ⊢
    rw [List.flatMap_cons, List.find?_append]
    by_cases hk : lo ≤ k ∧ k < hi
    · have none_ : ([{ r with hi := Nat.min r.hi lo }, { r with lo := Nat.max r.lo hi }].filter fun x : SaveArea =>
          decide (x.lo < x.hi)).find? (·.has k) = none := by
        rw [List.find?_eq_none]
        intro x hx
        have hx := (List.mem_filter.1 hx).1
        simp only [List.mem_cons, List.not_mem_nil, or_false] at hx
        rcases hx with rfl | rfl <;> simp only [SaveArea.has, Bool.and_eq_true, decide_eq_true_eq, Nat.min_def, Nat.max_def] <;>
          split <;> omega
      rw [none_, Option.none_or, ih, if_pos hk, if_pos hk]
    · rw [if_neg hk] at ih ⊢
      by_cases hr : r.has k = true
      · have some_ : (([{ r with hi := Nat.min r.hi lo }, { r with lo := Nat.max r.lo hi }].filter fun x : SaveArea =>
            decide (x.lo < x.hi)).find? (·.has k)).map (fun r => (r.id, r.base)) = some (r.id, r.base) := by
          simp only [SaveArea.has, Bool.and_eq_true, decide_eq_true_eq] at hr
          rcases Nat.lt_or_ge k lo with h | h
          · have h2 : k < Nat.min r.hi lo := Nat.lt_min.2 ⟨hr.2, h⟩
            have h1 : r.lo < Nat.min r.hi lo := Nat.lt_of_le_of_lt hr.1 h2
            simp [h1, h2, SaveArea.has, hr.1]
          · have h0 : hi ≤ k := by omega
            have hm : Nat.max r.lo hi ≤ k := Nat.max_le.2 ⟨hr.1, h0⟩
            have h1 : Nat.max r.lo hi < r.hi := Nat.lt_of_le_of_lt hm hr.2
            have h3 : ¬ k < Nat.min r.hi lo := fun h' => absurd (Nat.lt_of_lt_of_le h' (Nat.min_le_right _ _)) (by omega)
            by_cases h4 : r.lo < Nat.min r.hi lo
            · simp [h4, h3, h1, hm, SaveArea.has, hr.2]
            · simp [h4, h1, hm, SaveArea.has, hr.2]
        rcases hf : ([{ r with hi := Nat.min r.hi lo }, { r with lo := Nat.max r.lo hi }].filter fun x : SaveArea =>
            decide (x.lo < x.hi)).find? (·.has k) with _ | x
        · rw [hf] at some_; cases some_
        · rw [hf] at some_
          rw [hf, Option.some_or, some_, List.find?_cons_of_pos (by exact hr)]
          rfl
      · have none_ : ([{ r with hi := Nat.min r.hi lo }, { r with lo := Nat.max r.lo hi }].filter fun x : SaveArea =>
            decide (x.lo < x.hi)).find? (·.has k) = none := by
          rw [List.find?_eq_none]
          intro x hx hxk
          apply hr
          have hx := (List.mem_filter.1 hx).1
          simp only [SaveArea.has, Bool.and_eq_true, decide_eq_true_eq] at hxk ⊢
          simp only [List.mem_cons, List.not_mem_nil, or_false] at hx
          rcases hx with rfl | rfl
          · exact ⟨hxk.1, Nat.lt_of_lt_of_le hxk.2 (Nat.min_le_left _ _)⟩
          · exact ⟨Nat.le_trans (Nat.le_max_left _ _) hxk.1, hxk.2⟩
        rw [none_, Option.none_or, ih, List.find?_cons_of_neg (by exact hr)]

/-- The byte that HBM holds, from its stored bytes and the saves' ranges. -/
theorem hbmByte_cut (s t : State) (lo hi k : Nat) (ha : t.saveAreas = cutAreas s.saveAreas lo hi)
    (hin : lo ≤ k ∧ k < hi → t.hbmByte k = SMap.get (fun _ => 0) t.hbm k)
    (hout : ¬ (lo ≤ k ∧ k < hi) → SMap.get (fun _ => 0) t.hbm k = SMap.get (fun _ => 0) s.hbm k) :
    t.hbmByte k = if lo ≤ k ∧ k < hi then SMap.get (fun _ => 0) t.hbm k else s.hbmByte k := by
  split
  · next h => exact hin h
  · next h =>
    have e := find_cutAreas s.saveAreas lo hi k
    rw [if_neg h] at e
    unfold State.hbmByte
    rw [ha]
    rcases h1 : (cutAreas s.saveAreas lo hi).find? (·.has k) with _ | x <;>
      rcases h2 : s.saveAreas.find? (·.has k) with _ | y <;> rw [h1, h2] at e
    · rw [h1, h2]; exact hout h
    · cases e
    · cases e
    · simp only [Option.map_some, Option.some.injEq, Prod.mk.injEq] at e
      rw [h1, h2]; simp only [e.1, e.2]

/-- A byte of HBM after a commit. -/
theorem hbmByte_commitHbm (s : State) (a : Nat) (l : List Byte) (d : Bool) (k : Nat) :
    (s.commitHbm a l d).hbmByte k = if a ≤ k ∧ k < a + l.length then l.getD (k - a) 0 else s.hbmByte k := by
  have hm : (s.commitHbm a l d).hbm = putBytes s.hbm a l := by cases d <;> simp [State.commitHbm]
  have ha : (s.commitHbm a l d).saveAreas = cutAreas s.saveAreas a (a + l.length) := by cases d <;> simp [State.commitHbm]
  have hg := get_putBytes l s.hbm a k
  rw [hbmByte_cut s _ a (a + l.length) k ha (fun h => ?_) (fun h => by rw [hm, hg, if_neg h]), hm, hg]
  · split <;> rfl
  · have e := find_cutAreas s.saveAreas a (a + l.length) k
    rw [if_pos h, Option.map_eq_none_iff] at e
    unfold State.hbmByte
    rw [ha, e]

/-- A commit keeps HBM in canonical form. -/
theorem hbmOk_commitHbm (s : State) (a : Nat) (l : List Byte) (d : Bool) (h : SMap.wf (fun _ => (0 : Byte)) s.hbm = true) :
    SMap.wf (fun _ => (0 : Byte)) (s.commitHbm a l d).hbm = true := by
  unfold State.commitHbm
  cases d
  · exact wf_putBytes l _ _ h
  · simp only [if_true, markDirty_hbm]
    exact wf_putBytes l _ _ h

/-- Poisoning changes no byte. -/
@[simp] theorem poisonAt_hbm (s : State) (a : Nat) (off : List Nat) : (s.poisonAt a off).hbm = s.hbm :=
  forEach_same (fun s => s.hbm) (fun s i => s.setPoison (a + i) true) (fun _ _ => rfl) off s

/-! ### What leaves HBM alone -/

/-- Every step of a `forEach` keeps HBM in canonical form. -/
theorem hbmOk_forEach {α : Type} (g : State → α → State)
    (hg : ∀ s a, SMap.wf (fun _ => (0 : Byte)) s.hbm = true → SMap.wf (fun _ => (0 : Byte)) (g s a).hbm = true) :
    ∀ (l : List α) (s : State), SMap.wf (fun _ => (0 : Byte)) s.hbm = true → SMap.wf (fun _ => (0 : Byte)) (s.forEach l g).hbm = true := by
  intro l
  induction l with
  | nil => intro s h; exact h
  | cons a l ih => intro s h; exact ih (g s a) (hg s a h)

@[simp] theorem josilRequest_hbm (s : State) (opc addr len : Nat) (tag : Option Nat) (poison : Bool) (data : List Byte) (who : JWho) :
    (s.josilRequest opc addr len tag poison data who).hbm = s.hbm := by
  unfold State.josilRequest State.sendJosil State.modJosil; rfl

@[simp] theorem setLine_hbm (s : State) (n : Nat) (x : Line) : (s.setLine n x).hbm = s.hbm := rfl

@[simp] theorem evictLine_hbm (s : State) (n : Nat) : (s.evictLine n).hbm = s.hbm := by
  unfold State.evictLine
  dsimp only
  split
  · rfl
  · rw [josilRequest_hbm, setLine_hbm]
  · rw [josilRequest_hbm, setLine_hbm]

/-- The lid's requests change no byte of HBM. -/
theorem lidGo_hbm : ∀ (fuel : Nat) (s : State), (s.lidGo fuel).hbm = s.hbm := by
  intro fuel
  induction fuel with
  | zero => intro s; rfl
  | succ n ih =>
    intro s
    unfold State.lidGo
    split
    · rfl
    · split
      · rfl
      · rw [ih, josilRequest_hbm]
        exact forEach_same (fun s => s.hbm) State.evictLine evictLine_hbm _ _

theorem setFld_hbm (s : State) (f : Fld) (n : Nat) : (s.setFld f n).hbm = s.hbm := by
  unfold State.setFld; exact (State.setReg_frame (s := s) _ _).2.2.1

theorem count_hbm (s : State) (f : Fld) (n : Nat) : (s.count f n).hbm = s.hbm := by unfold State.count; exact setFld_hbm _ _ _

theorem lastCode_hbm (s : State) (f : Fld) (n : Nat) : (s.lastCode f n).hbm = s.hbm := by unfold State.lastCode; exact setFld_hbm _ _ _

theorem setPtb_hbm (s : State) (f : Fld) (n : Nat) : (s.setPtb f n).hbm = s.hbm := by
  unfold State.setPtb; rw [apply_ite State.hbm, setFld_hbm, ite_self]

theorem sendMail_hbm (s : State) (k : Nat) (l : List Byte) : (s.sendMail k l).hbm = s.hbm := by
  unfold State.sendMail State.modJosil State.modLid; rfl

theorem lidWrite_hbm (s : State) (a : Nat) (l : List Byte) : (s.lidWrite a l).hbm = s.hbm := by
  unfold State.lidWrite State.lidRequest; rw [lidGo_hbm]; unfold State.modJosil; rfl

/-- The journal changes no byte of HBM that the tables list. -/
@[simp] theorem journal_hbm (s : State) (a : Auth) (p : Path) (kind off : Nat) (old new : Word) :
    (s.journal a p kind off old new).hbm = s.hbm := by
  have e3 : ∀ (t : State) (o : Nat) (v : Word), (t.setReg o v).hbm = t.hbm := fun t o v => (State.setReg_frame (s := t) o v).2.2.1
  have e4 : ∀ (t : State) (g : Lid → Lid), (t.modLid g).hbm = t.hbm := fun _ _ => by unfold State.modLid; rfl
  unfold State.journal
  simp only [apply_ite State.hbm, sendMail_hbm, lidWrite_hbm, e3, e4, ite_self]

@[simp] theorem inject_hbm (s : State) : s.inject.hbm = s.hbm := by
  simp only [State.inject, State.journalEvent, journal_hbm, lastCode_hbm, count_hbm, setPtb_hbm]

/-- A check changes no byte of HBM. -/
@[simp] theorem check_hbm (s : State) (site : Site) (unit : Nat) (offers : Nat → Nat → Bool) (anyCol : Nat → Nat) (atLimit : Bool) (part : Nat) :
    (s.check site unit offers anyCol atLimit part).2.hbm = s.hbm := by
  unfold State.check
  dsimp only
  split <;> simp only [apply_ite State.hbm, inject_hbm, ite_self]

/-- Finding the units that a write loses changes no byte. -/
theorem writeLosses_hbm (s : State) (a n : Nat) : (s.writeLosses a n).2.hbm = s.hbm := by
  unfold State.writeLosses
  split
  · rfl
  · have key : ∀ (l : List Nat) (r : List Nat × State), (l.foldl (fun r u =>
        match r.2.checkUnit .hbmWrite (s.frameOf (u * 256)).1 false with
        | (some _, s) => (r.1 ++ [u], s)
        | (none, s) => (r.1, s)) r).2.hbm = r.2.hbm := by
      intro l
      induction l with
      | nil => intro r; rfl
      | cons u l ih =>
        intro r
        rw [List.foldl_cons, ih]
        have hc : (r.2.checkUnit .hbmWrite (s.frameOf (u * 256)).1 false).2.hbm = r.2.hbm := check_hbm _ _ _ _ _ _ _
        rcases h : r.2.checkUnit .hbmWrite (s.frameOf (u * 256)).1 false with ⟨_ | _, t⟩
        · rw [h] at hc; exact hc
        · rw [h] at hc; exact hc
    exact key _ ([], s)

/-- A checked commit keeps HBM in canonical form. -/
theorem hbmOk_commitChecked (s : State) (a : Nat) (l : List Byte) (off : List Nat) (d : Bool)
    (h : SMap.wf (fun _ => (0 : Byte)) s.hbm = true) : SMap.wf (fun _ => (0 : Byte)) (s.commitChecked a l off d).2.hbm = true := by
  have hw : SMap.wf (fun _ => (0 : Byte)) (s.writeLosses a l.length).2.hbm = true := by rw [writeLosses_hbm]; exact h
  unfold State.commitChecked
  dsimp only
  split
  · rw [poisonAt_hbm]; exact hbmOk_commitHbm _ _ _ _ hw
  · refine hbmOk_forEach _ (fun s u hs => ?_) _ _ hw
    split
    · rw [State.loseWrite, lastCode_hbm, State.loseUnit, count_hbm]; exact hs
    · rw [poisonAt_hbm]; exact hbmOk_commitHbm _ _ _ _ hs

/-- A write by any writer keeps HBM in canonical form. -/
theorem hbmOk_writeHbmFull (s : State) (a : Nat) (l : List Byte) (off : List Nat) (h : Option JHdr)
    (hw : SMap.wf (fun _ => (0 : Byte)) s.hbm = true) : SMap.wf (fun _ => (0 : Byte)) (s.writeHbmFull a l off h).hbm = true := by
  unfold State.writeHbmFull
  split
  · exact hw
  · cases h
    · exact hbmOk_commitChecked s a l off true hw
    · exact hbmOk_commitChecked s a l off true hw

/-- The scrub engine keeps HBM in canonical form. -/
theorem hbmOk_scrubHbm (s : State) (a n : Nat) (h : SMap.wf (fun _ => (0 : Byte)) s.hbm = true) :
    SMap.wf (fun _ => (0 : Byte)) (s.scrubHbm a n).hbm = true := SMap.wf_filter _ _ _ h

/-! ### Issue -/

/-- What an instruction at issue can come to: nothing where the set does not issue; else its clk counts, and its fetch waits or faults, a
register read fails its check, or its body acts. -/
theorem issue_cases (s : State) (b : Nat) (f : Bool) (w : Word) (body : State → Act) :
    let s1 := s.modSet b f fun x => { x with cycles := x.cycles + x.issueClk }
    (s.canIssue b f = false ∧ s.issue b f w body = s) ∨
    (s.canIssue b f = true ∧ s1.fetchWaits b f = true ∧
      s.issue b f w body = s1.modSet b f fun x => { x with wait := if x.wait = .none then .stall else x.wait }) ∨
    (s.canIssue b f = true ∧ s1.fetchWaits b f = false ∧ ∃ e, s1.fetchFault b f = some e ∧
      s.issue b f w body = (s1.fetchRead b f).coreFault b f kindIssue e (s1.cset b f).pc.toNat 0) ∨
    (s.canIssue b f = true ∧ s1.fetchWaits b f = false ∧ s1.fetchFault b f = none ∧ ∃ h s2, ((s1.fetchRead b f).refetch b).regCheck b w = (some h, s2) ∧
      s.issue b f w body = s2.coreParity b f h.injected) ∨
    (s.canIssue b f = true ∧ s1.fetchWaits b f = false ∧ s1.fetchFault b f = none ∧ ∃ s2, ((s1.fetchRead b f).refetch b).regCheck b w = (none, s2) ∧
      s.issue b f w body = s2.settleAct b f w (body s2)) := by
  intro s1
  by_cases hc : s.canIssue b f = true
  · right
    have e0 : s.issue b f w body = if s1.fetchWaits b f then
          s1.modSet b f fun x => { x with wait := if x.wait = .none then .stall else x.wait }
        else match s1.fetchFault b f with
        | some code => (s1.fetchRead b f).coreFault b f kindIssue code (s1.cset b f).pc.toNat 0
        | none =>
          match ((s1.fetchRead b f).refetch b).regCheck b w with
          | (some h, s) => s.coreParity b f h.injected
          | (none, s) => s.settleAct b f w (body s) := by
      unfold State.issue
      exact if_pos hc
    rcases hw : s1.fetchWaits b f with _ | _
    rotate_left
    · exact .inl ⟨hc, rfl, by rw [e0, if_pos hw]⟩
    rw [hw] at e0
    replace e0 := e0.trans (if_neg (by decide))
    right
    cases hf : s1.fetchFault b f with
    | some e => exact .inl ⟨hc, rfl, e, rfl, by rw [e0, hf]⟩
    | none =>
      right
      rcases hr : ((s1.fetchRead b f).refetch b).regCheck b w with ⟨_ | h, s2⟩
      · exact .inr ⟨hc, rfl, rfl, s2, rfl, by rw [e0, hf, hr]⟩
      · exact .inl ⟨hc, rfl, rfl, h, s2, rfl, by rw [e0, hf, hr]⟩
  · left
    refine ⟨by simpa using hc, ?_⟩
    unfold State.issue
    rw [if_neg hc]

/-- A write on its way can do nothing, be refused, or act. -/
theorem arrives_cases (s : State) (a : Auth) (p : Path) (off : Nat) (v : Word) (act : State → State) :
    s.arrives a p off v act = s ∨ s.arrives a p off v act = s.refuseAuth a p off (s.reg off) v ∨ s.arrives a p off v act = act s := by
  unfold State.arrives
  repeat' split
  all_goals first
    | exact .inl rfl
    | exact .inr (.inl rfl)
    | exact .inr (.inr rfl)

/-- An event on a device whose units run does what it does; on any other nothing (log entry 8). -/
theorem whenOn_on (s : State) (g : State → State) (h : s.powered = true) : s.whenOn g = g s := by simp [State.whenOn, h]

theorem whenOn_off (s : State) (g : State → State) (h : s.powered = false) : s.whenOn g = s := by simp [State.whenOn, h]

end Sys2Proof.Machine
end

