-- ==== Sys2Proof/Laws/Issue.lean ====
section
/-!
SUPPORT. What an instruction does at issue when nothing disturbs it: checks pass, and its body acts on the state with its clk counted.
-/

namespace Sys2Proof.Machine

/-- On a quiet device no check fails. -/
theorem check_quiet (s : State) (h : s.quiet) (site : Site) (u : Nat) (o : Nat → Nat → Bool) (c : Nat → Nat) (l : Bool) :
    s.check site u o c l = (none, s) := by
  have hi : ∀ x y, s.injActive x y = false := by intro x y; simp [State.injActive, h.2]
  simp [State.check, h.1, hi, takeFirst]

theorem checkUnit_quiet (s : State) (h : s.quiet) (site : Site) (u : Nat) (l : Bool) : s.checkUnit site u l = (none, s) :=
  check_quiet s h site u _ _ l

theorem regReads_quiet (s : State) (h : s.quiet) (b n : Nat) : s.regReads b n = (none, s) := by
  induction n with
  | zero => rfl
  | succ n ih => simp [State.regReads, checkUnit_quiet s h, ih, Hit.join]

theorem regCheck_quiet (s : State) (h : s.quiet) (b : Nat) (w : Word) : s.regCheck b w = (none, s) := by
  simp [State.regCheck, regReads_quiet s h, checkUnit_quiet s h, Hit.join]

theorem refetch_quiet (s : State) (h : s.quiet) (b : Nat) : s.refetch b = s := by
  unfold State.refetch
  rw [checkUnit_quiet s h]

/-- A `forEach` whose steps do nothing to a state does nothing to it. -/
theorem forEach_id {α : Type} (g : State → α → State) (s : State) (hg : ∀ a, g s a = s) : ∀ l : List α, s.forEach l g = s := by
  intro l
  induction l with
  | nil => rfl
  | cons a l ih => exact (congrArg (fun t : State => t.forEach l g) (hg a)).trans ih

/-- On a quiet device the first read of an access finds nothing. -/
theorem checkHbmRead_quiet (s : State) (h : s.quiet) (a n : Nat) : s.checkHbmRead a n = s := by
  refine forEach_id _ s (fun u => ?_) _
  dsimp only
  rw [checkUnit_quiet s h]
  exact ite_self _

theorem walkReads_quiet (s : State) (h : s.quiet) (c va : Nat) : s.walkReads c va = s := by
  unfold State.walkReads
  rw [forEach_id _ s (fun ea => checkHbmRead_quiet s h ea 8) _]
  exact ite_self _

theorem fetchRead_quiet (s : State) (h : s.quiet) (b : Nat) (f : Bool) : s.fetchRead b f = s := by
  unfold State.fetchRead
  split
  · rfl
  · dsimp only
    split
    · rfl
    · split
      · rw [walkReads_quiet s h, checkHbmRead_quiet s h]
      · exact walkReads_quiet s h _ _

/-- Reading an entry reads memory alone. -/
@[simp] theorem readPte_modSet (s : State) (b : Nat) (f : Bool) (g : CoreSet → CoreSet) (tag va l table : Nat) :
    (s.modSet b f g).readPte tag va l table = s.readPte tag va l table := rfl

/-- The walk reads memory alone. -/
theorem walkFrom_modSet (s : State) (b : Nat) (f : Bool) (g : CoreSet → CoreSet) (tag va : Nat) :
    ∀ l table, (s.modSet b f g).walkFrom tag va l table = s.walkFrom tag va l table := by
  intro l
  induction l with
  | zero => intro table; rw [State.walkFrom, State.walkFrom, readPte_modSet]
  | succ l ih => intro table; simp only [State.walkFrom, readPte_modSet, ih]

/-- Translation does not depend on a core's registers. -/
theorem translate_modSet (s : State) (b : Nat) (f : Bool) (g : CoreSet → CoreSet) (c va : Nat) (acc : Access) :
    (s.modSet b f g).translate c va acc = s.translate c va acc := by
  have hl : (s.modSet b f g).lookup c va = s.lookup c va := by
    unfold State.lookup
    simp only [walkFrom_modSet]
    rfl
  unfold State.translate
  rw [hl]
  rfl

theorem fetchWaits_clocked (s : State) (b : Nat) (f : Bool) : (s.clocked b f).fetchWaits b f = s.fetchWaits b f := by
  unfold State.fetchWaits State.clocked
  simp only [blk_modSet_same, cset_modSet_same, translate_modSet]
  rfl

theorem fetchFault_clocked (s : State) (b : Nat) (f : Bool) : (s.clocked b f).fetchFault b f = s.fetchFault b f := by
  unfold State.fetchFault State.clocked
  simp only [blk_modSet_same, cset_modSet_same, translate_modSet]
  rfl

@[simp] theorem quiet_modSet (s : State) (b : Nat) (f : Bool) (g : CoreSet → CoreSet) : (s.modSet b f g).quiet ↔ s.quiet := Iff.rfl
@[simp] theorem quiet_modBst (s : State) (b : Nat) (g : BlkState → BlkState) : (s.modBst b g).quiet ↔ s.quiet := Iff.rfl
@[simp] theorem quiet_modBlk (s : State) (b : Nat) (g : Blk → Blk) : (s.modBlk b g).quiet ↔ s.quiet := Iff.rfl
@[simp] theorem quiet_clocked (s : State) (b : Nat) (f : Bool) : (s.clocked b f).quiet ↔ s.quiet := Iff.rfl

/-- An instruction that issues does its body, on the state with its clk counted. -/
theorem issue_issues (s : State) (b : Nat) (f : Bool) (w : Word) (body : State → Act) (h : s.issues b f) :
    s.issue b f w body = (s.clocked b f).settleAct b f w (body (s.clocked b f)) := by
  have h1 : (s.clocked b f).fetchFault b f = none := by rw [fetchFault_clocked]; exact h.2.1.2
  have h3 : (s.clocked b f).fetchWaits b f = false := by rw [fetchWaits_clocked]; exact h.2.1.1
  have hq := (quiet_clocked s b f).2 h.2.2.1
  have h2 : (((s.clocked b f).fetchRead b f).refetch b).regCheck b w = (none, s.clocked b f) := by
    rw [fetchRead_quiet _ hq, refetch_quiet _ hq, regCheck_quiet _ hq]
  rcases issue_cases s b f w body with ⟨hc, _⟩ | ⟨_, hw, _⟩ | ⟨_, _, e, he, _⟩ | ⟨_, _, _, x, y, hx, _⟩ | ⟨_, _, _, s2, hs, he⟩
  · rw [h.1] at hc; cases hc
  · change (s.clocked b f).fetchWaits b f = true at hw
    rw [h3] at hw; cases hw
  · change (s.clocked b f).fetchFault b f = some e at he
    rw [h1] at he; cases he
  · change (((s.clocked b f).fetchRead b f).refetch b).regCheck b w = (some x, y) at hx
    rw [h2] at hx; cases hx
  · change (((s.clocked b f).fetchRead b f).refetch b).regCheck b w = (none, s2) at hs
    rw [h2] at hs
    cases hs
    exact he

/-! ### What the clk count leaves -/

@[simp] theorem sreg_clocked (s : State) (b : Nat) (f : Bool) (n : Nat) : (s.clocked b f).sreg b f n = s.sreg b f n := by
  simp [State.sreg, State.clocked]; rfl
@[simp] theorem pc_clocked (s : State) (b : Nat) (f : Bool) : ((s.clocked b f).cset b f).pc = (s.cset b f).pc := by
  simp [State.clocked]
@[simp] theorem tk_clocked (s : State) (b : Nat) (f : Bool) : ((s.clocked b f).cset b f).tk = (s.cset b f).tk := by
  simp [State.clocked]
@[simp] theorem user_clocked (s : State) (b : Nat) (f : Bool) : ((s.clocked b f).cset b f).user = (s.cset b f).user := by
  simp [State.clocked]
@[simp] theorem ticket_clocked (s : State) (b : Nat) (f : Bool) (t : Nat) :
    ((s.clocked b f).cset b f).ticket t = (s.cset b f).ticket t := by
  simp [CoreSet.ticket]
@[simp] theorem ticketBusy_clocked (s : State) (b : Nat) (f : Bool) (t : Nat) :
    (s.clocked b f).ticketBusy b f t = s.ticketBusy b f t := by
  simp [State.ticketBusy]
@[simp] theorem reg_clocked (s : State) (b : Nat) (f : Bool) (o : Nat) : (s.clocked b f).reg o = s.reg o := rfl
@[simp] theorem fld_clocked (s : State) (b : Nat) (f : Bool) (x : Fld) : (s.clocked b f).fld x = s.fld x := rfl
@[simp] theorem flag_clocked (s : State) (b : Nat) (f : Bool) (x : Fld) : (s.clocked b f).flag x = s.flag x := rfl
@[simp] theorem now_clocked (s : State) (b : Nat) (f : Bool) : (s.clocked b f).now = s.now := rfl
@[simp] theorem blockNow_clocked (s : State) (b : Nat) (f : Bool) (b' : Nat) : (s.clocked b f).blockNow b' = s.blockNow b' := rfl
@[simp] theorem servo_clocked (s : State) (b : Nat) (f : Bool) : (s.clocked b f).servo = s.servo := rfl

/-- A block state with a set's clk counted has everything else as before. -/
theorem bst_clocked (s : State) (b : Nat) (f : Bool) :
    (s.clocked b f).bst b = (s.bst b).modSet f fun x => { x with cycles := x.cycles + x.issueClk } := by
  simp [State.clocked]

@[simp] theorem modSet_vl (x : BlkState) (f : Bool) (g : CoreSet → CoreSet) : (x.modSet f g).vl = x.vl := by cases f <;> rfl
@[simp] theorem modSet_vq (x : BlkState) (f : Bool) (g : CoreSet → CoreSet) : (x.modSet f g).vq = x.vq := by cases f <;> rfl
@[simp] theorem modSet_aq (x : BlkState) (f : Bool) (g : CoreSet → CoreSet) : (x.modSet f g).aq = x.aq := by cases f <;> rfl
@[simp] theorem modSet_sq (x : BlkState) (f : Bool) (g : CoreSet → CoreSet) : (x.modSet f g).sq = x.sq := by cases f <;> rfl
@[simp] theorem modSet_run (x : BlkState) (f : Bool) (g : CoreSet → CoreSet) : (x.modSet f g).run = x.run := by cases f <;> rfl
@[simp] theorem modSet_mem (x : BlkState) (f : Bool) (g : CoreSet → CoreSet) : (x.modSet f g).mem = x.mem := by cases f <;> rfl
@[simp] theorem modSet_poison (x : BlkState) (f : Bool) (g : CoreSet → CoreSet) : (x.modSet f g).poison = x.poison := by cases f <;> rfl
@[simp] theorem modSet_vregs (x : BlkState) (f : Bool) (g : CoreSet → CoreSet) : (x.modSet f g).vregs = x.vregs := by cases f <;> rfl
@[simp] theorem modSet_mregs (x : BlkState) (f : Bool) (g : CoreSet → CoreSet) : (x.modSet f g).mregs = x.mregs := by cases f <;> rfl
@[simp] theorem modSet_vtype (x : BlkState) (f : Bool) (g : CoreSet → CoreSet) : (x.modSet f g).vtype = x.vtype := by cases f <;> rfl
@[simp] theorem modSet_cfg (x : BlkState) (f : Bool) (g : CoreSet → CoreSet) : (x.modSet f g).cfg = x.cfg := by cases f <;> rfl
@[simp] theorem modSet_banks (x : BlkState) (f : Bool) (g : CoreSet → CoreSet) : (x.modSet f g).banks = x.banks := by cases f <;> rfl
@[simp] theorem modSet_slots (x : BlkState) (f : Bool) (g : CoreSet → CoreSet) : (x.modSet f g).slots = x.slots := by cases f <;> rfl
@[simp] theorem modSet_origin (x : BlkState) (f : Bool) (g : CoreSet → CoreSet) : (x.modSet f g).origin = x.origin := by cases f <;> rfl
@[simp] theorem modSet_pending (x : BlkState) (f : Bool) (g : CoreSet → CoreSet) : (x.modSet f g).pending = x.pending := by cases f <;> rfl
@[simp] theorem modSet_order (x : BlkState) (f : Bool) (g : CoreSet → CoreSet) : (x.modSet f g).order = x.order := by cases f <;> rfl

/-- While no re-execution is under way an instruction retires without a self-test. -/
theorem retireTo_noFails (s : State) (b : Nat) (f : Bool) (pc : Word) (h : (s.blk b).coreFails = 0) :
    s.retireTo b f pc = s.retired b f pc := by
  unfold State.retireTo State.retired
  have h1 : (((s.modSet b f fun x => { x with pc := pc, retired := x.retired + 1, wait := .none }).count
      (BLK_CORE_RETIRED_COUNT b) 1).blk b).coreFails = 0 := by rw [blk_count, blk_modSet_same]; exact h
  exact if_pos h1

/-- On a quiet device a result passes its residue check. -/
theorem residue_quiet (s : State) (h : s.quiet) (b : Nat) (site : Site) (h0 : (s.blk b).coreFails = 0) (a : Act) :
    s.residue b site a = a := by
  cases a with
  | retire t =>
    have h1 : ¬ s.coreLimit b ≤ 0 := by
      have : 1 ≤ s.coreLimit b := Nat.le_max_left _ _
      omega
    simp [State.residue, h0, h1, checkUnit_quiet s h]
  | jump _ _ => rfl
  | fault _ _ => rfl
  | hold _ _ => rfl
  | parity _ _ => rfl

@[simp] theorem coreFails_clocked (s : State) (b : Nat) (f : Bool) : ((s.clocked b f).blk b).coreFails = (s.blk b).coreFails := by
  simp [State.clocked]

/-- An instruction of the integer unit that issues does its body. -/
theorem issueAlu_issues (s : State) (b : Nat) (f : Bool) (w : Word) (body : State → Act) (h : s.issues b f) :
    s.issueAlu b f w body = (s.clocked b f).settleAct b f w (body (s.clocked b f)) := by
  unfold State.issueAlu
  rw [issue_issues s b f w _ h, residue_quiet _ (by simpa using h.2.2.1) _ _ (by simpa using h.2.2.2)]

/-- An instruction of the scalar floating-point unit that issues does its body. -/
theorem issueFpu_issues (s : State) (b : Nat) (f : Bool) (w : Word) (body : State → Act) (h : s.issues b f) :
    s.issueFpu b f w body = (s.clocked b f).settleAct b f w (body (s.clocked b f)) := by
  unfold State.issueFpu
  rw [issue_issues s b f w _ h, residue_quiet _ (by simpa using h.2.2.1) _ _ (by simpa using h.2.2.2)]

/-- What a fault at issue settles to. -/
theorem settle_fault (s : State) (b : Nat) (f : Bool) (w : Word) (e : Nat) :
    (s.clocked b f).settleAct b f w (.fault (s.clocked b f) e) = s.faulted b f w e := by
  simp [State.settleAct, State.faulted]

/-- What a hold at issue settles to. -/
theorem settle_hold (s : State) (b : Nat) (f : Bool) (w : Word) (k : Wait) :
    (s.clocked b f).settleAct b f w (.hold (s.clocked b f) k) = s.held b f k := rfl

/-- What the write of a scalar register settles to. -/
theorem settle_setSreg (s : State) (b : Nat) (f : Bool) (w : Word) (d : Nat) (v : Word) (h : s.issues b f) :
    (s.clocked b f).settleAct b f w (.retire ((s.clocked b f).setSreg b f d v)) = s.wrote b f d v := by
  have h0 : (((s.clocked b f).setSreg b f d v).blk b).coreFails = 0 := by simp [State.setSreg, h.2.2.2]
  simp [State.settleAct, retireTo_noFails _ _ _ _ h0, State.wrote]

/-! ### Asynchronous and vector issue -/

/-- An asynchronous instruction that passes its checks and finds room retires with its ticket BUSY. -/
theorem issueAsync_enq (s : State) (b : Nat) (f : Bool) (w : Word) (unit : Nat) (full : State → Bool)
    (checks : State → Except Nat (State → State)) (g : BlkState → BlkState) (h : s.issues b f)
    (hc : checks (s.clocked b f) = .ok fun s => s.modBst b g) (hf : full (s.clocked b f) = false)
    (hb : s.ticketBusy b f (wTicket w) = false) :
    s.issueAsync b f w (wTicket w) unit full checks = s.queued b f w unit g := by
  unfold State.issueAsync
  rw [issue_issues s b f w _ h]
  have h0 : ((((s.clocked b f).takeTicket b f (wTicket w) unit).modBst b g).blk b).coreFails = 0 := by
    simp [State.modBst, State.takeTicket, h.2.2.2]
  simp [hc, hf, hb, State.settleAct, retireTo_noFails _ _ _ _ h0, State.queued]

/-- One that finds no room, or whose ticket is BUSY, stalls. -/
theorem issueAsync_stall (s : State) (b : Nat) (f : Bool) (w : Word) (unit : Nat) (full : State → Bool)
    (checks : State → Except Nat (State → State)) (g : State → State) (h : s.issues b f)
    (hc : checks (s.clocked b f) = .ok g) (hf : full (s.clocked b f) = true ∨ s.ticketBusy b f (wTicket w) = true) :
    s.issueAsync b f w (wTicket w) unit full checks = s.held b f .stall := by
  unfold State.issueAsync
  rw [issue_issues s b f w _ h]
  simp [hc, hf, settle_hold]

/-- One whose check fails is a precise fault. -/
theorem issueAsync_fault (s : State) (b : Nat) (f : Bool) (w : Word) (t unit : Nat) (full : State → Bool)
    (checks : State → Except Nat (State → State)) (e : Nat) (h : s.issues b f) (hc : checks (s.clocked b f) = .error e) :
    s.issueAsync b f w t unit full checks = s.faulted b f w e := by
  unfold State.issueAsync
  rw [issue_issues s b f w _ h]
  simp [hc, settle_fault]

theorem vregCheck_quiet (s : State) (h : s.quiet) (b : Nat) : s.vregCheck b = (false, s) := by
  unfold State.vregCheck
  rw [checkUnit_quiet s h]

@[simp] theorem vregTest_clocked (s : State) (b : Nat) (f : Bool) : ((s.clocked b f).blk b).vregTest = (s.blk b).vregTest := by
  simp [State.clocked]
@[simp] theorem vq_clocked (s : State) (b : Nat) (f : Bool) : ((s.clocked b f).bst b).vq = (s.bst b).vq := by simp [bst_clocked]
@[simp] theorem vl_clocked (s : State) (b : Nat) (f : Bool) : ((s.clocked b f).bst b).vl = (s.bst b).vl := by simp [bst_clocked]

/-- Showing a code leaves every block. -/
@[simp] theorem blk_vecLast (s : State) (b c b' : Nat) : (s.vecLast b c).blk b' = s.blk b' := by
  unfold State.vecLast
  split
  · exact blk_setFld _ _ _ _
  · rfl

/-- Entering the vector queue leaves the core's re-execution count. -/
theorem coreFails_pushVec (s : State) (b : Nat) (f : Bool) (w : Word) (c : Nat) (tw : Bool) :
    ((s.pushVec b f w c tw).blk b).coreFails = (s.blk b).coreFails := by
  have key : ∀ (t : State) (g : BlkState → BlkState), ((t.modBst b g).blk b).coreFails = (t.blk b).coreFails := by
    intro t g; simp [State.modBst]
  unfold State.pushVec
  rw [key, blk_vecLast]
  split
  · unfold State.takeTicket; rw [blk_modSet_same]
  · rfl

/-- A vector instruction that is ready and whose effect succeeds retires with it. -/
theorem vec_ready (s : State) (b : Nat) (f : Bool) (w : Word) (low : Nat) (types : List Nat) (more : State → Option Nat)
    (reads twine : Bool) (eff : State → Res Unit × State) (g : BlkState → BlkState)
    (h : s.vecReady b f w (vecCheck w low types (s.bst b).vl (more (s.clocked b f))))
    (he : eff (s.clocked b f) = (.ok (), (s.clocked b f).modBst b g)) :
    s.vec b f w low types more reads twine eff = s.vecDone b f w twine g := by
  obtain ⟨⟨hi, hc, hq, ht, hk⟩, hv⟩ := h
  unfold State.vec
  rw [issue_issues s b f w _ hi]
  have hq' : ¬ 8 ≤ (s.bst b).vq.length := by omega
  have hr : (if reads then (s.clocked b f).vregCheck b else (false, s.clocked b f)) = (false, s.clocked b f) := by
    cases reads
    · rfl
    · exact vregCheck_quiet _ ((quiet_clocked s b f).2 hi.2.2.1) b
  have h0 : ((((s.clocked b f).modBst b g).pushVec b f w 0 twine).blk b).coreFails = 0 := by
    rw [coreFails_pushVec]; simp [State.modBst, hi.2.2.2]
  have hb : (wTk w && s.ticketBusy b f (wTicket w)) = false := by
    cases hw : wTk w
    · rfl
    · simp [hk hw]
  simp [hc, hq', ht, hb, hv, hr, he, State.settleAct, retireTo_noFails _ _ _ _ h0, State.vecDone]

/-- The same of one that works on registers alone. -/
theorem vecReg_ready (s : State) (b : Nat) (f : Bool) (w : Word) (low : Nat) (types : List Nat) (more : State → Option Nat)
    (reads twine : Bool) (eff : State → BlkState → BlkState)
    (h : s.vecReady b f w (vecCheck w low types (s.bst b).vl (more (s.clocked b f)))) :
    s.vecReg b f w low types more reads twine eff = s.vecDone b f w twine (eff (s.clocked b f)) :=
  vec_ready s b f w low types more reads twine _ _ h rfl

@[simp] theorem opB_clocked (s : State) (b : Nat) (f : Bool) (w : Word) (x : BlkState) (i : Nat) :
    (s.clocked b f).opB b f w x i = s.opB b f w x i := by
  simp [State.opB]

end Sys2Proof.Machine
end

