-- ==== Sys2Proof/Laws/PerInstr.lean ====
section
/-!
SUPPORT. Statements made per instruction: the word of a well-formed core instruction decodes to its row, with every field kept
(R160 to R162). A row that carries no word says nothing.
-/

set_option Elab.async false

namespace Sys2Proof.Laws.CoreWord

open Sys2Proof.Machine

/-- The word of the instruction decodes to it. -/
def Statement (i : Instr) : Prop := i.wf = true → ∀ b f w, coreOperands i = some (b, f, w) → decodeCore b f w = i

/-- The major and minor opcode of a word that a row's check accepts. -/
theorem ofOk {b : Nat} {w : Word} {m n : Nat} (h : coreOk b w m n = true) : wMajor w = m ∧ wMinor w = n := by
  simp only [coreOk, Bool.and_eq_true, decide_eq_true_eq, beq_iff_eq] at h
  exact ⟨by omega, by omega⟩

/-- A row that carries no word. -/
theorem ofNone {i : Instr} (h : coreOperands i = none) : Statement i := by
  intro _ b f w e
  rw [h] at e
  cases e

/-- A row whose opcodes decode to it. -/
theorem ofOpcode {i : Instr} {b : Nat} {f : Bool} {w : Word} {m n : Nat} (ho : coreOperands i = some (b, f, w))
    (hw : i.wf = coreOk b w m n) (hd : wMajor w = m → wMinor w = n → decodeCore? b f w = some i) : Statement i := by
  intro h b' f' w' e
  rw [ho] at e
  cases e
  rw [hw] at h
  have := ofOk h
  rw [decodeCore, hd this.1 this.2]
  rfl

theorem ftuEpochWrite (a : Auth) (p : Path) (v : Word) : Statement (.ftuEpochWrite a p v) := ofNone rfl
theorem ptpMessage (port : Nat) (seqId : Nat) (slave : Bool) (offset : Int) (pathDelay : Nat) : Statement (.ptpMessage port seqId slave offset pathDelay) := ofNone rfl
theorem holdoverLimit : Statement .holdoverLimit := ofNone rfl
theorem timeRelock : Statement .timeRelock := ofNone rfl
theorem triggerArm (a : Auth) (p : Path) (region : Option Nat) (i : Nat) (v : Word) : Statement (.triggerArm a p region i v) := ofNone rfl
theorem triggerFire (region : Option Nat) (i : Nat) : Statement (.triggerFire region i) := ofNone rfl
theorem mapSwitch (a : Auth) (p : Path) (v : Word) : Statement (.mapSwitch a p v) := ofNone rfl
theorem mapSwitchDrained : Statement .mapSwitchDrained := ofNone rfl
theorem weave (b : Nat) (f : Bool) (w : Word) : Statement (.weave b f w) := ofOpcode rfl rfl fun h k => by simp [decodeCore?, h, k]; rfl
theorem weaveAccept (b : Nat) : Statement (.weaveAccept b) := ofNone rfl
theorem weaverRowArrive (b : Nat) : Statement (.weaverRowArrive b) := ofNone rfl
theorem randBoundary (b : Nat) : Statement (.randBoundary b) := ofNone rfl
theorem originReloadDone (b : Nat) : Statement (.originReloadDone b) := ofNone rfl
theorem arrSelftestDone (b : Nat) (pass : Bool) : Statement (.arrSelftestDone b pass) := ofNone rfl
theorem replayLimitReached (b : Nat) : Statement (.replayLimitReached b) := ofNone rfl
theorem spareFillDone (b : Nat) : Statement (.spareFillDone b) := ofNone rfl
theorem stakeLd (b : Nat) (f : Bool) (w : Word) : Statement (.stakeLd b f w) := ofOpcode rfl rfl fun h k => by simp [decodeCore?, h, k]; rfl
theorem stakeQueueStart (b : Nat) : Statement (.stakeQueueStart b) := ofNone rfl
theorem stakeLdDone (b : Nat) : Statement (.stakeLdDone b) := ofNone rfl
theorem stakeInv (b : Nat) (f : Bool) (w : Word) : Statement (.stakeInv b f w) := ofOpcode rfl rfl fun h k => by simp [decodeCore?, h, k]; rfl
theorem stakeStat (b : Nat) (f : Bool) (w : Word) : Statement (.stakeStat b f w) := ofOpcode rfl rfl fun h k => by simp [decodeCore?, h, k]; rfl
theorem vsetvl (b : Nat) (f : Bool) (w : Word) : Statement (.vsetvl b f w) := ofOpcode rfl rfl fun h k => by simp [decodeCore?, h, k]; rfl
theorem vmvS (b : Nat) (f : Bool) (w : Word) : Statement (.vmvS b f w) := ofOpcode rfl rfl fun h k => by simp [decodeCore?, h, k]; rfl
theorem vcfg (b : Nat) (f : Bool) (w : Word) : Statement (.vcfg b f w) := ofOpcode rfl rfl fun h k => by simp [decodeCore?, h, k]; rfl
theorem vcfgRd (b : Nat) (f : Bool) (w : Word) : Statement (.vcfgRd b f w) := ofOpcode rfl rfl fun h k => by simp [decodeCore?, h, k]; rfl
theorem mpop (b : Nat) (f : Bool) (w : Word) : Statement (.mpop b f w) := ofOpcode rfl rfl fun h k => by simp [decodeCore?, h, k]; rfl
theorem vmvV (b : Nat) (f : Bool) (w : Word) : Statement (.vmvV b f w) := ofOpcode rfl rfl fun h k => by simp [decodeCore?, h, k]; rfl
theorem vadd (b : Nat) (f : Bool) (w : Word) : Statement (.vadd b f w) := ofOpcode rfl rfl fun h k => by simp [decodeCore?, h, k]; rfl
theorem vsub (b : Nat) (f : Bool) (w : Word) : Statement (.vsub b f w) := ofOpcode rfl rfl fun h k => by simp [decodeCore?, h, k]; rfl
theorem vmul (b : Nat) (f : Bool) (w : Word) : Statement (.vmul b f w) := ofOpcode rfl rfl fun h k => by simp [decodeCore?, h, k]; rfl
theorem vdiv (b : Nat) (f : Bool) (w : Word) : Statement (.vdiv b f w) := ofOpcode rfl rfl fun h k => by simp [decodeCore?, h, k]; rfl
theorem vmin (b : Nat) (f : Bool) (w : Word) : Statement (.vmin b f w) := ofOpcode rfl rfl fun h k => by simp [decodeCore?, h, k]; rfl
theorem vmax (b : Nat) (f : Bool) (w : Word) : Statement (.vmax b f w) := ofOpcode rfl rfl fun h k => by simp [decodeCore?, h, k]; rfl
theorem vabs (b : Nat) (f : Bool) (w : Word) : Statement (.vabs b f w) := ofOpcode rfl rfl fun h k => by simp [decodeCore?, h, k]; rfl
theorem vneg (b : Nat) (f : Bool) (w : Word) : Statement (.vneg b f w) := ofOpcode rfl rfl fun h k => by simp [decodeCore?, h, k]; rfl
theorem vfma (b : Nat) (f : Bool) (w : Word) : Statement (.vfma b f w) := ofOpcode rfl rfl fun h k => by simp [decodeCore?, h, k]; rfl
theorem vfms (b : Nat) (f : Bool) (w : Word) : Statement (.vfms b f w) := ofOpcode rfl rfl fun h k => by simp [decodeCore?, h, k]; rfl
theorem vfnma (b : Nat) (f : Bool) (w : Word) : Statement (.vfnma b f w) := ofOpcode rfl rfl fun h k => by simp [decodeCore?, h, k]; rfl
theorem vcmpEq (b : Nat) (f : Bool) (w : Word) : Statement (.vcmpEq b f w) := ofOpcode rfl rfl fun h k => by simp [decodeCore?, h, k]; rfl
theorem vcmpLt (b : Nat) (f : Bool) (w : Word) : Statement (.vcmpLt b f w) := ofOpcode rfl rfl fun h k => by simp [decodeCore?, h, k]; rfl
theorem vcmpLe (b : Nat) (f : Bool) (w : Word) : Statement (.vcmpLe b f w) := ofOpcode rfl rfl fun h k => by simp [decodeCore?, h, k]; rfl
theorem vcmpUn (b : Nat) (f : Bool) (w : Word) : Statement (.vcmpUn b f w) := ofOpcode rfl rfl fun h k => by simp [decodeCore?, h, k]; rfl
theorem mand (b : Nat) (f : Bool) (w : Word) : Statement (.mand b f w) := ofOpcode rfl rfl fun h k => by simp [decodeCore?, h, k]; rfl
theorem mor (b : Nat) (f : Bool) (w : Word) : Statement (.mor b f w) := ofOpcode rfl rfl fun h k => by simp [decodeCore?, h, k]; rfl
theorem mxor (b : Nat) (f : Bool) (w : Word) : Statement (.mxor b f w) := ofOpcode rfl rfl fun h k => by simp [decodeCore?, h, k]; rfl
theorem mnot (b : Nat) (f : Bool) (w : Word) : Statement (.mnot b f w) := ofOpcode rfl rfl fun h k => by simp [decodeCore?, h, k]; rfl
theorem viadd (b : Nat) (f : Bool) (w : Word) : Statement (.viadd b f w) := ofOpcode rfl rfl fun h k => by simp [decodeCore?, h, k]; rfl
theorem visub (b : Nat) (f : Bool) (w : Word) : Statement (.visub b f w) := ofOpcode rfl rfl fun h k => by simp [decodeCore?, h, k]; rfl
theorem vimul (b : Nat) (f : Bool) (w : Word) : Statement (.vimul b f w) := ofOpcode rfl rfl fun h k => by simp [decodeCore?, h, k]; rfl
theorem vand (b : Nat) (f : Bool) (w : Word) : Statement (.vand b f w) := ofOpcode rfl rfl fun h k => by simp [decodeCore?, h, k]; rfl
theorem vor (b : Nat) (f : Bool) (w : Word) : Statement (.vor b f w) := ofOpcode rfl rfl fun h k => by simp [decodeCore?, h, k]; rfl
theorem vxor (b : Nat) (f : Bool) (w : Word) : Statement (.vxor b f w) := ofOpcode rfl rfl fun h k => by simp [decodeCore?, h, k]; rfl
theorem vsll (b : Nat) (f : Bool) (w : Word) : Statement (.vsll b f w) := ofOpcode rfl rfl fun h k => by simp [decodeCore?, h, k]; rfl
theorem vsrl (b : Nat) (f : Bool) (w : Word) : Statement (.vsrl b f w) := ofOpcode rfl rfl fun h k => by simp [decodeCore?, h, k]; rfl
theorem vsra (b : Nat) (f : Bool) (w : Word) : Statement (.vsra b f w) := ofOpcode rfl rfl fun h k => by simp [decodeCore?, h, k]; rfl
theorem vcvt (b : Nat) (f : Bool) (w : Word) : Statement (.vcvt b f w) := ofOpcode rfl rfl fun h k => by simp [decodeCore?, h, k]; rfl
theorem vexp (b : Nat) (f : Bool) (w : Word) : Statement (.vexp b f w) := ofOpcode rfl rfl fun h k => by simp [decodeCore?, h, k]; rfl
theorem vexp2 (b : Nat) (f : Bool) (w : Word) : Statement (.vexp2 b f w) := ofOpcode rfl rfl fun h k => by simp [decodeCore?, h, k]; rfl
theorem vlog (b : Nat) (f : Bool) (w : Word) : Statement (.vlog b f w) := ofOpcode rfl rfl fun h k => by simp [decodeCore?, h, k]; rfl
theorem vlog2 (b : Nat) (f : Bool) (w : Word) : Statement (.vlog2 b f w) := ofOpcode rfl rfl fun h k => by simp [decodeCore?, h, k]; rfl
theorem vrcp (b : Nat) (f : Bool) (w : Word) : Statement (.vrcp b f w) := ofOpcode rfl rfl fun h k => by simp [decodeCore?, h, k]; rfl
theorem vsqrt (b : Nat) (f : Bool) (w : Word) : Statement (.vsqrt b f w) := ofOpcode rfl rfl fun h k => by simp [decodeCore?, h, k]; rfl
theorem vrsqrt (b : Nat) (f : Bool) (w : Word) : Statement (.vrsqrt b f w) := ofOpcode rfl rfl fun h k => by simp [decodeCore?, h, k]; rfl
theorem vtanh (b : Nat) (f : Bool) (w : Word) : Statement (.vtanh b f w) := ofOpcode rfl rfl fun h k => by simp [decodeCore?, h, k]; rfl
theorem vsigmoid (b : Nat) (f : Bool) (w : Word) : Statement (.vsigmoid b f w) := ofOpcode rfl rfl fun h k => by simp [decodeCore?, h, k]; rfl
theorem verf (b : Nat) (f : Bool) (w : Word) : Statement (.verf b f w) := ofOpcode rfl rfl fun h k => by simp [decodeCore?, h, k]; rfl
theorem vsin (b : Nat) (f : Bool) (w : Word) : Statement (.vsin b f w) := ofOpcode rfl rfl fun h k => by simp [decodeCore?, h, k]; rfl
theorem vcos (b : Nat) (f : Bool) (w : Word) : Statement (.vcos b f w) := ofOpcode rfl rfl fun h k => by simp [decodeCore?, h, k]; rfl
theorem vslidedn (b : Nat) (f : Bool) (w : Word) : Statement (.vslidedn b f w) := ofOpcode rfl rfl fun h k => by simp [decodeCore?, h, k]; rfl
theorem vslideup (b : Nat) (f : Bool) (w : Word) : Statement (.vslideup b f w) := ofOpcode rfl rfl fun h k => by simp [decodeCore?, h, k]; rfl
theorem vperm (b : Nat) (f : Bool) (w : Word) : Statement (.vperm b f w) := ofOpcode rfl rfl fun h k => by simp [decodeCore?, h, k]; rfl
theorem vmerge (b : Nat) (f : Bool) (w : Word) : Statement (.vmerge b f w) := ofOpcode rfl rfl fun h k => by simp [decodeCore?, h, k]; rfl
theorem vld (b : Nat) (f : Bool) (w : Word) : Statement (.vld b f w) := ofOpcode rfl rfl fun h k => by simp [decodeCore?, h, k]; rfl
theorem vst (b : Nat) (f : Bool) (w : Word) : Statement (.vst b f w) := ofOpcode rfl rfl fun h k => by simp [decodeCore?, h, k]; rfl
theorem vstSp (b : Nat) (f : Bool) (w : Word) : Statement (.vstSp b f w) := ofOpcode rfl rfl fun h k => by simp [decodeCore?, h, k]; rfl
theorem vrb (b : Nat) (f : Bool) (w : Word) : Statement (.vrb b f w) := ofOpcode rfl rfl fun h k => by simp [decodeCore?, h, k]; rfl
theorem vldSp (b : Nat) (f : Bool) (w : Word) : Statement (.vldSp b f w) := ofOpcode rfl rfl fun h k => by simp [decodeCore?, h, k]; rfl
theorem vsmxStat (b : Nat) (f : Bool) (w : Word) : Statement (.vsmxStat b f w) := ofOpcode rfl rfl fun h k => by simp [decodeCore?, h, k]; rfl
theorem vsmxMerge (b : Nat) (f : Bool) (w : Word) : Statement (.vsmxMerge b f w) := ofOpcode rfl rfl fun h k => by simp [decodeCore?, h, k]; rfl
theorem vsmxWgt (b : Nat) (f : Bool) (w : Word) : Statement (.vsmxWgt b f w) := ofOpcode rfl rfl fun h k => by simp [decodeCore?, h, k]; rfl
theorem vsmxNorm (b : Nat) (f : Bool) (w : Word) : Statement (.vsmxNorm b f w) := ofOpcode rfl rfl fun h k => by simp [decodeCore?, h, k]; rfl
theorem voptApply (b : Nat) (f : Bool) (w : Word) : Statement (.voptApply b f w) := ofOpcode rfl rfl fun h k => by simp [decodeCore?, h, k]; rfl
theorem voptRd (b : Nat) (f : Bool) (w : Word) : Statement (.voptRd b f w) := ofOpcode rfl rfl fun h k => by simp [decodeCore?, h, k]; rfl
theorem vrngU32 (b : Nat) (f : Bool) (w : Word) : Statement (.vrngU32 b f w) := ofOpcode rfl rfl fun h k => by simp [decodeCore?, h, k]; rfl
theorem vrngUnif (b : Nat) (f : Bool) (w : Word) : Statement (.vrngUnif b f w) := ofOpcode rfl rfl fun h k => by simp [decodeCore?, h, k]; rfl
theorem vrngKeep (b : Nat) (f : Bool) (w : Word) : Statement (.vrngKeep b f w) := ofOpcode rfl rfl fun h k => by simp [decodeCore?, h, k]; rfl
theorem twSum (b : Nat) (f : Bool) (w : Word) : Statement (.twSum b f w) := ofOpcode rfl rfl fun h k => by simp [decodeCore?, h, k]; rfl
theorem twSumsq (b : Nat) (f : Bool) (w : Word) : Statement (.twSumsq b f w) := ofOpcode rfl rfl fun h k => by simp [decodeCore?, h, k]; rfl
theorem twMax (b : Nat) (f : Bool) (w : Word) : Statement (.twMax b f w) := ofOpcode rfl rfl fun h k => by simp [decodeCore?, h, k]; rfl
theorem twMin (b : Nat) (f : Bool) (w : Word) : Statement (.twMin b f w) := ofOpcode rfl rfl fun h k => by simp [decodeCore?, h, k]; rfl
theorem twAmax (b : Nat) (f : Bool) (w : Word) : Statement (.twAmax b f w) := ofOpcode rfl rfl fun h k => by simp [decodeCore?, h, k]; rfl
theorem twArgmax (b : Nat) (f : Bool) (w : Word) : Statement (.twArgmax b f w) := ofOpcode rfl rfl fun h k => by simp [decodeCore?, h, k]; rfl
theorem twCountNonfinite (b : Nat) (f : Bool) (w : Word) : Statement (.twCountNonfinite b f w) := ofOpcode rfl rfl fun h k => by simp [decodeCore?, h, k]; rfl
theorem twCrd (b : Nat) (f : Bool) (w : Word) : Statement (.twCrd b f w) := ofOpcode rfl rfl fun h k => by simp [decodeCore?, h, k]; rfl
theorem twCclr (b : Nat) (f : Bool) (w : Word) : Statement (.twCclr b f w) := ofOpcode rfl rfl fun h k => by simp [decodeCore?, h, k]; rfl
theorem vregSelftestDone (b : Nat) (pass : Bool) : Statement (.vregSelftestDone b pass) := ofNone rfl
theorem add (b : Nat) (f : Bool) (w : Word) : Statement (.add b f w) := ofOpcode rfl rfl fun h k => by simp [decodeCore?, h, k]; rfl
theorem sub (b : Nat) (f : Bool) (w : Word) : Statement (.sub b f w) := ofOpcode rfl rfl fun h k => by simp [decodeCore?, h, k]; rfl
theorem and (b : Nat) (f : Bool) (w : Word) : Statement (.and b f w) := ofOpcode rfl rfl fun h k => by simp [decodeCore?, h, k]; rfl
theorem or (b : Nat) (f : Bool) (w : Word) : Statement (.or b f w) := ofOpcode rfl rfl fun h k => by simp [decodeCore?, h, k]; rfl
theorem xor (b : Nat) (f : Bool) (w : Word) : Statement (.xor b f w) := ofOpcode rfl rfl fun h k => by simp [decodeCore?, h, k]; rfl
theorem sll (b : Nat) (f : Bool) (w : Word) : Statement (.sll b f w) := ofOpcode rfl rfl fun h k => by simp [decodeCore?, h, k]; rfl
theorem srl (b : Nat) (f : Bool) (w : Word) : Statement (.srl b f w) := ofOpcode rfl rfl fun h k => by simp [decodeCore?, h, k]; rfl
theorem sra (b : Nat) (f : Bool) (w : Word) : Statement (.sra b f w) := ofOpcode rfl rfl fun h k => by simp [decodeCore?, h, k]; rfl
theorem slt (b : Nat) (f : Bool) (w : Word) : Statement (.slt b f w) := ofOpcode rfl rfl fun h k => by simp [decodeCore?, h, k]; rfl
theorem sltu (b : Nat) (f : Bool) (w : Word) : Statement (.sltu b f w) := ofOpcode rfl rfl fun h k => by simp [decodeCore?, h, k]; rfl
theorem mul (b : Nat) (f : Bool) (w : Word) : Statement (.mul b f w) := ofOpcode rfl rfl fun h k => by simp [decodeCore?, h, k]; rfl
theorem mulh (b : Nat) (f : Bool) (w : Word) : Statement (.mulh b f w) := ofOpcode rfl rfl fun h k => by simp [decodeCore?, h, k]; rfl
theorem mulhu (b : Nat) (f : Bool) (w : Word) : Statement (.mulhu b f w) := ofOpcode rfl rfl fun h k => by simp [decodeCore?, h, k]; rfl
theorem div (b : Nat) (f : Bool) (w : Word) : Statement (.div b f w) := ofOpcode rfl rfl fun h k => by simp [decodeCore?, h, k]; rfl
theorem divu (b : Nat) (f : Bool) (w : Word) : Statement (.divu b f w) := ofOpcode rfl rfl fun h k => by simp [decodeCore?, h, k]; rfl
theorem rem (b : Nat) (f : Bool) (w : Word) : Statement (.rem b f w) := ofOpcode rfl rfl fun h k => by simp [decodeCore?, h, k]; rfl
theorem remu (b : Nat) (f : Bool) (w : Word) : Statement (.remu b f w) := ofOpcode rfl rfl fun h k => by simp [decodeCore?, h, k]; rfl
theorem min (b : Nat) (f : Bool) (w : Word) : Statement (.min b f w) := ofOpcode rfl rfl fun h k => by simp [decodeCore?, h, k]; rfl
theorem max (b : Nat) (f : Bool) (w : Word) : Statement (.max b f w) := ofOpcode rfl rfl fun h k => by simp [decodeCore?, h, k]; rfl
theorem minu (b : Nat) (f : Bool) (w : Word) : Statement (.minu b f w) := ofOpcode rfl rfl fun h k => by simp [decodeCore?, h, k]; rfl
theorem maxu (b : Nat) (f : Bool) (w : Word) : Statement (.maxu b f w) := ofOpcode rfl rfl fun h k => by simp [decodeCore?, h, k]; rfl
theorem clz (b : Nat) (f : Bool) (w : Word) : Statement (.clz b f w) := ofOpcode rfl rfl fun h k => by simp [decodeCore?, h, k]; rfl
theorem ctz (b : Nat) (f : Bool) (w : Word) : Statement (.ctz b f w) := ofOpcode rfl rfl fun h k => by simp [decodeCore?, h, k]; rfl
theorem popc (b : Nat) (f : Bool) (w : Word) : Statement (.popc b f w) := ofOpcode rfl rfl fun h k => by simp [decodeCore?, h, k]; rfl
theorem addi (b : Nat) (f : Bool) (w : Word) : Statement (.addi b f w) := ofOpcode rfl rfl fun h k => by simp [decodeCore?, h, k]; rfl
theorem andi (b : Nat) (f : Bool) (w : Word) : Statement (.andi b f w) := ofOpcode rfl rfl fun h k => by simp [decodeCore?, h, k]; rfl
theorem ori (b : Nat) (f : Bool) (w : Word) : Statement (.ori b f w) := ofOpcode rfl rfl fun h k => by simp [decodeCore?, h, k]; rfl
theorem xori (b : Nat) (f : Bool) (w : Word) : Statement (.xori b f w) := ofOpcode rfl rfl fun h k => by simp [decodeCore?, h, k]; rfl
theorem slli (b : Nat) (f : Bool) (w : Word) : Statement (.slli b f w) := ofOpcode rfl rfl fun h k => by simp [decodeCore?, h, k]; rfl
theorem srli (b : Nat) (f : Bool) (w : Word) : Statement (.srli b f w) := ofOpcode rfl rfl fun h k => by simp [decodeCore?, h, k]; rfl
theorem srai (b : Nat) (f : Bool) (w : Word) : Statement (.srai b f w) := ofOpcode rfl rfl fun h k => by simp [decodeCore?, h, k]; rfl
theorem slti (b : Nat) (f : Bool) (w : Word) : Statement (.slti b f w) := ofOpcode rfl rfl fun h k => by simp [decodeCore?, h, k]; rfl
theorem sltiu (b : Nat) (f : Bool) (w : Word) : Statement (.sltiu b f w) := ofOpcode rfl rfl fun h k => by simp [decodeCore?, h, k]; rfl
theorem movi (b : Nat) (f : Bool) (w : Word) : Statement (.movi b f w) := ofOpcode rfl rfl fun h k => by simp [decodeCore?, h, k]; rfl
theorem movhi (b : Nat) (f : Bool) (w : Word) : Statement (.movhi b f w) := ofOpcode rfl rfl fun h k => by simp [decodeCore?, h, k]; rfl
theorem fadd (b : Nat) (f : Bool) (w : Word) : Statement (.fadd b f w) := ofOpcode rfl rfl fun h k => by simp [decodeCore?, h, k]; rfl
theorem fsub (b : Nat) (f : Bool) (w : Word) : Statement (.fsub b f w) := ofOpcode rfl rfl fun h k => by simp [decodeCore?, h, k]; rfl
theorem fmul (b : Nat) (f : Bool) (w : Word) : Statement (.fmul b f w) := ofOpcode rfl rfl fun h k => by simp [decodeCore?, h, k]; rfl
theorem fdiv (b : Nat) (f : Bool) (w : Word) : Statement (.fdiv b f w) := ofOpcode rfl rfl fun h k => by simp [decodeCore?, h, k]; rfl
theorem fsqrt (b : Nat) (f : Bool) (w : Word) : Statement (.fsqrt b f w) := ofOpcode rfl rfl fun h k => by simp [decodeCore?, h, k]; rfl
theorem fmin (b : Nat) (f : Bool) (w : Word) : Statement (.fmin b f w) := ofOpcode rfl rfl fun h k => by simp [decodeCore?, h, k]; rfl
theorem fmax (b : Nat) (f : Bool) (w : Word) : Statement (.fmax b f w) := ofOpcode rfl rfl fun h k => by simp [decodeCore?, h, k]; rfl
theorem fma (b : Nat) (f : Bool) (w : Word) : Statement (.fma b f w) := ofOpcode rfl rfl fun h k => by simp [decodeCore?, h, k]; rfl
theorem fcmpEq (b : Nat) (f : Bool) (w : Word) : Statement (.fcmpEq b f w) := ofOpcode rfl rfl fun h k => by simp [decodeCore?, h, k]; rfl
theorem fcmpLt (b : Nat) (f : Bool) (w : Word) : Statement (.fcmpLt b f w) := ofOpcode rfl rfl fun h k => by simp [decodeCore?, h, k]; rfl
theorem fcmpLe (b : Nat) (f : Bool) (w : Word) : Statement (.fcmpLe b f w) := ofOpcode rfl rfl fun h k => by simp [decodeCore?, h, k]; rfl
theorem fcvtI (b : Nat) (f : Bool) (w : Word) : Statement (.fcvtI b f w) := ofOpcode rfl rfl fun h k => by simp [decodeCore?, h, k]; rfl
theorem fcvtF (b : Nat) (f : Bool) (w : Word) : Statement (.fcvtF b f w) := ofOpcode rfl rfl fun h k => by simp [decodeCore?, h, k]; rfl
theorem fcvtP (b : Nat) (f : Bool) (w : Word) : Statement (.fcvtP b f w) := ofOpcode rfl rfl fun h k => by simp [decodeCore?, h, k]; rfl
theorem ldlB (b : Nat) (f : Bool) (w : Word) : Statement (.ldlB b f w) := ofOpcode rfl rfl fun h k => by simp [decodeCore?, h, k]; rfl
theorem ldlBu (b : Nat) (f : Bool) (w : Word) : Statement (.ldlBu b f w) := ofOpcode rfl rfl fun h k => by simp [decodeCore?, h, k]; rfl
theorem ldlH (b : Nat) (f : Bool) (w : Word) : Statement (.ldlH b f w) := ofOpcode rfl rfl fun h k => by simp [decodeCore?, h, k]; rfl
theorem ldlHu (b : Nat) (f : Bool) (w : Word) : Statement (.ldlHu b f w) := ofOpcode rfl rfl fun h k => by simp [decodeCore?, h, k]; rfl
theorem ldlW (b : Nat) (f : Bool) (w : Word) : Statement (.ldlW b f w) := ofOpcode rfl rfl fun h k => by simp [decodeCore?, h, k]; rfl
theorem ldlWu (b : Nat) (f : Bool) (w : Word) : Statement (.ldlWu b f w) := ofOpcode rfl rfl fun h k => by simp [decodeCore?, h, k]; rfl
theorem ldlD (b : Nat) (f : Bool) (w : Word) : Statement (.ldlD b f w) := ofOpcode rfl rfl fun h k => by simp [decodeCore?, h, k]; rfl
theorem stlB (b : Nat) (f : Bool) (w : Word) : Statement (.stlB b f w) := ofOpcode rfl rfl fun h k => by simp [decodeCore?, h, k]; rfl
theorem stlH (b : Nat) (f : Bool) (w : Word) : Statement (.stlH b f w) := ofOpcode rfl rfl fun h k => by simp [decodeCore?, h, k]; rfl
theorem stlW (b : Nat) (f : Bool) (w : Word) : Statement (.stlW b f w) := ofOpcode rfl rfl fun h k => by simp [decodeCore?, h, k]; rfl
theorem stlD (b : Nat) (f : Bool) (w : Word) : Statement (.stlD b f w) := ofOpcode rfl rfl fun h k => by simp [decodeCore?, h, k]; rfl
theorem ldv (b : Nat) (f : Bool) (w : Word) : Statement (.ldv b f w) := ofOpcode rfl rfl fun h k => by simp [decodeCore?, h, k]; rfl
theorem stv (b : Nat) (f : Bool) (w : Word) : Statement (.stv b f w) := ofOpcode rfl rfl fun h k => by simp [decodeCore?, h, k]; rfl
theorem amoadd (b : Nat) (f : Bool) (w : Word) : Statement (.amoadd b f w) := ofOpcode rfl rfl fun h k => by simp [decodeCore?, h, k]; rfl
theorem amoswap (b : Nat) (f : Bool) (w : Word) : Statement (.amoswap b f w) := ofOpcode rfl rfl fun h k => by simp [decodeCore?, h, k]; rfl
theorem amocas (b : Nat) (f : Bool) (w : Word) : Statement (.amocas b f w) := ofOpcode rfl rfl fun h k => by simp [decodeCore?, h, k]; rfl
theorem beq (b : Nat) (f : Bool) (w : Word) : Statement (.beq b f w) := ofOpcode rfl rfl fun h k => by simp [decodeCore?, h, k]; rfl
theorem bne (b : Nat) (f : Bool) (w : Word) : Statement (.bne b f w) := ofOpcode rfl rfl fun h k => by simp [decodeCore?, h, k]; rfl
theorem blt (b : Nat) (f : Bool) (w : Word) : Statement (.blt b f w) := ofOpcode rfl rfl fun h k => by simp [decodeCore?, h, k]; rfl
theorem bge (b : Nat) (f : Bool) (w : Word) : Statement (.bge b f w) := ofOpcode rfl rfl fun h k => by simp [decodeCore?, h, k]; rfl
theorem bltu (b : Nat) (f : Bool) (w : Word) : Statement (.bltu b f w) := ofOpcode rfl rfl fun h k => by simp [decodeCore?, h, k]; rfl
theorem bgeu (b : Nat) (f : Bool) (w : Word) : Statement (.bgeu b f w) := ofOpcode rfl rfl fun h k => by simp [decodeCore?, h, k]; rfl
theorem jal (b : Nat) (f : Bool) (w : Word) : Statement (.jal b f w) := ofOpcode rfl rfl fun h k => by simp [decodeCore?, h, k]; rfl
theorem jalr (b : Nat) (f : Bool) (w : Word) : Statement (.jalr b f w) := ofOpcode rfl rfl fun h k => by simp [decodeCore?, h, k]; rfl
theorem wait (b : Nat) (f : Bool) (w : Word) : Statement (.wait b f w) := ofOpcode rfl rfl fun h k => by simp [decodeCore?, h, k]; rfl
theorem waitany (b : Nat) (f : Bool) (w : Word) : Statement (.waitany b f w) := ofOpcode rfl rfl fun h k => by simp [decodeCore?, h, k]; rfl
theorem waitT (b : Nat) (f : Bool) (w : Word) : Statement (.waitT b f w) := ofOpcode rfl rfl fun h k => by simp [decodeCore?, h, k]; rfl
theorem tkst (b : Nat) (f : Bool) (w : Word) : Statement (.tkst b f w) := ofOpcode rfl rfl fun h k => by simp [decodeCore?, h, k]; rfl
theorem ftnow (b : Nat) (f : Bool) (w : Word) : Statement (.ftnow b f w) := ofOpcode rfl rfl fun h k => by simp [decodeCore?, h, k]; rfl
theorem ftwait (b : Nat) (f : Bool) (w : Word) : Statement (.ftwait b f w) := ofOpcode rfl rfl fun h k => by simp [decodeCore?, h, k]; rfl
theorem ftstat (b : Nat) (f : Bool) (w : Word) : Statement (.ftstat b f w) := ofOpcode rfl rfl fun h k => by simp [decodeCore?, h, k]; rfl
theorem exit (b : Nat) (f : Bool) (w : Word) : Statement (.exit b f w) := ofOpcode rfl rfl fun h k => by simp [decodeCore?, h, k]; rfl
theorem fence (b : Nat) (f : Bool) (w : Word) : Statement (.fence b f w) := ofOpcode rfl rfl fun h k => by simp [decodeCore?, h, k]; rfl
theorem csrr (b : Nat) (f : Bool) (w : Word) : Statement (.csrr b f w) := ofOpcode rfl rfl fun h k => by simp [decodeCore?, h, k]; rfl
theorem csrw (b : Nat) (f : Bool) (w : Word) : Statement (.csrw b f w) := ofOpcode rfl rfl fun h k => by simp [decodeCore?, h, k]; rfl
theorem nop (b : Nat) (f : Bool) (w : Word) : Statement (.nop b f w) := ofOpcode rfl rfl fun h k => by simp [decodeCore?, h, k]; rfl
theorem brk (b : Nat) (f : Bool) (w : Word) : Statement (.brk b f w) := ofOpcode rfl rfl fun h k => by simp [decodeCore?, h, k]; rfl
theorem coreResume (a : Auth) (p : Path) (b : Nat) (v : Word) : Statement (.coreResume a p b v) := ofNone rfl
theorem coreSelftestDone (b : Nat) (pass : Bool) : Statement (.coreSelftestDone b pass) := ofNone rfl
theorem coreReplayLimit (b : Nat) : Statement (.coreReplayLimit b) := ofNone rfl
theorem move (b : Nat) (f : Bool) (w : Word) : Statement (.move b f w) := ofOpcode rfl rfl fun h k => by simp [decodeCore?, h, k]; rfl
theorem moveFill (b : Nat) (f : Bool) (w : Word) : Statement (.moveFill b f w) := ofOpcode rfl rfl fun h k => by simp [decodeCore?, h, k]; rfl
theorem moveNc (b : Nat) (f : Bool) (w : Word) : Statement (.moveNc b f w) := by
  intro h b' f' w' e
  cases e
  simp only [Instr.wf, Bool.or_eq_true] at h
  rcases h with h | h <;> simp [decodeCore, decodeCore?, (ofOk h).1, (ofOk h).2, decodeMove]
theorem plait (b : Nat) (f : Bool) (w : Word) : Statement (.plait b f w) := ofOpcode rfl rfl fun h k => by simp [decodeCore?, h, k]; rfl
theorem plaitFence (b : Nat) (f : Bool) (w : Word) : Statement (.plaitFence b f w) := ofOpcode rfl rfl fun h k => by simp [decodeCore?, h, k]; rfl
theorem plaitHrel (b : Nat) (f : Bool) (w : Word) : Statement (.plaitHrel b f w) := ofOpcode rfl rfl fun h k => by simp [decodeCore?, h, k]; rfl
theorem illegalInstruction (b : Nat) (f : Bool) (w : Word) : Statement (.illegalInstruction b f w) := by
  intro h b' f' w' e
  cases e
  simp only [Instr.wf, Bool.and_eq_true, Option.isNone_iff_eq_none] at h
  rw [decodeCore, h.2]
  rfl
theorem moveBurst (id : Nat) : Statement (.moveBurst id) := ofNone rfl
theorem pageWalk (tag : Nat) (va : Word) (req : WalkFor) : Statement (.pageWalk tag va req) := ofNone rfl
theorem hbmReread (dpa fails : Nat) (req : ReadFor) : Statement (.hbmReread dpa fails req) := ofNone rfl
theorem frameTestDone (k : Nat) (pass : Bool) (channelOk : Bool) : Statement (.frameTestDone k pass channelOk) := ofNone rfl
theorem sramRowTestDone (b : Nat) (pass : Bool) : Statement (.sramRowTestDone b pass) := ofNone rfl
theorem tlbiStart (a : Auth) (p : Path) (v : Word) : Statement (.tlbiStart a p v) := ofNone rfl
theorem tlbiDone : Statement .tlbiDone := ofNone rfl
theorem dirtySwap (a : Auth) (p : Path) (v : Word) : Statement (.dirtySwap a p v) := ofNone rfl
theorem dirtyClear (a : Auth) (p : Path) (bank : Nat) (idx : Nat) (v : Word) : Statement (.dirtyClear a p bank idx v) := ofNone rfl
theorem hbmIlvWrite (a : Auth) (p : Path) (v : Word) : Statement (.hbmIlvWrite a p v) := ofNone rfl
theorem scrubStart (a : Auth) (p : Path) (v : Word) : Statement (.scrubStart a p v) := ofNone rfl
theorem scrubDone : Statement .scrubDone := ofNone rfl
theorem arbDecision (id : ArbId) (new : List ArbNew) : Statement (.arbDecision id new) := ofNone rfl
theorem burstLimitExpire (id : ArbId) : Statement (.burstLimitExpire id) := ofNone rfl
theorem quotaExhausted (id : ArbId) (req : Nat) : Statement (.quotaExhausted id req) := ofNone rfl
theorem arbStatClear (a : Auth) (p : Path) (id : ArbId) (v : Word) : Statement (.arbStatClear a p id v) := ofNone rfl
theorem makePart (a : Auth) (p : Path) (v : Word) : Statement (.makePart a p v) := ofNone rfl
theorem freePart (a : Auth) (p : Path) (v : Word) : Statement (.freePart a p v) := ofNone rfl
theorem admitCtx (a : Auth) (p : Path) (v : Word) : Statement (.admitCtx a p v) := ofNone rfl
theorem release (a : Auth) (p : Path) (v : Word) : Statement (.release a p v) := ofNone rfl
theorem bindQ (a : Auth) (p : Path) (v : Word) : Statement (.bindQ a p v) := ofNone rfl
theorem unbindQ (a : Auth) (p : Path) (v : Word) : Statement (.unbindQ a p v) := ofNone rfl
theorem stopQ (a : Auth) (p : Path) (v : Word) : Statement (.stopQ a p v) := ofNone rfl
theorem startQ (a : Auth) (p : Path) (v : Word) : Statement (.startQ a p v) := ofNone rfl
theorem doorbellWrite (a : Auth) (p : Path) (q : Nat) (v : Word) : Statement (.doorbellWrite a p q v) := ofNone rfl
theorem entryRead (q : Nat) : Statement (.entryRead q) := ofNone rfl
theorem taskStart (q : Nat) : Statement (.taskStart q) := ofNone rfl
theorem fillTaskStart (q : Nat) : Statement (.fillTaskStart q) := ofNone rfl
theorem taskExit (b : Nat) (f : Bool) : Statement (.taskExit b f) := ofNone rfl
theorem chooseIdle (part : Nat) : Statement (.chooseIdle part) := ofNone rfl
theorem latencySwitchIn (part : Nat) : Statement (.latencySwitchIn part) := ofNone rfl
theorem contextBlocked (c : Nat) : Statement (.contextBlocked c) := ofNone rfl
theorem debtExpire (c : Nat) : Statement (.debtExpire c) := ofNone rfl
theorem blockStopped (b : Nat) : Statement (.blockStopped b) := ofNone rfl
theorem saveDone (b : Nat) (ok : Bool) (code : Nat) : Statement (.saveDone b ok code) := ofNone rfl
theorem blockScrubDone (b : Nat) : Statement (.blockScrubDone b) := ofNone rfl
theorem restoreDone (b : Nat) (ok : Bool) (code : Nat) : Statement (.restoreDone b ok code) := ofNone rfl
theorem dataFrame (k : Nat) (fr : Frame) : Statement (.dataFrame k fr) := ofNone rfl
theorem idleFrame (k : Nat) (fr : Frame) : Statement (.idleFrame k fr) := ofNone rfl
theorem hello (k : Nat) (m : HelloIn) : Statement (.hello k m) := ofNone rfl
theorem beacon (k : Nat) (hd : CtrlHdr) (hops : Nat) (locked : Bool) (epoch : Nat) (time : FracTime) :
    Statement (.beacon k hd hops locked epoch time) := ofNone rfl
theorem probe (k : Nat) (hd : CtrlHdr) (t1 : Nat) : Statement (.probe k hd t1) := ofNone rfl
theorem probeReply (k : Nat) (hd : CtrlHdr) (times : ReplyTimes) : Statement (.probeReply k hd times) := ofNone rfl
theorem helloSend (k : Nat) : Statement (.helloSend k) := ofNone rfl
theorem probeSend (k : Nat) : Statement (.probeSend k) := ofNone rfl
theorem beaconSend (k : Nat) : Statement (.beaconSend k) := ofNone rfl
theorem ackTimeout (k : Nat) : Statement (.ackTimeout k) := ofNone rfl
theorem errorRate (k : Nat) : Statement (.errorRate k) := ofNone rfl
theorem alignmentLost (k : Nat) : Statement (.alignmentLost k) := ofNone rfl
theorem linkLightDelay (k : Nat) : Statement (.linkLightDelay k) := ofNone rfl
theorem lightReceived (k : Nat) : Statement (.lightReceived k) := ofNone rfl
theorem lightLost (k : Nat) : Statement (.lightLost k) := ofNone rfl
theorem linkOpen (k : Nat) : Statement (.linkOpen k) := ofNone rfl
theorem pcsLock (k : Nat) : Statement (.pcsLock k) := ofNone rfl
theorem lockTimeout (k : Nat) : Statement (.lockTimeout k) := ofNone rfl
theorem helloTimeout (k : Nat) : Statement (.helloTimeout k) := ofNone rfl
theorem probeTimeout (k : Nat) : Statement (.probeTimeout k) := ofNone rfl
theorem halfTimeout (k : Nat) : Statement (.halfTimeout k) := ofNone rfl
theorem holdExpire (k : Nat) : Statement (.holdExpire k) := ofNone rfl
theorem linkEnable (a : Auth) (p : Path) (k : Nat) (v : Word) : Statement (.linkEnable a p k v) := ofNone rfl
theorem linkDisable (a : Auth) (p : Path) (k : Nat) (v : Word) : Statement (.linkDisable a p k v) := ofNone rfl
theorem linkFence (a : Auth) (p : Path) (k : Nat) (v : Word) : Statement (.linkFence a p k v) := ofNone rfl
theorem linkUnfence (a : Auth) (p : Path) (k : Nat) (v : Word) : Statement (.linkUnfence a p k v) := ofNone rfl
theorem linkRetrain (a : Auth) (p : Path) (k : Nat) (v : Word) : Statement (.linkRetrain a p k v) := ofNone rfl
theorem wireWrite (a : Auth) (p : Path) (k : Nat) (v : Word) : Statement (.wireWrite a p k v) := ofNone rfl
theorem peerOpenWrite (a : Auth) (p : Path) (k : Nat) (v : Word) : Statement (.peerOpenWrite a p k v) := ofNone rfl
theorem creditReturn (k : Nat) : Statement (.creditReturn k) := ofNone rfl
theorem plaitAccept (b : Nat) : Statement (.plaitAccept b) := ofNone rfl
theorem writePacket (k : Nat) (pk : Pkt) : Statement (.writePacket k pk) := ofNone rfl
theorem resultPacket (k : Nat) (pk : Pkt) : Statement (.resultPacket k pk) := ofNone rfl
theorem summaryPacket (k : Nat) (pk : Pkt) : Statement (.summaryPacket k pk) := ofNone rfl
theorem versionPacket (k : Nat) (pk : Pkt) : Statement (.versionPacket k pk) := ofNone rfl
theorem creditPacket (k : Nat) (pk : Pkt) : Statement (.creditPacket k pk) := ofNone rfl
theorem doorbellPacket (k : Nat) (pk : Pkt) : Statement (.doorbellPacket k pk) := ofNone rfl
theorem earlyTimeout (i : Nat) : Statement (.earlyTimeout i) := ofNone rfl
theorem plaitWaitEnd (slot : Nat) : Statement (.plaitWaitEnd slot) := ofNone rfl
theorem plaitSummaryTimeout (slot : Nat) : Statement (.plaitSummaryTimeout slot) := ofNone rfl
theorem portMapWrite (a : Auth) (p : Path) (m : Nat) (port : Nat) (v : Word) : Statement (.portMapWrite a p m port v) := ofNone rfl
theorem rtDataWrite (a : Auth) (p : Path) (v : Word) : Statement (.rtDataWrite a p v) := ofNone rfl
theorem coilEnable (a : Auth) (p : Path) (e : Nat) (v : Word) : Statement (.coilEnable a p e v) := ofNone rfl
theorem coilOpen (a : Auth) (p : Path) (e : Nat) (v : Word) : Statement (.coilOpen a p e v) := ofNone rfl
theorem coilCommit (a : Auth) (p : Path) (e : Nat) (v : Word) : Statement (.coilCommit a p e v) := ofNone rfl
theorem coilDiscard (a : Auth) (p : Path) (e : Nat) (v : Word) : Statement (.coilDiscard a p e v) := ofNone rfl
theorem coilRestore (a : Auth) (p : Path) (e : Nat) (v : Word) : Statement (.coilRestore a p e v) := ofNone rfl
theorem coilPark (a : Auth) (p : Path) (e : Nat) (v : Word) : Statement (.coilPark a p e v) := ofNone rfl
theorem coilDissolve (a : Auth) (p : Path) (e : Nat) (v : Word) : Statement (.coilDissolve a p e v) := ofNone rfl
theorem coilPage (k : Nat) (pk : Pkt) : Statement (.coilPage k pk) := ofNone rfl
theorem coilDelta (k : Nat) (pk : Pkt) : Statement (.coilDelta k pk) := ofNone rfl
theorem coilAck (k : Nat) (pk : Pkt) : Statement (.coilAck k pk) := ofNone rfl
theorem coilReady (k : Nat) (pk : Pkt) : Statement (.coilReady k pk) := ofNone rfl
theorem coilEnd (k : Nat) (pk : Pkt) : Statement (.coilEnd k pk) := ofNone rfl
theorem coilRestoreReq (k : Nat) (pk : Pkt) : Statement (.coilRestoreReq k pk) := ofNone rfl
theorem coilRestorePage (k : Nat) (pk : Pkt) : Statement (.coilRestorePage k pk) := ofNone rfl
theorem rplModeWrite (a : Auth) (p : Path) (v : Word) : Statement (.rplModeWrite a p v) := ofNone rfl
theorem wdNoRetire (b : Nat) : Statement (.wdNoRetire b) := ofNone rfl
theorem wdSchedHeartbeat (r : Nat) : Statement (.wdSchedHeartbeat r) := ofNone rfl
theorem wdPlaitOverrun : Statement .wdPlaitOverrun := ofNone rfl
theorem wdCompanionLost : Statement .wdCompanionLost := ofNone rfl
theorem wdLid : Statement .wdLid := ofNone rfl
theorem heartbeatWrite (a : Auth) (p : Path) (v : Word) : Statement (.heartbeatWrite a p v) := ofNone rfl
theorem blockHung (b : Nat) : Statement (.blockHung b) := ofNone rfl
theorem fullResetNeeded (part : Nat) : Statement (.fullResetNeeded part) := ofNone rfl
theorem partReset (a : Auth) (p : Path) (part : Nat) : Statement (.partReset a p part) := ofNone rfl
theorem partResetDone (part : Nat) (found : List BlockFound) : Statement (.partResetDone part found) := ofNone rfl
theorem drainEnd (c : Nat) : Statement (.drainEnd c) := ofNone rfl
theorem fullReset : Statement .fullReset := ofNone rfl
theorem peerReset (port : Nat) (addr : Nat) (kind : Nat) (part : Nat) (step : Nat) : Statement (.peerReset port addr kind part step) := ofNone rfl
theorem fencePeer (port : Nat) (addr : Nat) (digest : Nat) : Statement (.fencePeer port addr digest) := ofNone rfl
theorem readmitPeer (port : Nat) (addr : Nat) (digest : Nat) : Statement (.readmitPeer port addr digest) := ofNone rfl
theorem fenceSelf (port : Nat) : Statement (.fenceSelf port) := ofNone rfl
theorem readmitSelf (port : Nat) : Statement (.readmitSelf port) := ofNone rfl
theorem peerFenceWrite (a : Auth) (p : Path) (v : Word) : Statement (.peerFenceWrite a p v) := ofNone rfl
theorem rtsStart (a : Auth) (p : Path) : Statement (.rtsStart a p) := ofNone rfl
theorem rtsResult (elapsedS : Nat) (found : List BlockFound) (hbm : HbmFound) : Statement (.rtsResult elapsedS found hbm) := ofNone rfl
theorem alive : Statement .alive := ofNone rfl
theorem jslDetectEnd (signal : Nat) : Statement (.jslDetectEnd signal) := ofNone rfl
theorem jslEqualiseDone : Statement .jslEqualiseDone := ofNone rfl
theorem jslAlignDone (low high : List (List Byte)) (crReq crData crMsg : Nat) :
    Statement (.jslAlignDone low high crReq crData crMsg) := ofNone rfl
theorem flitReceive (fl : Flit) : Statement (.flitReceive fl) := ofNone rfl
theorem flitAckTimeout : Statement .flitAckTimeout := ofNone rfl
theorem jslLaneFecLoss (lane : Nat) : Statement (.jslLaneFecLoss lane) := ofNone rfl
theorem jslRetrainWrite (a : Auth) (p : Path) (v : Word) : Statement (.jslRetrainWrite a p v) := ofNone rfl
theorem jslRetrainDone (low high : List (List Byte)) : Statement (.jslRetrainDone low high) := ofNone rfl
theorem rdNc (h : JHdr) : Statement (.rdNc h) := ofNone rfl
theorem wrNc (h : JHdr) (data : List Byte) : Statement (.wrNc h data) := ofNone rfl
theorem snpInv (h : JHdr) : Statement (.snpInv h) := ofNone rfl
theorem snpData (h : JHdr) : Statement (.snpData h) := ofNone rfl
theorem cmp (h : JHdr) : Statement (.cmp h) := ofNone rfl
theorem cmpData (h : JHdr) (data : List Byte) : Statement (.cmpData h data) := ofNone rfl
theorem grantS (h : JHdr) (data : List Byte) : Statement (.grantS h data) := ofNone rfl
theorem grantE (h : JHdr) (data : List Byte) : Statement (.grantE h data) := ofNone rfl
theorem jslTimeout (tid : Nat) : Statement (.jslTimeout tid) := ofNone rfl
theorem flush (a : Auth) (p : Path) (v : Word) : Statement (.flush a p v) := ofNone rfl
theorem flushDone : Statement .flushDone := ofNone rfl
theorem upsettStart : Statement .upsettStart := ofNone rfl
theorem powerGood (refA : Bool) (refB : Bool) : Statement (.powerGood refA refB) := ofNone rfl
theorem upsettStepEnd (step : Nat) (found : List BlockFound) : Statement (.upsettStepEnd step found) := ofNone rfl
theorem step6Limit : Statement .step6Limit := ofNone rfl
theorem loadImage (fetched : Bool) (image : List Byte) : Statement (.loadImage fetched image) := ofNone rfl
theorem loadRepair (fetched : Bool) (table : List Byte) : Statement (.loadRepair fetched table) := ofNone rfl
theorem attest (fetched : Bool) (request : List Byte) : Statement (.attest fetched request) := ofNone rfl
theorem epochTreeDone (pos : Nat) : Statement (.epochTreeDone pos) := ofNone rfl
theorem installKey (a : Auth) (p : Path) (v : Word) : Statement (.installKey a p v) := ofNone rfl
theorem attestReq (port : Nat) (nonce : Nat) (part : Nat) : Statement (.attestReq port nonce part) := ofNone rfl
theorem debugEnable (port : Nat) : Statement (.debugEnable port) := ofNone rfl
theorem raiseFloor (port : Nat) : Statement (.raiseFloor port) := ofNone rfl
theorem debugWrite (port : Nat) (off : Nat) (v : Word) : Statement (.debugWrite port off v) := ofNone rfl
theorem debugPortAccess (write : Bool) (off : Nat) (v : Word) : Statement (.debugPortAccess write off v) := ofNone rfl
theorem echo (body : List Byte) : Statement (.echo body) := ofNone rfl
theorem registerWrite (a : Auth) (p : Path) (off : Nat) (v : Word) : Statement (.registerWrite a p off v) := ofNone rfl
theorem railOrderFault (rail : Nat) : Statement (.railOrderFault rail) := ofNone rfl
theorem underVoltage (rail : Nat) : Statement (.underVoltage rail) := ofNone rfl
theorem refclkLoss (clkB : Bool) : Statement (.refclkLoss clkB) := ofNone rfl
theorem refclkBothLost : Statement .refclkBothLost := ofNone rfl
theorem refclkRecover (clkB : Bool) : Statement (.refclkRecover clkB) := ofNone rfl
theorem clockSelect (a : Auth) (p : Path) (v : Word) : Statement (.clockSelect a p v) := ofNone rfl
theorem thermalSample (temps : List Int) : Statement (.thermalSample temps) := ofNone rfl
theorem thermalStopRelease : Statement .thermalStopRelease := ofNone rfl
theorem diodeSample (milliVolt : Nat) (temp : Int) : Statement (.diodeSample milliVolt temp) := ofNone rfl
theorem powerWindowEnd (estimateW : Nat) : Statement (.powerWindowEnd estimateW) := ofNone rfl
theorem regulatorPoll (i : Nat) (ok : Bool) (voutMv : Nat) (iout : Nat) (tempC : Nat) : Statement (.regulatorPoll i ok voutMv iout tempC) := ofNone rfl
theorem throtReqAssert : Statement .throtReqAssert := ofNone rfl
theorem throtReqDeassert : Statement .throtReqDeassert := ofNone rfl
theorem mgmtPortDown (port : Nat) : Statement (.mgmtPortDown port) := ofNone rfl
theorem mgmtPortUp (port : Nat) (fec : Bool) : Statement (.mgmtPortUp port fec) := ofNone rfl
theorem mgmtDatagram (port : Nat) (d : Datagram) : Statement (.mgmtDatagram port d) := ofNone rfl
theorem mgmtNetworkFrame (port : Nat) (fr : NetFrame) : Statement (.mgmtNetworkFrame port fr) := ofNone rfl
theorem regRead (port : Nat) (off : Nat) : Statement (.regRead port off) := ofNone rfl
theorem regWrite (port : Nat) (off : Nat) (v : Word) : Statement (.regWrite port off v) := ofNone rfl
theorem telemetry : Statement .telemetry := ofNone rfl
theorem smbStatusRead : Statement .smbStatusRead := ofNone rfl
theorem smbTjRead : Statement .smbTjRead := ofNone rfl
theorem smbPowerRead : Statement .smbPowerRead := ofNone rfl
theorem smbFaultCauseRead : Statement .smbFaultCauseRead := ofNone rfl
theorem alertResponse : Statement .alertResponse := ofNone rfl
theorem smbusStuck (clkLine : Bool) (recovered : Bool) : Statement (.smbusStuck clkLine recovered) := ofNone rfl
theorem smbusRecoveryRetry (recovered : Bool) : Statement (.smbusRecoveryRetry recovered) := ofNone rfl
theorem smbTargetTimeout : Statement .smbTargetTimeout := ofNone rfl
theorem ptbEnable (a : Auth) (p : Path) (v : Word) : Statement (.ptbEnable a p v) := ofNone rfl
theorem ptbClear (a : Auth) (p : Path) (v : Word) : Statement (.ptbClear a p v) := ofNone rfl
theorem ptbSeedWrite (a : Auth) (p : Path) (v : Word) : Statement (.ptbSeedWrite a p v) := ofNone rfl
theorem ptbInjWrite (a : Auth) (p : Path) (v : Word) : Statement (.ptbInjWrite a p v) := ofNone rfl
theorem ptbGenWrite (a : Auth) (p : Path) (v : Word) : Statement (.ptbGenWrite a p v) := ofNone rfl
theorem ptbSkewWrite (a : Auth) (p : Path) (v : Word) : Statement (.ptbSkewWrite a p v) := ofNone rfl
theorem ptbDelayedCompletion (i : Nat) : Statement (.ptbDelayedCompletion i) := ofNone rfl
theorem ptbCreditRelease (i : Nat) : Statement (.ptbCreditRelease i) := ofNone rfl
theorem holdover (source : Nat) : Statement (.holdover source) := ofNone rfl
theorem frameCrcFail (k : Nat) (why : BadFrame) : Statement (.frameCrcFail k why) := ofNone rfl
theorem frameSlot (k : Nat) : Statement (.frameSlot k) := ofNone rfl
theorem flitSlot : Statement .flitSlot := ofNone rfl
theorem vectorInstructionComplete (b : Nat) : Statement (.vectorInstructionComplete b) := ofNone rfl
theorem timedWaitDeadline (b : Nat) (f : Bool) : Statement (.timedWaitDeadline b f) := ofNone rfl
theorem hbmTrainFailed (k : Nat) : Statement (.hbmTrainFailed k) := ofNone rfl
theorem powerOff : Statement .powerOff := ofNone rfl
theorem smbusLinesHigh : Statement .smbusLinesHigh := ofNone rfl

end Sys2Proof.Laws.CoreWord
end

