-- ==== Sys2Proof/Tests/Slice0.lean ====
section
/-!
SUPPORT. Tests: ill-formed commands that the checks refuse, written-out words, the spec's worked examples and single steps; and
for every obligation a witness, a concrete state and operands that meet its hypotheses, clause by clause.
-/

set_option Elab.async false
set_option linter.unusedVariables false
open Sys2Proof Sys2Proof.Machine
namespace Sys2Proof.Tests
/-- A powered device with every block and link present, READY, its dimensions valid and a management key installed. -/
def dev : State :=
  ((((((({ State.reset with power := { Power.reset with resetN := true, pwrGood := true, refA := true, refB := true } } : State).modLid
    fun l => { l with key := some 1 }).setFlag LID_STATUS_READY true).setFlag DIM_UNITS_VALID true).setReg (DIM_BLOCK_MASK 0)
      (BitVec.allOnes 64)).setReg (DIM_BLOCK_MASK 1) (BitVec.allOnes 64)).setReg DIM_RIM_MASK 0xFFFFFFFFF).setFld DIM_SCHED_SCOREBOARD 64

/-- A device with partition 0: blocks 0 to 7 and the first GiB of HBM, with all scheduler groups led by region 0. -/
def devPart : State :=
  (((dev.setFlag (SCH_PART_CTRL_VALID 0) true).setFld (SCH_PART_CTRL_LEAD 0) 0).setFld (SCH_PART_BLOCKS0_BLOCKS 0) 255).setFld
    (SCH_PART_HBM_SIZE 0) 16384

/-- A resident context of partition 0 and home block 0. -/
def ctxOne : Ctx := { Ctx.reset with st := .resident, home := 1 }

/-- A MAIN task placed at virtual address 0x1000. -/
def taskSet : CoreSet := { CoreSet.reset with placed := true, pc := 0x1000 }

/-- Context 1 is resident on block 0 with a MAIN task, and the first 2 MiB of its addresses are mapped. -/
def onBlock : State :=
  { devPart with
    ctxs := [(1, ctxOne)]
    blks := [(0, { Blk.reset with ctx := some 1, st := { BlkState.reset with main := taskSet } })]
    tlb := [{ tag := 256, vbase := 0, len := 2 ^ 21, target := 0, pbase := 2 ^ 21, w := true, x := true }] }

/-- The same with the block's state changed. -/
def onBlockWith (g : BlkState → BlkState) : State := onBlock.modBst 0 g

/-- The same with the block changed. -/
def onBlk (g : Blk → Blk) : State := onBlock.modBlk 0 g

/-- The same with a task in the FILL set too, which is the one that issues. -/
def onFill : State := onBlockWith fun x => { x with fill := taskSet }

/-- A pair is its first component's value and its second component. -/
theorem pair_eq {α β : Type} {p : α × β} {a : α} (h : p.1 = a) : p = (a, p.2) := by
  cases p; cases h; rfl

/-- Does a result answer the value given? -/
def okIs {α : Type} [DecidableEq α] (r : Res α) (a : α) : Bool := match r with | .ok x => decide (x = a) | _ => false

/-- A result that answers a value. -/
theorem ok_eq {α : Type} [DecidableEq α] {r : Res α} {a : α} (h : okIs r a = true) : r = .ok a := by
  cases r <;> simp_all [okIs]

/-- Does a result fault with the code given? -/
def faultIs {α : Type} (r : Res α) (e : Nat) : Bool := match r with | .fault x => x == e | _ => false

/-- A result that faults. -/
theorem fault_eq {α : Type} {r : Res α} {e : Nat} (h : faultIs r e = true) : r = .fault e := by
  cases r <;> simp_all [faultIs]

/-- Must a result wait? -/
def waits {α : Type} (r : Res α) : Bool := match r with | .wait => true | _ => false

/-- A result that must wait. -/
theorem wait_eq {α : Type} {r : Res α} (h : waits r = true) : r = .wait := by
  cases r <;> simp_all [waits]

/-- Does a translation answer the value given? -/
def xokIs {α : Type} [DecidableEq α] (r : Except Nat α) (a : α) : Bool := match r with | .ok x => decide (x = a) | _ => false

/-- A translation that answers a value. -/
theorem xok_eq {α : Type} [DecidableEq α] {r : Except Nat α} {a : α} (h : xokIs r a = true) : r = .ok a := by
  cases r <;> simp_all [xokIs]

/-- Does a translation fault with the code given? -/
def xerrIs {α : Type} (r : Except Nat α) (e : Nat) : Bool := match r with | .error x => x == e | _ => false

/-- A translation that faults. -/
theorem xerr_eq {α : Type} {r : Except Nat α} {e : Nat} (h : xerrIs r e = true) : r = .error e := by
  cases r <;> simp_all [xerrIs]

/-- A WEAVE of two rows on slot 0. -/
def opTwo : WeaveOp :=
  { f := false, ticket := 1, rows := 2, slot := 0, wfmt := 0, sfmt := 0, aset := 0, acc := false, skip := false, wide := false, kg := 1,
    nc := 0, row0 := 0, sig := 0, exp := 0x100000, order := 0 }

/-- It runs, with its first row still to be written. -/
def runTwo : WeaveRun := ⟨opTwo, 0, 0, false, false, false, false⟩

/-- A self-test of the array that runs. -/
def testOne : ArrTest := ⟨.planeBus, 3, 2, 0, true, false⟩

/-- A device that holds its management key. -/
def devKey : State := devPart.modLid fun l => { l with key := some 1 }

/-- A coil packet of the given kind for entry 0, with its AUX. -/
def coilPkt (kind aux : Nat) : Pkt :=
  { ptype := 1, hops := 0, dst := 0, src := 9, tag := 256, poison := false, opid := 2 ^ 31 + kind * 2 ^ 27, stamp := 0, offset := 0,
    aux := aux, data := List.replicate 256 0 }

/-- Coil entry 0 is enabled with ring size 6, position 0, four pages and the state given; the packet stands in link 3's
ingress buffer. -/
def coilDev (st : Nat) (p : Pkt) : State :=
  (((((onBlock.setFlag (COL_CTRL_EN 0) true).setFld (COL_CTRL_SIZE 0) 6).setFld (COL_CTRL_CONTEXT 0) 1).setFld (COL_IMAGE_PAGES 0)
    4).setFld (COL_STATUS_STATE 0) st).modLink 3 fun l => { l with ingress := [(p, 7)] }

/-- Queue 5 of context 1, bound at virtual address 0x2000 with 16 slots, and its entry 0 waiting in memory. -/
def queueFive : Queue := { Queue.reset with base := 0x2000, ctx := 1, sizeLog2 := 4, tail := 1, st := .run }

/-- A device with that queue. -/
def withQueue (x : Queue) : State := onBlock.setQueue 5 x

/-- A task entry of four arguments without dependencies. -/
def entryZero : Entry := ⟨0, 0x1000, [1, 2, 3, 4], [], 0, true⟩

/-- Slot 2 of block 0 is reloaded from an origin whose CRC is that of a slot without columns. -/
def reloading : State :=
  onBlk fun k => { k with reload := some 2, st := { k.st with origin := [(2, { Origin.reset with st := .valid, crc := cellsCrc [] })] } }

/-- The reload of that slot succeeds. -/
theorem reloading_succeeds : reloading.reloadSlot 0 2 = (some true, (reloading.reloadSlot 0 2).2) := by
  have h : ∃ t, reloading.reloadSlot 0 2 = (some true, t) := by
    have h : (reloading.blk 0).ctx = some 1 := rfl
    have h1 : ((reloading.bst 0).originOf 2) = { Origin.reset with st := .valid, crc := cellsCrc [] } := rfl
    unfold State.reloadSlot
    simp only [h, h1]
    exact ⟨_, if_pos rfl⟩
  obtain ⟨t, h⟩ := h
  rw [h]

/-- A packet that passes the border leaves the state as it was. -/
theorem border_true {s : State} {pk : Pkt} (h : (s.border pk).1 = true) : s.border pk = (true, s) := by
  revert h
  unfold State.border
  simp only
  split
  · simp
  · split
    · simp
    · split
      · simp
      · simp

/-- The servo has been locked, and the estimate stands at one second. -/
def locked (s : State) : State := { s with servo := { s.servo with everLocked := true, est := 10 ^ 9 * 2 ^ 32 } }

/-- Link 5 has a valid time source. -/
def sourced : State := { locked dev with sources := [(5, { Source.reset with valid := true, hops := 1 })] }

/-- The queue's entry starts with a byte that makes its pc odd. -/
def withQueueBytes : State := { withQueue queueFive with hbm := [(2 ^ 21 + 0x2000, 1)] }

/-- Coil entry 0 is described whole: four pages in one extent, mirror, parity and control pages in the partition's memory, and
a member list whose first word names this device and context 1. -/
def coilReady : State :=
  { (((((onBlock.setFld (COL_IMAGE_PAGES 0) 4).setFld (COL_IMAGE_BASE 0) 1).setFld (COL_MEMBERS_BASE 0) 2).setFld (COL_MIRROR_BASE 0)
      16).setFld (COL_PARITY_BASE 0) 32).setFld (COL_CONTROL_BASE 0) 48 with
    hbm := [(4099, 1), (4101, 4), (8195, 1)] }

/-- A packet of the given type for context 1, from rank 1. -/
def pktOne (t tag opid : Nat) : Pkt :=
  { ptype := t, hops := 0, dst := 0, src := 9, tag := tag, poison := false, opid := opid, stamp := 0, offset := 0, aux := 1,
    data := List.replicate 8 5 }

/-- The packet stands in link 3's ingress buffer. -/
def inIngress (s : State) (p : Pkt) : State := s.modLink 3 fun l => { l with ingress := [(p, 7)] }

/-- A plait descriptor at virtual address 0x4000, ALL_GATHER with the flags given, its group table of one rank at 0x5000, and a
PLAIT for it at the front of block 0's plait queue. -/
def plaitDev (flags : BitVec 8) : State :=
  { onBlk (fun k => { k with pq := [⟨false, false, 1, 0x4000, 256, 0⟩] }) with
    hbm := [(2 ^ 21 + 0x4000, 2), (2 ^ 21 + 0x4003, flags), (2 ^ 21 + 0x4009, 0x50), (2 ^ 21 + 0x4030, 1), (2 ^ 21 + 0x5000, 1),
      (2 ^ 21 + 0x5013, 1)] }

/-- A descriptor with the given operation, receive buffer 0x8000. -/
def descOne (op : Nat) : Desc :=
  { op := op, red := 0, dtype := 2, flags := 0, hold := 0, root := 0, groupVa := 0x5000, sendVa := 0x6000, recvVa := 0x8000, countsVa := 0,
    units := 2, unitElems := 4, deadline := 5, stageVa := 0, step := 0, opid := 7, bufid := 0, versionVa := 0, versionsVa := 0,
    statsVa := 0, tensor := 0, statTag := 0, mode := 0, reservedZero := true }

/-- An operation of two ranks that this device's context 1 is rank 0 of. -/
def opOne (op : Nat) (ended : Bool) : PlaitOp :=
  { desc := descOne op, ctx := 1, tag := 256, blk := 0, f := false, ticket := 1, acceptedAt := 0, deadline := 5, myRank := 0,
    group := [(0, 256), (9, 256)], counts := [4, 4], owner := op == 0, holdPending := false, got := [], late := [], parts := [],
    lastArrival := 0, poisoned := false, waitEnded := ended, summaries := [], results := [], versions := [], tracker := 2, endDue := false }

/-- The operation runs in engine slot 7, and its deadline is long over. -/
def withOp (o : PlaitOp) : State := (locked onBlock).setPlaitSlot 7 (some o)

/-- The operation that a descriptor gives, where it gives one. -/
def opGet (r : Res PlaitOp) : PlaitOp := match r with | .ok o => o | _ => opOne 2 false

/-- A move of two rows of 64 bytes in block-local memory. -/
def moveTwo : Move :=
  { id := 3, blk := 0, ctx := 0, tag := 256, f := false, ticket := 1, kind := 0, src := 0x1000, dst := 0x2000, srcVirt := false,
    dstVirt := false, rows := 2, len := 8192, srcStride := 8192, dstStride := 8192, row := 0, col := 0, poisonRow := none,
    paused := false, dest := none, got := none, again := 0, olds := [] }

/-- Scalar registers of the MAIN set on block 0. -/
def withRegs (l : List (Nat × Word)) : State := onBlock.modSet 0 false fun x => { x with s := l }

/-- The Josil link in the state given, with lanes 0 to 15 good. -/
def jslDev (st : Nat) : State := (dev.setFld JSL_STATUS_STATE st).setFld JSL_STATUS_RX_GOOD 0xFFFF

/-- The training sets of sixteen lanes that arrive in order, of a companion whose transmitters all see signal. -/
def goodLanes : List (List Byte) := (List.range 16).map fun i => TrainSet.bytes ⟨i, 1, 0xFFFF, 16⟩

/-- A flit with the given sequence number, as it is read. -/
def flitRead (payload : Bool) (seq : Nat) : OutFlit := ⟨payload, false, false, seq, 0, 0, 0, 0, []⟩

/-- Its 256 bytes, as they arrive. -/
def flitOne (payload : Bool) (seq : Nat) : Flit := ⟨(flitRead payload seq).bytes, true⟩

/-- A flit as sent. -/
def outOne : OutFlit := ⟨true, false, false, 5, 0, 0, 0, 0, []⟩

/-- A header of a Josil message. -/
def hdrOne (opc addr : Nat) : JHdr := ⟨opc, false, false, false, false, 0, 4, 256, addr, 0⟩

/-- A received message. -/
def msgOne (opc addr : Nat) : JMsg := ⟨1, hdrOne opc addr, 0, []⟩

/-- The message waits to act, and the device has the outstanding requests given. -/
def withMsg (m : JMsg) (l : List JReq) : State := onBlock.modJosil fun j => { j with inbox := [m], reqs := l }

/-- An outstanding request. -/
def reqOne (who : JWho) : JReq := ⟨4, 256, false, 1, 0x1000, 128, 0, who⟩

/-- A management datagram of the given type and payload length, with the tag given. -/
def dgBytes (type len seq : Nat) (tag : List Byte) : List Byte :=
  [0x4D, 0x48, 1, BitVec.ofNat 8 type] ++ leBytes len 2 ++ [0, 1] ++ leBytes seq 8 ++ List.replicate 16 0 ++ List.replicate len 0 ++ tag

/-- A datagram whose tag verifies under key 1. -/
def dgSigned (type len seq : Nat) : Datagram :=
  ⟨dev.mgtAddr 0, dev.fld MGT_CTRL_UDP_PORT, dgBytes type len seq (kmac256 (bytes32 1) (dgBytes type len seq []) ("Izzia mgmt".toUTF8.toList.map fun u => BitVec.ofNat 8 u.toNat))⟩

/-- Debug authority is enabled. -/
def debugDev : State := dev.setFlag LID_AUTH_DEBUG_EN true

/-- The early buffer is all but full: one packet of 4 MiB less 32 bytes of header and 8 bytes. -/
def fullEarly : State :=
  { onBlock with early := (List.replicate 100 ⟨{ pktOne 1 256 8 with data := List.replicate 42000 0 }, 7⟩) }

/-- The device has the step recorder. -/
def rplDev : State := onBlock.setFlag DIM_UNITS_STEP_REPLAY true
theorem leBytes_length (n k : Nat) : (leBytes n k).length = k := by
  induction k generalizing n with
  | zero => rfl
  | succ k ih => simp [leBytes, ih]

/-- KMAC256 gives 32 bytes. -/
theorem kmac256_length (key m cust : List Byte) : (kmac256 key m cust).length = 32 := by
  have sq : ∀ a, (squeeze a 1).length = 136 := fun a => by simp [squeeze, leBytes_length]
  simp only [kmac256, sponge256, List.length_take]
  rw [show (32 + 135) / 136 = 1 from rfl, sq]
  rfl

/-- The tag that key 1 gives a datagram's header and payload. -/
def dgTag (type len seq : Nat) : List Byte :=
  kmac256 (bytes32 1) (dgBytes type len seq []) ("Izzia mgmt".toUTF8.toList.map fun u => BitVec.ofNat 8 u.toNat)

/-- A datagram that carries that tag verifies on a device whose key is 1. -/
theorem dgSigned_verifies {s : State} (type len seq : Nat) (k : s.lid.key = some 1)
    (h : ∀ tag, dgAt (dgBytes type len seq tag) 4 2 = len) : s.tagVerifies (dgSigned type len seq).bytes = true := by
  have e : ∀ tag, dgBytes type len seq tag = dgBytes type len seq [] ++ tag := by simp [dgBytes]
  have n : (dgBytes type len seq []).length = 32 + len := by simp [dgBytes, leBytes_length]; omega
  have d : (dgSigned type len seq).bytes = dgBytes type len seq [] ++ dgTag type len seq := e _
  unfold State.tagVerifies
  rw [k, d]
  simp only [← e, h]
  simp only [e (dgTag type len seq), ← n, List.take_left, List.drop_left]
  exact beq_self_eq_true _

/-- It has the shape of a datagram. -/
theorem dgSigned_shape (type len seq : Nat) (h : ∀ tag, dgAt (dgBytes type len seq tag) 4 2 = len)
    (h1 : ∀ tag, dgAt (dgBytes type len seq tag) 0 2 = 0x484D) (h2 : ∀ tag, dgAt (dgBytes type len seq tag) 2 1 = 1)
    (h3 : len ≤ 1380) : isDatagram (dgSigned type len seq).bytes = true := by
  have n : (dgSigned type len seq).bytes.length = 64 + len := by
    simp [dgSigned, dgBytes, leBytes_length, kmac256_length]; omega
  simp only [isDatagram, n]
  simp only [dgSigned, h, h1, h2]
  simp [h3]

/-- A PLAIT whose descriptor's address is odd. -/
def plaitOdd : PlaitIssue := ⟨false, false, 1, 0x4001, 256, 0⟩

/-- A PLAIT of the descriptor at 0x4000. -/
def plaitOne : PlaitIssue := ⟨false, false, 1, 0x4000, 256, 0⟩

/-- Link 3 in the state given, enabled. -/
def rimDev (st : Nat) : State := (dev.setFld (RIM_STATUS_STATE 3) st).setFlag (RIM_CTRL_EN 3) true

/-- The same with the link's state changed. -/
def rimWith (st : Nat) (g : Link → Link) : State := (rimDev st).modLink 3 g

/-- A frame without packets. -/
def frameOne (seq : Nat) (nak : Bool) : Frame := ⟨seq, 0, nak, false, 0, 3, 0, []⟩

/-- A HELLO. -/
def helloOne : Hello := ⟨3, 5, false, false, 0, 0, 0, 1, 0, 0, 0, 0, 0, 0⟩

/-- The register that an offset names. -/
def idReg : RegSpec × List Nat := (findReg regTable DIM_ID).get (by decide +kernel)

/-- The register of the epoch, which a write acts on. -/
def epochReg : RegSpec × List Nat := (findReg regTable FTU_EPOCH).get (by decide +kernel)

/-- The aperture of the control registers and of HBM trained, with a message that waits. -/
def apDev (m : JMsg) : State := ((dev.setFlag (HBM_STATUS_TRAINED 0) true).setFld JSL_STATUS_STATE 4).modJosil fun j => { j with inbox := [m] }

/-- An access of 8 bytes by the companion. -/
def accessOne (opc addr : Nat) : JMsg := ⟨3, ⟨opc, false, true, false, false, 8, 4, 0, addr, 0⟩, 0, List.replicate 8 0⟩

/-- The lid runs upsett, at the step given. -/
def upDev (step : Nat) : State := (dev.setFld LID_STATUS_STEP step).modLid fun l => { l with upsett := true }

/-- A STAKE.LD in the stake queue. -/
def stakeOne (load started : Bool) : StakeOp :=
  { load := load, f := false, ticket := 1, slot := 3, count := 1, fmt := 0, space := false, sig := 0, exp := 0, stride := 0, nc := 0, kg := 1,
    order := 0, started := started }

/-- The time by a block's copy is not ahead of fabric time. -/
theorem blockNow_le (s : State) (b : Nat) : s.blockNow b ≤ s.now := by
  unfold State.blockNow
  split <;> omega

/-- A device without operations has none that waits for its hold. -/
theorem no_slot (slot : Nat) (o : PlaitOp) (h : dev.plaitSlot slot = some o) : o.holdPending = false :=
  absurd (show (none : Option PlaitOp) = some o from h) (by simp)

/-- A vector length of 1 on block 0. -/
def onVec : State := onBlockWith fun x => { x with vl := 1 }

/-- The same with scalar registers. -/
def onVecRegs (l : List (Nat × Word)) : State := onVec.modSet 0 false fun x => { x with s := l }

/-- An entry of the vector queue. -/
def entryOne (t : Option Nat) (code : Nat) : VEntry := ⟨false, t, 0x1000, code, false⟩

/-- Tickets of the MAIN set on block 0 that are BUSY. -/
def withBusy (l : List Nat) : State := onBlock.modSet 0 false fun x => { x with tk := l.map fun t => (t, ⟨.busy, 1, 0, 0⟩) }

/-- A request of 64 bytes that waits at one arbiter. -/
def arbReqOne (i : ArbId) (n : Nat) : ArbReq := ⟨[⟨i, n, 0, 64⟩], 0, 0, false, none⟩

/-- Requester 1 requests at the first chip arbiter. -/
def arbDev : State := { dev with arbReqs := [arbReqOne (.chip 0) 1] }

/-- Map 1 is active, and a packet without a route waits for one. -/
def mapDev : State :=
  { dev.setFld RPT_GLOBAL_ACTIVE 1 with ports := [(12, [⟨pktOne 1 256 7, 1, none, none, false⟩])] }

/-- Its packets are the device's own, and no route of map 0 takes them. -/
theorem mapDev_routes (port : Nat) (h : port < 13) (q : QPkt) (hq : q ∈ mapDev.port port) :
    q.from_ = none ∧ ∀ k, mapDev.routeOf 0 q.pk.dst = some k → mapDev.portAllowed q.ctxTag k = true := by
  have a : ∀ p < 13, ∀ x ∈ mapDev.port p, x.from_ = none ∧ mapDev.routeOf 0 x.pk.dst = none := by decide +kernel
  exact ⟨(a port h q hq).1, fun k hk => absurd (hk.symm.trans (a port h q hq).2) (by simp)⟩

/-- A frame of stack 7 is under test. -/
def testDev : State := { dev with frameTests := [⟨7, 5, false, true⟩] }

/-- Block 0's stake banks are under test, and slot 0 has an origin. -/
def stakeTest : State :=
  onBlk fun k => { k with arrTest := some { testOne with site := .stakeBank },
                          st := { k.st with origin := [(0, { Origin.reset with st := .valid })] } }

/-- A result that does not wait. -/
theorem not_wait {α : Type} {r : Res α} (h : waits r = false) : r ≠ .wait := by
  rintro rfl
  simp [waits] at h

/-- The context's addresses lie in companion memory. -/
def away (s : State) : State :=
  { s with tlb := [{ tag := 256, vbase := 0, len := 2 ^ 21, target := 1, pbase := 2 ^ 21, w := true, x := true }] }

/-- The same but for the pages of a plait descriptor and of its group table. -/
def sendAway (s : State) : State :=
  { s with tlb := [{ tag := 256, vbase := 0x4000, len := 2 ^ 13, target := 0, pbase := 2 ^ 21 + 0x4000, w := true, x := true },
                   { tag := 256, vbase := 0, len := 2 ^ 14, target := 1, pbase := 2 ^ 21, w := true, x := true }] }

/-- A device whose first PTP source is in use, with the offset given. -/
def ptpDev (s : State) (off : Int) : State :=
  { s.setFlag FTU_CTRL_PTP0_EN true with sources := [(36, { Source.reset with valid := true, offset := off })] }

/-- The PLAIT gathers two elements, which lie in companion memory. -/
def plaitSend : State :=
  sendAway { plaitDev 0 with hbm := (2 ^ 21 + 0x4028, 1) :: (2 ^ 21 + 0x402C, 2) :: (plaitDev 0).hbm }

/-- The same, where the page that the message writes is in an open checkpoint's snapshot, and held. -/
def heldAp (m : JMsg) : State :=
  { (apDev m).setFld (COL_STATUS_STATE 0) 3 with coils := [(0, { Coil.reset with extents := [(4, 2 ^ 21)], snap := [(0, true)] })] }

/-- A context that has been blocked since fabric time 0. -/
def blockedDev : State :=
  { devPart.setFld SCH_CTRL_BLOCKED_NS 0 with ctxs := [(1, { ctxOne with stallSince := some (0, 0) })] }

/-- Link 3 is UP and has a CREDIT packet to send. -/
def creditDev : State :=
  (rimDev 5).setPort (creditPort 3) [⟨pktOne 8 0 0, 0, none, none, false⟩]

/-- The Josil link has one slot to send. -/
def slotDev : State := (jslDev 4).modJosil fun j => { j with txSlots := [List.replicate 16 0] }

/-- A change of a link's own state leaves every register. -/
theorem modLink_reg (s : State) (k : Nat) (g : Link → Link) : (s.modLink k g).reg = s.reg := rfl

/-- A counter of corrected symbols is no state of a link. -/
theorem counted_linkState (s : State) (k n : Nat) :
    (s.count (RIM_COUNT1_FEC_CORRECTED k) n).fld (RIM_STATUS_STATE k) = s.fld (RIM_STATUS_STATE k) := by
  have h : (RIM_STATUS_STATE k).off ≠ (RIM_COUNT1_FEC_CORRECTED k).off := by
    simp only [RIM_STATUS_STATE, RIM_COUNT1_FEC_CORRECTED, RIM_STATUS, RIM_COUNT1]; omega
  unfold State.count
  exact fld_setFld_ne s _ _ _ (by decide : (32 : Nat) ≤ 63) (by decide : (63 : Nat) < 64) (Or.inl h)

/-- A state of the same registers shows the same link state. -/
theorem linkState_of_reg {s t : State} (k : Nat) (h : s.reg = t.reg) : s.linkState k = t.linkState k := by
  unfold State.linkState State.fld; rw [h]

/-- A frame that acknowledges leaves its link's state. -/
theorem acked_linkState (s : State) (k ack : Nat) :
    (((s.frameIn k).modLink k fun l => { l with consec := 0 }).rxAck k ack false).linkState k = s.linkState k := by
  refine Eq.trans ?_ (counted_linkState s k (Config.fecCorrected k (s.link k).rxFrames))
  refine linkState_of_reg k ?_
  have h : ((s.frameIn k).modLink k fun l => { l with consec := 0 }).reg =
      (s.count (RIM_COUNT1_FEC_CORRECTED k) (Config.fecCorrected k (s.link k).rxFrames)).reg := by
    unfold State.frameIn; rw [modLink_reg, modLink_reg]
  unfold State.rxAck
  split
  · exact h
  · rw [if_neg Bool.false_ne_true, State.release, modLink_reg]; exact h

/-- The frame that holds HBM address `a` is under test. -/
def testing (a : Nat) (s : State) : State := { s with frameTests := [⟨(s.frameOf a).1, (s.frameOf a).2, false, false⟩] }

/-- The lid has fetched just these bytes for its command. -/
def lidHas (op : Nat) (l : List Byte) : State :=
  (dev.setFlag LID_CMD_DONE false).modLid fun x => { x with fetch := some ⟨op, 0, 0, l, true⟩ }

/-- A repair table of one record, which takes a block out of service; the digest in it is the device's, 0. -/
def repairBytes (unit : Nat) : List Byte :=
  leBytes 0x52504154 4 ++ leBytes 1 4 ++ List.replicate 56 0 ++ leBytes 4 2 ++ leBytes unit 2 ++ leBytes 0 4 ++ leBytes ARR_UNREPAIRABLE 8

/-- A fault that a set of a block has met. -/
def errOne (kind : Nat) : CoreErr := ⟨256, kind, 0x0581, 0x1000, 7⟩

/-- Block 0 with a fault in its MAIN set. -/
def faultDev (kind : Nat) : State := onBlock.modSet 0 false fun x => { x with fault := some (errOne kind) }

/-- The cache holds line 5, as given. -/
def lineDev (l : Line) : State := (jslDev 4).modJosil fun j => { j with lines := [(5, l)] }

/-- A flit's fields, as they stand in its bytes. -/
def flitFields (l : List Byte) : OutFlit :=
  let at_ (o n : Nat) : Nat := leNat ((l.drop o).take n)
  ⟨at_ 0 1 % 4 == 1, bitOf (at_ 1 1) 0, bitOf (at_ 1 1) 1, at_ 2 2 % 4096, at_ 4 2 % 4096, at_ 6 2, at_ 8 2, at_ 10 2,
    (List.range 15).map fun i => (l.drop (12 + 16 * i)).take 16⟩

theorem leNat_leBytes (n k : Nat) : leNat (leBytes n k) = n % 256 ^ k := by
  induction k generalizing n with
  | zero => simp [leBytes, leNat, Nat.mod_one]
  | succ k ih =>
    have h : n % 256 ^ (k + 1) = n % 256 + 256 * (n / 256 % 256 ^ k) := by rw [Nat.pow_succ, Nat.mul_comm, Nat.mod_mul]
    simp only [leBytes, leNat, ih, h, BitVec.toNat_ofNat]

/-- The CRC-32C of any 252 bytes, put behind them, makes a flit that is read. -/
theorem flit_reads (B : List Byte) (h : B.length = 252) (t : leNat (B.take 1) % 4 ≤ 1) :
    flitFrom (B ++ leBytes (crc32c B).toNat 4) = some (flitFields (B ++ leBytes (crc32c B).toNat 4)) := by
  have e : (B ++ leBytes (crc32c B).toNat 4).take 252 = B := by rw [← h, List.take_left]
  have d : (B ++ leBytes (crc32c B).toNat 4).drop 252 = leBytes (crc32c B).toNat 4 := by rw [← h, List.drop_left]
  have l : (leBytes (crc32c B).toNat 4).length = 4 := leBytes_length _ _
  have g : (B ++ leBytes (crc32c B).toNat 4).take 1 = B.take 1 := List.take_append_of_le_length (by omega)
  have n : leNat ((leBytes (crc32c B).toNat 4).take 4) = (crc32c B).toNat := by
    rw [List.take_of_length_le (by omega), leNat_leBytes]; exact Nat.mod_eq_of_lt (crc32c B).isLt
  unfold flitFrom
  simp only [e, d, n, List.drop_zero, g, List.length_append, h, l]
  rw [if_pos (by simp [t])]
  simp only [flitFields, List.drop_zero, g]

/-- The flit with the given sequence number is read. -/
theorem flitOne_reads (payload : Bool) (seq : Nat) : flitFrom (flitOne payload seq).bytes = some (flitFields (flitOne payload seq).bytes) :=
  flit_reads _ (by simp only [flitRead, List.length_append, leBytes_length, List.length_take, List.length_replicate]; simp)
    (by cases payload <;> exact Nat.le_of_ble_eq_true rfl)

/-- The rows that a result gives, where it gives some. -/
def rowsGet (r : Res (List (Option (List (Nat × Bool))))) : List (Option (List (Nat × Bool))) := match r with | .ok x => x | _ => []

/-- The end of the operation's wait has come. -/
def dueOp (op : Nat) (ended : Bool) : PlaitOp := { opOne op ended with endDue := true }

/-- A carried contribution of rank 1 is to come, and the frame of its place is under test. -/
def carryWait : State := testing (2 ^ 21) { onBlock with carries := [⟨opOne 0 true, [(1, 0, 0)]⟩] }

/-- A reduction of integers. -/
def intDesc (red : Nat) : Desc := { descOne 0 with dtype := 7, red := red }

/-- An operation that reduces integers. -/
def intOp : PlaitOp := { opOne 0 true with desc := intDesc 0 }

/-- A reduction that this device makes for itself alone. -/
def loneOp : PlaitOp := { opOne 0 false with owner := false }

/-- The summary that a result gives. -/
def sumGet (r : Res Summary) : Summary := match r with | .ok d => d | _ => ⟨0, 0, false, false, false⟩

/-- Context 1 comes to block 0, in the phase given. -/
def incomingDev (ph : SwPhase) : State :=
  { devPart with ctxs := [(1, ctxOne)], blks := [(0, { Blk.reset with incoming := some 1, phase := ph })] }

/-- The quarantine of context 2 fills the table. -/
def fullQuar : State :=
  { onBlock with ctxs := [(1, ctxOne), (2, { ctxOne with quar := List.replicate 4096 ⟨0, 65536, 0, false⟩ })] }

/-- A move to virtual addresses. -/
def moveVirt : Move := { moveTwo with dstVirt := true }

/-- The hypotheses of `Obligations.ArbitrationRules`, clause by clause. -/
theorem witness_ArbitrationRules :
    (∃ (i : ArbId) (reqs : List (Nat × Nat)) (s : State) (w : Nat × Nat), s.arbPick i reqs = some w) ∧
    (∃ (i : ArbId) (reqs : List (Nat × Nat)) (s : State) (w : Nat × Nat) (q : Nat × Nat), s.arbPick i reqs = some w ∧ q ∈ reqs
      ∧ arbServes i q.fst = true ∧ s.arbMasked i q.fst = false ∧ s.arbPrio i q.fst = true) ∧
    (∃ (i : ArbId) (reqs : List (Nat × Nat)) (s : State) (w : Nat × Nat) (q : Nat × Nat), s.arbPick i reqs = some w ∧ q ∈ reqs
      ∧ arbServes i q.fst = true ∧ s.arbMasked i q.fst = false ∧ s.arbPrio i q.fst = s.arbPrio i w.fst) ∧
    (∃ (i : ArbId) (reqs : List (Nat × Nat)) (s : State) (w : Nat × Nat) (q : Nat × Nat), s.arbPick i reqs = some w ∧ q ∈ reqs
      ∧ arbServes i q.fst = true ∧ s.arbMasked i q.fst = false ∧ s.arbPrio i q.fst = s.arbPrio i w.fst ∧ satAge q.snd = satAge
      w.snd) ∧
    (∃ (i : ArbId) (n : Nat) (s : State) (r : ArbReq), r ∈ s.arbReqs ∧ (r.hops.any fun (h : Hop) => arbKey h.arb == arbKey i
      && h.idx == n) = true) ∧
    (∃ (i : ArbId) (s : State) (n : Nat), s.powered = true ∧ s.arbPresent i = true ∧ s.emergency i = none ∧ (s.arb (arbKey
      i)).emergency = none ∧ s.arbOpen i = false ∧ (s.arb (arbKey i)).owner = some n) ∧
    (∃ (i : ArbId) (new : List ArbNew) (s : State) (w : Nat × Nat), s.powered = true ∧ s.arbPresent i = true ∧ s.emergency i =
      none ∧ (s.arb (arbKey i)).emergency = none ∧ s.arbOpen i = true ∧ s.ptb.flag PTB_CTRL_EN = false ∧ (s.arb (arbKey
      i)).owner = none ∧ (s.enter i new).arbPick i (List.filter (fun (q : Nat × Nat) => (s.enter i new).portOpen i q.fst)
      ((s.enter i new).requesters i)) = some w) ∧
    (∃ (i : ArbId) (new : List ArbNew) (s : State), s.powered = true ∧ s.arbPresent i = true ∧ s.emergency i = none ∧ (s.arb
      (arbKey i)).emergency = none ∧ s.arbOpen i = true ∧ s.ptb.flag PTB_CTRL_EN = false ∧ (s.arb (arbKey i)).owner = none ∧
      (s.enter i new).arbPick i (List.filter (fun (q : Nat × Nat) => (s.enter i new).portOpen i q.fst) ((s.enter i
      new).requesters i)) = none) ∧
    (∃ (i : ArbId) (s : State) (n : Nat), s.powered = true ∧ s.arbPresent i = true ∧ s.emergency i = none ∧ (s.arb (arbKey
      i)).emergency = none ∧ s.arbOpen i = true ∧ s.ptb.flag PTB_CTRL_EN = false ∧ (s.arb (arbKey i)).owner = some n ∧
      s.requestsAt i n = true ∧ (s.transfer i n).snd.requestsAt i n = true ∧ ((s.transfer i n).fst = false ∨ (s.arb (arbKey
      i)).expired = false ∧ (s.arb (arbKey i)).beats + 1 < (s.arb (arbKey i)).limit)) ∧
    (∃ (i : ArbId) (s : State) (n : Nat), s.powered = true ∧ s.arbPresent i = true ∧ s.emergency i = none ∧ (s.arb (arbKey
      i)).emergency = none ∧ s.arbOpen i = true ∧ s.ptb.flag PTB_CTRL_EN = false ∧ (s.arb (arbKey i)).owner = some n ∧
      s.requestsAt i n = true ∧ ((s.transfer i n).snd.requestsAt i n = false ∨ (s.transfer i n).fst = true ∧ ((s.arb (arbKey
      i)).expired = true ∨ (s.arb (arbKey i)).limit ≤ (s.arb (arbKey i)).beats + 1))) ∧
    (∃ (i : ArbId) (s : State) (n : Nat), s.powered = true ∧ s.arbPresent i = true ∧ s.emergency i = none ∧ (s.arb (arbKey
      i)).emergency = none ∧ s.arbOpen i = true ∧ s.ptb.flag PTB_CTRL_EN = false ∧ (s.arb (arbKey i)).owner = some n ∧
      s.requestsAt i n = false) ∧
    (∃ (i : ArbId) (e : Nat) (s : State), s.emergencyTakes i = some e) ∧
    (∃ (i : ArbId) (s : State), (s.arb (arbKey i)).emergency = none ∧ s.emergencyTakes i = none) ∧
    (∃ (i : ArbId) (s : State) (e : Nat), (s.arb (arbKey i)).emergency = none ∧ s.emergencyTakes i = some e) ∧
    (∃ (i : ArbId) (n : Nat) (o : Nat) (s : State), (s.arb (arbKey i)).owner = some n ∧ (s.arb (arbKey i)).emergency = some
      (some o)) ∧
    (∃ (i : ArbId) (s : State), s.powered = true ∧ s.arbPresent i = true ∧ (s.arb (arbKey i)).owner.isSome = true ∧ (s.arb
      (arbKey i)).emergency = none ∧ (s.arb (arbKey i)).limit ≤ (s.arb (arbKey i)).beats) ∧
    (∃ (i : ArbId) (n : Nat) (s : State), s.powered = true ∧ s.arbPresent i = true ∧ n < 64 ∧ s.arbPrio i n = true ∧ bitOf
      (BitVec.toNat (s.reg (arbOff i + 16))) n = false ∧ s.arbMasked i n = true) ∧
    (∃ (a : Auth) (p : Path) (i : ArbId) (s : State), s.reaches a p (arbOff i) ∧ s.arbPresent i = true) ∧
    (∃ (a : Auth) (p : Path) (i : ArbId) (v : Word) (s : State), s.reaches a p (arbOff i) ∧ s.arbPresent i = true ∧ bitOf
      (BitVec.toNat v) 4 = true ∧ (a = Auth.operator ∨ a = Auth.driver ∧ ∃ (b : Nat), ∃ (q : Nat), s.blockPart b = some q ∧
      s.driverOwns q = true ∧ ((∃ (n : Nat), ∃ (wr : Bool), i = ArbId.block b n wr) ∨ ∃ (row : Nat), ∃ (wr : Bool), i =
      ArbId.cell b row wr))) :=
  ⟨⟨.block 127 20 true, [(1, 5), (10, 5)], dev, (1, 5), (by decide +kernel)⟩,
   ⟨.chip 0, [(1, 5), (2, 7)], dev.setReg (SCH_ARB_CFG 0 + 8) 2, (1, 5), (1, 5), (by decide +kernel)⟩,
   ⟨.chip 0, [(1, 5), (2, 7)], dev, (2, 7), (1, 5), (by decide +kernel)⟩,
   ⟨.chip 0, [(1, 2 ^ 32), (2, 2 ^ 32 - 1)], dev, (1, 2 ^ 32), (2, 2 ^ 32 - 1), (by decide +kernel)⟩,
   ⟨.chip 0, 1, arbDev, arbReqOne (.chip 0) 1, (by decide +kernel)⟩,
   ⟨.chip 0, dev.modArb (SCH_ARB_CFG 0) (fun a => { a with owner := some 5, used := (0, 1) }), 5, (by decide +kernel)⟩,
   ⟨.chip 0, [⟨[⟨.chip 0, 2, 0, 64⟩], 0⟩], arbDev, (1, 0), (by decide +kernel)⟩,
   ⟨.chip 0, [], dev, (by decide +kernel)⟩,
   ⟨.chip 0, ({ dev with arbReqs := [⟨[⟨.chip 0, 1, 0, 512⟩], 0, 0, false, none⟩] } : State).modArb (SCH_ARB_CFG 0) (fun a =>
     { a with owner := some 1 }), 1, (by decide +kernel)⟩,
   ⟨.chip 0, arbDev.modArb (SCH_ARB_CFG 0) (fun a => { a with owner := some 1 }), 1, (by decide +kernel)⟩,
   ⟨.chip 0, dev.modArb (SCH_ARB_CFG 0) (fun a => { a with owner := some 1 }), 1, (by decide +kernel)⟩,
   ⟨.chip 0, 62, ({ dev with arbReqs := [arbReqOne (.chip 0) 62] } : State).setReg (SCH_ARB_CFG 0) (dev.reg (SCH_ARB_CFG 0)
     ||| 8), (by decide +kernel)⟩,
   ⟨.chip 0, dev, (by decide +kernel)⟩,
   ⟨.chip 0, ({ dev with arbReqs := [arbReqOne (.chip 0) 62] } : State).setReg (SCH_ARB_CFG 0) (dev.reg (SCH_ARB_CFG 0) |||
     8), 62, (by decide +kernel)⟩,
   ⟨.chip 0, 62, 1, dev.modArb (SCH_ARB_CFG 0) (fun a => { a with owner := some 62, emergency := some (some 1) }),
     (by decide +kernel)⟩,
   ⟨.chip 16, dev.modArb (SCH_ARB_CFG 16) (fun a => { a with owner := some 5, limit := 4, beats := 4 }), (by decide +kernel)⟩,
   ⟨.chip 0, 2, (dev.setReg (SCH_ARB_CFG 0 + 8) 4).modArb (SCH_ARB_CFG 0) (fun a =>
     { a with quota := 1, grants := [(2, 1)] }), (by decide +kernel)⟩,
   ⟨.driver, .josil, .region 3 3, dev, (by unfold State.reaches; decide +kernel)⟩,
   ⟨.operator, .mgmt0, .chip 0, 16, dev, (by unfold State.reaches; decide +kernel), (by decide +kernel), (by decide +kernel),
     (Or.inl rfl)⟩⟩

/-- The hypotheses of `Obligations.ArrayAndCoreRepair`, clause by clause. -/
theorem witness_ArrayAndCoreRepair :
    (∃ (b : Nat) (s : State) (r : WeaveRun), s.powered = true ∧ (s.bst b).run = some r ∧ (s.blk b).rowTests = [] ∧ s.fetchLost
      b = false) ∧
    (∃ (b : Nat) (slot : Nat) (s : State) (s' : State), s.powered = true ∧ (s.blk b).reload = some slot ∧ s.reloadSlot b slot
      = (some true, s')) ∧
    (∃ (b : Nat) (s : State) (t : ArrTest), s.powered = true ∧ (s.blk b).arrTest = some t ∧ t.running = true ∧ (t.site ≠
      Site.stakeBank ∨ ((s.bst b).originOf t.slot).st ≠ OriginState.valid)) ∧
    (∃ (b : Nat) (s : State) (t : ArrTest), s.powered = true ∧ (s.blk b).arrTest = some t ∧ t.running = true ∧ t.site =
      Site.stakeBank ∧ ((s.bst b).originOf t.slot).st = OriginState.valid) ∧
    (∃ (b : Nat) (s : State) (t : ArrTest), s.powered = true ∧ (s.blk b).arrTest = some t ∧ t.running = true) ∧
    (∃ (b : Nat) (s : State) (r : WeaveRun) (t : ArrTest), s.powered = true ∧ (s.bst b).run = some r ∧ (s.blk b).arrTest =
      some t ∧ s.arrLimit b ≤ r.fails) ∧
    (∃ (b : Nat) (col : Nat) (at_ : Option Nat) (old : Word) (s : State) (sr : State), s.powered = true ∧ (s.blk b).spareFill
      = some (col, at_, old) ∧ s.refill b (List.drop (at_.getD 128) (List.range 128)) = (none, sr) ∧ at_ = none) ∧
    (∃ (b : Nat) (col : Nat) (at_ : Option Nat) (old : Word) (s : State) (sr : State), s.powered = true ∧ (s.blk b).spareFill
      = some (col, at_, old) ∧ s.refill b (List.drop (at_.getD 128) (List.range 128)) = (none, sr)) ∧
    (∃ (b : Nat) (s : State), b < 128 ∧ s.powered = true ∧ s.flag (BLK_CORE_STATUS_SELFTEST b) = true) ∧
    (∃ (b : Nat) (s : State), s.powered = true ∧ s.coreLimit b ≤ (s.blk b).coreFails) :=
  ⟨⟨0, onBlockWith (fun x => { x with run := some runTwo }), runTwo, (by decide +kernel)⟩,
   ⟨0, 2, reloading, (reloading.reloadSlot 0 2).2, (by decide +kernel), (by decide +kernel), (reloading_succeeds)⟩,
   ⟨0, onBlk (fun k => { k with arrTest := some testOne }), testOne, (by decide +kernel)⟩,
   ⟨0, stakeTest, { testOne with site := .stakeBank }, (by decide +kernel)⟩,
   ⟨0, onBlk (fun k => { k with arrTest := some { testOne with site := .stakeBank } }), { testOne with site := .stakeBank },
     (by decide +kernel)⟩,
   ⟨0, onBlk (fun k => { k with arrTest := some testOne, st := { k.st with run := some { runTwo with fails := 4 } } }),
     { runTwo with fails := 4 }, testOne, (by decide +kernel)⟩,
   ⟨0, 5, none, 0, onBlk (fun k => { k with spareFill := some (5, none, 0) }), ((onBlk (fun k =>
     { k with spareFill := some (5, none, 0) })).refill 0 (List.drop (none.getD 128) (List.range 128))).2,
     (by decide +kernel), (by decide +kernel), (pair_eq (by decide +kernel)), (by decide +kernel)⟩,
   ⟨0, 5, some 3, 0, onBlk (fun k => { k with spareFill := some (5, some 3, 0) }), ((onBlk (fun k =>
     { k with spareFill := some (5, some 3, 0) })).refill 0 (List.drop ((some 3).getD 128) (List.range 128))).2,
     (by decide +kernel), (by decide +kernel), (pair_eq (by decide +kernel))⟩,
   ⟨127, dev.setFlag (BLK_CORE_STATUS_SELFTEST 127) true, (by decide +kernel)⟩,
   ⟨0, onBlk (fun k => { k with coreFails := 15 }), (by decide +kernel)⟩⟩

/-- The hypotheses of `Obligations.AttestationAndKeys`, clause by clause. -/
theorem witness_AttestationAndKeys :
    (∃ (s : State), s.flag LID_STATUS_EXHAUSTED = true ∨ s.flag LID_EPOCH_VALID = false) ∧
    (∃ (s : State), s.flag LID_STATUS_EXHAUSTED = false ∧ s.flag LID_EPOCH_VALID = true ∧ s.lid.advancing = false ∧ s.fld
      LID_EPOCH_USED < 65535) ∧
    (∃ (s : State) (fetched : Bool) (r : List Byte), s.powered = true ∧ s.lidFetched 3 fetched r = true ∧ fetched = false) ∧
    (∃ (s : State) (fetched : Bool) (r : List Byte), s.powered = true ∧ s.lidFetched 3 fetched r = true ∧ fetched = true ∧
      (leNat (List.take 1 (List.drop 32 r)) = 255 ∨ s.driverOwns (leNat (List.take 1 (List.drop 32 r))) = true)) ∧
    (∃ (s : State) (fetched : Bool) (r : List Byte), s.powered = true ∧ s.lidFetched 3 fetched r = true ∧ fetched = true ∧
      leNat (List.take 1 (List.drop 32 r)) ≠ 255 ∧ s.driverOwns (leNat (List.take 1 (List.drop 32 r))) = false) ∧
    (∃ (part : Nat) (s : State), s.powered = true ∧ s.lid.key ≠ none ∧ (part % 256 = 255 ∨ s.partExists (part % 256) = true)) ∧
    (∃ (part : Nat) (s : State), s.powered = true ∧ s.lid.key ≠ none ∧ part % 256 ≠ 255 ∧ s.partExists (part % 256) = false) ∧
    (∃ (s : State), s.powered = true ∧ s.flag LID_STATUS_EXHAUSTED = false ∧ s.lid.advancing = true) ∧
    (∃ (s : State), s.powered = true ∧ s.flag LID_STATUS_EXHAUSTED = false ∧ s.lid.advancing = false ∧ 49152 ≤ s.fld
      LID_EPOCH_USED ∧ s.lid.trees.length < 3) ∧
    (∃ (p : Path) (v : Word) (s : State) (op : Nat), s.reaches Auth.driver p LID_CMD ∧ s.flag LID_CMD_DONE = true ∧ bitOf
      (BitVec.toNat v) 62 = true ∧ (s.storeWith Auth.driver p LID_CMD v fun (f : FieldSpec) => ownAllows f.own Auth.driver
      LID_CMD).fld LID_CMD_OP = op ∧ (s.storeWith Auth.driver p LID_CMD v fun (f : FieldSpec) => ownAllows f.own Auth.driver
      LID_CMD).lidAllows op = false) ∧
    (∃ (p : Path) (v : Word) (s : State) (op : Nat), s.reaches Auth.driver p LID_CMD ∧ s.flag LID_CMD_DONE = true ∧ bitOf
      (BitVec.toNat v) 62 = true ∧ (s.storeWith Auth.driver p LID_CMD v fun (f : FieldSpec) => ownAllows f.own Auth.driver
      LID_CMD).fld LID_CMD_OP = op ∧ op ∈ [1, 2, 3] ∧ (s.storeWith Auth.driver p LID_CMD v fun (f : FieldSpec) => ownAllows
      f.own Auth.driver LID_CMD).lidAllows op = true) ∧
    (∃ (p : Path) (v : Word) (s : State), s.reaches Auth.driver p LID_CMD ∧ s.flag LID_CMD_DONE = true ∧ bitOf (BitVec.toNat
      v) 62 = true ∧ ((s.storeWith Auth.driver p LID_CMD v fun (f : FieldSpec) => ownAllows f.own Auth.driver
      LID_CMD).commandRecord Auth.driver p LID_CMD (s.reg LID_CMD) (BitVec.ofNat 64 (BitVec.toNat ((s.storeWith Auth.driver p
      LID_CMD v fun (f : FieldSpec) => ownAllows f.own Auth.driver LID_CMD).reg LID_CMD) ||| 2 ^ 62))).fld LID_CMD_OP = 4) ∧
    (∃ (p : Path) (v : Word) (s : State), s.reaches Auth.driver p LID_CMD ∧ s.flag LID_CMD_DONE = true ∧ bitOf (BitVec.toNat
      v) 62 = true) ∧
    (∃ (p : Path) (v : Word) (s : State), s.reaches Auth.driver p LID_CMD ∧ s.flag LID_CMD_DONE = false ∧ bitOf (BitVec.toNat
      v) 62 = true) ∧
    (∃ (s : State), s.lid.newKey = none) ∧
    (∃ (s : State) (k : Nat), s.lid.newKey = some k) ∧
    (∃ (s : State), s.powered = true ∧ s.lid.key ≠ none) :=
  ⟨⟨dev, (by decide +kernel)⟩,
   ⟨dev.setFlag LID_EPOCH_VALID true, (by decide +kernel)⟩,
   ⟨(dev.setFlag LID_CMD_DONE false).modLid (fun x => { x with fetch := some ⟨3, 0, 0, [], false⟩ }), false, List.replicate 63
     1, (by decide +kernel)⟩,
   ⟨lidHas 3 (List.replicate 64 255), true, List.replicate 64 255, (by decide +kernel)⟩,
   ⟨lidHas 3 (List.replicate 64 1), true, List.replicate 64 1, (by decide +kernel)⟩,
   ⟨255, devKey, (by decide +kernel)⟩,
   ⟨3, devKey, (by decide +kernel)⟩,
   ⟨dev.modLid (fun l => { l with advancing := true }), (by decide +kernel)⟩,
   ⟨dev.setFld LID_EPOCH_USED 49152, (by decide +kernel)⟩,
   ⟨.josil, BitVec.ofNat 64 (2 ^ 62 + 1 * 2 ^ 56), dev, 1, (by unfold State.reaches; decide +kernel)⟩,
   ⟨.josil, BitVec.ofNat 64 (2 ^ 62 + 3 * 2 ^ 56), dev, 3, (by unfold State.reaches; decide +kernel)⟩,
   ⟨.josil, BitVec.ofNat 64 (2 ^ 62 + 4 * 2 ^ 56), dev, (by unfold State.reaches; decide +kernel)⟩,
   ⟨.josil, BitVec.ofNat 64 (2 ^ 62 + 3 * 2 ^ 56), dev, (by unfold State.reaches; decide +kernel)⟩,
   ⟨.josil, BitVec.ofNat 64 (2 ^ 62 + 3 * 2 ^ 56), dev.setFlag LID_CMD_DONE false, (by unfold State.reaches; decide +kernel)⟩,
   ⟨dev, (by decide +kernel)⟩,
   ⟨dev.modLid (fun l => { l with newKey := some 7 }), 7, (by decide +kernel)⟩,
   ⟨devKey, (by decide +kernel)⟩⟩

/-- The hypotheses of `Obligations.BlockSwitching`, clause by clause. -/
theorem witness_BlockSwitching :
    (∃ (b : Nat) (s : State), s.powered = true ∧ (s.blk b).phase = SwPhase.stopping ∧ (s.blk b).discard = true) ∧
    (∃ (b : Nat) (s : State), s.powered = true ∧ (s.blk b).phase = SwPhase.stopping ∧ (s.blk b).discard = false ∧
      s.unitsStopped b = true) ∧
    (∃ (b : Nat) (c : Nat) (s : State), s.powered = true ∧ (s.blk b).phase = SwPhase.saving ∧ (s.blk b).ctx = some c) ∧
    (∃ (b : Nat) (c : Nat) (s : State) (v : Live) (s1 : State), s.powered = true ∧ (s.blk b).phase = SwPhase.saving ∧ (s.blk
      b).ctx = some c ∧ s.saveHeld ((s.ctxOf c).saveBase + s.homeIndex c b * 2 ^ 24) (2 ^ 24) = false ∧ s.liveMapOf c = (some
      v, s1)) ∧
    (∃ (b : Nat) (s : State), b < 128 ∧ s.powered = true ∧ (s.blk b).phase = SwPhase.scrubbing) ∧
    (∃ (b : Nat) (c : Nat) (s : State), s.powered = true ∧ (s.blk b).phase = SwPhase.restoring ∧ (s.blk b).incoming = some c) ∧
    (∃ (b : Nat) (c : Nat) (s : State), s.powered = true ∧ (s.blk b).phase = SwPhase.restoring ∧ (s.blk b).incoming = some c ∧
      (if (s.blk b).ctx = some c then s.bst b else SMap.get (fun (x : Nat) => BlkState.reset) (s.ctxOf c).saved (s.homeIndex c
      b)).reloads = []) ∧
    (∃ (k : Blk) (c : Nat), k.ctx = some c ∧ k.phase = SwPhase.idle) ∧
    (∃ (k : Blk) (c : Nat), k.phase = SwPhase.restoring ∧ k.incoming = some c) :=
  ⟨⟨0, onBlk (fun k => { k with phase := .stopping, discard := true }), (by decide +kernel)⟩,
   ⟨0, onBlk (fun k => { k with phase := .stopping }), (by decide +kernel)⟩,
   ⟨0, 1, onBlk (fun k => { k with phase := .saving }), (by decide +kernel)⟩,
   ⟨0, 1, onBlk (fun k => { k with phase := .saving }), .all, ((onBlk (fun k => { k with phase := .saving })).liveMapOf 1).2,
     (by decide +kernel), (by decide +kernel), (by decide +kernel), (by decide +kernel), (Prod.ext rfl rfl)⟩,
   ⟨127, dev.modBlk 127 (fun k => { k with phase := .scrubbing }), (by decide +kernel)⟩,
   ⟨0, 1, onBlk (fun k => { k with phase := .restoring, incoming := some 1 }), (by decide +kernel)⟩,
   ⟨0, 1, onBlk (fun k => { k with phase := .restoring, incoming := some 1 }), (by decide +kernel)⟩,
   ⟨{ Blk.reset with ctx := some 1 }, 1, (by decide +kernel)⟩,
   ⟨{ Blk.reset with phase := .restoring, incoming := some 1 }, 1, (by decide +kernel)⟩⟩

/-- The hypotheses of `Obligations.BranchesAndJumps`, clause by clause. -/
theorem witness_BranchesAndJumps :
    (∃ (p : (Nat → Bool → Word → Instr) × (Word → Word → Bool)) (b : Nat) (f : Bool) (w : Word) (s : State), p ∈ [(Instr.beq,
      fun (x y : Word) => decide (x = y)), (Instr.bne, fun (x y : Word) => decide (x ≠ y)), (Instr.blt, fun (x y : Word) =>
      BitVec.slt x y), (Instr.bge, fun (x y : Word) => !BitVec.slt x y), (Instr.bltu, fun (x y : Word) => BitVec.ult x y),
      (Instr.bgeu, fun (x y : Word) => !BitVec.ult x y)] ∧ s.issues b f ∧ wDst w = 0) ∧
    (∃ (p : (Nat → Bool → Word → Instr) × (State → Nat → Bool → Word → Word)) (b : Nat) (f : Bool) (w : Word) (s : State), p ∈
      [(Instr.jal, fun (s : State) (b : Nat) (f : Bool) (w : Word) => (s.cset b f).pc + 8 * BitVec.ofInt 64 (signed 37
      (BitVec.toNat w))), (Instr.jalr, fun (s : State) (b : Nat) (f : Bool) (w : Word) => s.sreg b f (wSa w) + BitVec.ofInt 64
      (signed 37 (BitVec.toNat w)))] ∧ s.issues b f) :=
  ⟨⟨(Instr.beq, fun x y => decide (x = y)), 0, false, 0x2000084000000008, onBlock, (List.Mem.head _),
  (by unfold State.issues State.quiet; decide +kernel), (by decide +kernel)⟩,
   ⟨(Instr.jal, fun s b f w => (s.cset b f).pc + 8 * BitVec.ofInt 64 (signed 37 w.toNat)), 0, true, 0x2060800000000008,
     onFill, (List.Mem.head _), (by unfold State.issues State.quiet; decide +kernel)⟩⟩

/-- The hypotheses of `Obligations.BundleMaps`, clause by clause. -/
theorem witness_BundleMaps :
    (∃ (p : Path) (m : Nat) (port : Nat) (s : State), s.reaches Auth.operator p (RPT_MAP_PORT m port) ∧ m < 4 ∧ port < 12) ∧
    (∃ (p : Path) (m : Nat) (port : Nat) (v : Word) (s : State), s.reaches Auth.operator p (RPT_MAP_PORT m port) ∧ m < 4 ∧
      port < 12 ∧ s.mapInUse m = false ∧ ∀ (q : Nat), q < 12 → q ≠ port → s.fld (RPT_MAP_PORT_LINKS m q) &&& bits
      (BitVec.toNat v) 35 0 = 0) ∧
    (∃ (p : Path) (m : Nat) (port : Nat) (v : Word) (s : State), s.reaches Auth.operator p (RPT_MAP_PORT m port) ∧ m < 4 ∧
      port < 12 ∧ (s.mapInUse m = true ∨ ∃ (q : Nat), q < 12 ∧ q ≠ port ∧ s.fld (RPT_MAP_PORT_LINKS m q) &&& bits
      (BitVec.toNat v) 35 0 ≠ 0)) ∧
    (∃ (p : Path) (s : State), s.reaches Auth.operator p RPT_RT_DATA ∧ s.mapInUse (s.fld RPT_RT_SEL_MAP) = true) ∧
    (∃ (p : Path) (s : State), s.reaches Auth.operator p RPT_RT_DATA ∧ s.mapInUse (s.fld RPT_RT_SEL_MAP) = false) ∧
    (∃ (a : Auth) (p : Path) (v : Word) (s : State), s.reaches a p RPT_GLOBAL ∧ bitOf (BitVec.toNat v) 20 = true) ∧
    (∃ (m : Nat) (s : State), m < 4 ∧ s.fld RPT_GLOBAL_ACTIVE = m) ∧
    (∃ (m : Nat) (s : State), m < 4 ∧ s.fld RPT_GLOBAL_ACTIVE ≠ m ∧ ∀ (port : Nat), port < 13 → ∀ (q : QPkt), q ∈ s.port port
      → q.from_ = none ∧ ∀ (k : Nat), s.routeOf m q.pk.dst = some k → s.portAllowed q.ctxTag k = true) ∧
    (∃ (m : Nat) (s : State) (port : Nat) (q : QPkt), m < 4 ∧ s.fld RPT_GLOBAL_ACTIVE ≠ m ∧ (∀ (port : Nat), port < 13 → ∀ (q
      : QPkt), q ∈ s.port port → q.from_ = none ∧ ∀ (k : Nat), s.routeOf m q.pk.dst = some k → s.portAllowed q.ctxTag k =
      true) ∧ port < 13 ∧ q ∈ (s.switchMap m).port port) ∧
    (∃ (s : State), s.powered = true ∧ s.flag RPT_GLOBAL_SWITCHING = true ∧ ∀ (e : Nat × List QPkt), e ∈ s.ports → e.fst < 13
      → ∀ (q : QPkt), q ∈ e.snd → q.old = false ∧ q.map = s.fld RPT_GLOBAL_ACTIVE) ∧
    (∃ (s : State) (e : Nat × List QPkt) (q : QPkt), s.powered = true ∧ s.flag RPT_GLOBAL_SWITCHING = true ∧ e ∈ s.ports ∧
      e.fst < 13 ∧ q ∈ e.snd ∧ (q.old = true ∨ q.map ≠ s.fld RPT_GLOBAL_ACTIVE)) :=
  ⟨⟨.mgmt0, 3, 11, dev, (by unfold State.reaches; decide +kernel)⟩,
   ⟨.mgmt0, 3, 11, 0x800000000, dev, (by unfold State.reaches; decide +kernel)⟩,
   ⟨.mgmt1, 0, 0, 1, dev, (by unfold State.reaches; decide +kernel)⟩,
   ⟨.mgmt1, dev, (by unfold State.reaches; decide +kernel)⟩,
   ⟨.mgmt1, dev.setFld RPT_RT_SEL_MAP 3, (by unfold State.reaches; decide +kernel)⟩,
   ⟨.operator, .mgmt1, 0x100000, dev, (by unfold State.reaches; decide +kernel)⟩,
   ⟨3, dev.setFld RPT_GLOBAL_ACTIVE 3, (by decide +kernel)⟩,
   ⟨0, mapDev, (by decide +kernel), (by decide +kernel), (mapDev_routes)⟩,
   ⟨0, mapDev, 12, ⟨pktOne 1 256 7, 0, none, none, true⟩, (by decide +kernel), (by decide +kernel), (mapDev_routes),
     (by decide +kernel), (by decide +kernel)⟩,
   ⟨{
       dev.setFlag RPT_GLOBAL_SWITCHING true with ports := [(3, [⟨pktOne 1 256 7, 0, none, none, false⟩])] },
       (by decide +kernel)⟩,
   ⟨{
       dev.setFlag RPT_GLOBAL_SWITCHING true with ports := [(3, [⟨pktOne 1 256 7, 0, none, none, true⟩])] }, (3, [⟨pktOne 1
       256 7, 0, none, none, true⟩]), ⟨pktOne 1 256 7, 0, none, none, true⟩, (by decide +kernel)⟩⟩

/-- The hypotheses of `Obligations.CoilEngine`, clause by clause. -/
theorem witness_CoilEngine :
    (∃ (r : (Auth → Path → Nat → Word → Instr) × Nat × (State → Nat → Option State)) (a : Auth) (p : Path) (e : Nat) (v :
      Word) (s : State) (t : State), r ∈ [(Instr.coilOpen, 1, fun (s : State) (e : Nat) => if s.coilOpenable e = true then
      some (s.coilDoOpen e) else none), (Instr.coilCommit, 2, fun (s : State) (e : Nat) => if s.coilState e = 4 ∧ s.flag
      (COL_STATUS_PART_DONE e) = true then some (s.coilDoCommit e) else none), (Instr.coilDiscard, 3, fun (s : State) (e :
      Nat) => if s.coilState e = 4 then some (s.coilDoDiscard e) else if s.coilState e = 3 ∧ s.allReady e = false then some
      ((s.coilAbort e 4).coilDoDiscard e) else none), (Instr.coilRestore, 4, fun (s : State) (e : Nat) => if s.coilState e = 2
      ∨ s.coilState e = 1 then some ((s.coilDoRestore e).coilRestored e) else none), (Instr.coilPark, 5, fun (s : State) (e :
      Nat) => if s.coilState e ∈ [0, 3, 4] then none else some (s.coilRelease e true)), (Instr.coilDissolve, 6, fun (s :
      State) (e : Nat) => if s.coilState e ∈ [3, 4] then none else some (s.coilRelease e false))] ∧ e < 16 ∧ s.reaches a p
      (COL_CMD e) ∧ bitOf (BitVec.toNat v) 62 = true ∧ bits (BitVec.toNat v) 59 56 = r.snd.fst ∧ (s.storeWith a p (COL_CMD e)
      v (s.coilMay (s.fld (COL_CTRL_PART e)) a)).flag (COL_CMD_DONE e) = true ∧ (s.storeWith a p (COL_CMD e) v (s.coilMay
      (s.fld (COL_CTRL_PART e)) a)).coilWaits e {
        off := COL_CMD e, auth := a, path := p, old := s.reg (COL_CMD e),
        new := BitVec.ofNat 64 (BitVec.toNat ((s.storeWith a p (COL_CMD e) v (s.coilMay (s.fld (COL_CTRL_PART e)) a)).reg (COL_CMD e)) ||| 2 ^ 62) }
        = false ∧ (a = Auth.operator ∨ a = Auth.driver ∧ ((s.storeWith a p (COL_CMD e) v (s.coilMay (s.fld (COL_CTRL_PART e))
        a)).setFlag (COL_CMD_DONE e) true).driverOwns (((s.storeWith a p (COL_CMD e) v (s.coilMay (s.fld (COL_CTRL_PART e))
        a)).setFlag (COL_CMD_DONE e) true).fld (COL_CTRL_PART e)) = true) ∧ r.snd.snd (((s.storeWith a p (COL_CMD e) v
        (s.coilMay (s.fld (COL_CTRL_PART e)) a)).setFlag (COL_CMD_DONE e) true).commandRecord a p (COL_CMD e) (s.reg (COL_CMD
        e)) (BitVec.ofNat 64 (BitVec.toNat ((s.storeWith a p (COL_CMD e) v (s.coilMay (s.fld (COL_CTRL_PART e)) a)).reg
        (COL_CMD e)) ||| 2 ^ 62))) e = some t) ∧
    (∃ (r : (Auth → Path → Nat → Word → Instr) × Nat × (State → Nat → Option State)) (a : Auth) (p : Path) (e : Nat) (v :
      Word) (s : State), r ∈ [(Instr.coilOpen, 1, fun (s : State) (e : Nat) => if s.coilOpenable e = true then some
      (s.coilDoOpen e) else none), (Instr.coilCommit, 2, fun (s : State) (e : Nat) => if s.coilState e = 4 ∧ s.flag
      (COL_STATUS_PART_DONE e) = true then some (s.coilDoCommit e) else none), (Instr.coilDiscard, 3, fun (s : State) (e :
      Nat) => if s.coilState e = 4 then some (s.coilDoDiscard e) else if s.coilState e = 3 ∧ s.allReady e = false then some
      ((s.coilAbort e 4).coilDoDiscard e) else none), (Instr.coilRestore, 4, fun (s : State) (e : Nat) => if s.coilState e = 2
      ∨ s.coilState e = 1 then some ((s.coilDoRestore e).coilRestored e) else none), (Instr.coilPark, 5, fun (s : State) (e :
      Nat) => if s.coilState e ∈ [0, 3, 4] then none else some (s.coilRelease e true)), (Instr.coilDissolve, 6, fun (s :
      State) (e : Nat) => if s.coilState e ∈ [3, 4] then none else some (s.coilRelease e false))] ∧ e < 16 ∧ s.reaches a p
      (COL_CMD e) ∧ bitOf (BitVec.toNat v) 62 = true ∧ bits (BitVec.toNat v) 59 56 = r.snd.fst ∧ (s.storeWith a p (COL_CMD e)
      v (s.coilMay (s.fld (COL_CTRL_PART e)) a)).flag (COL_CMD_DONE e) = true ∧ (s.storeWith a p (COL_CMD e) v (s.coilMay
      (s.fld (COL_CTRL_PART e)) a)).coilWaits e {
        off := COL_CMD e, auth := a, path := p, old := s.reg (COL_CMD e),
        new := BitVec.ofNat 64 (BitVec.toNat ((s.storeWith a p (COL_CMD e) v (s.coilMay (s.fld (COL_CTRL_PART e)) a)).reg (COL_CMD e)) ||| 2 ^ 62) }
        = false ∧ (¬(a = Auth.operator ∨ a = Auth.driver ∧ ((s.storeWith a p (COL_CMD e) v (s.coilMay (s.fld (COL_CTRL_PART
        e)) a)).setFlag (COL_CMD_DONE e) true).driverOwns (((s.storeWith a p (COL_CMD e) v (s.coilMay (s.fld (COL_CTRL_PART
        e)) a)).setFlag (COL_CMD_DONE e) true).fld (COL_CTRL_PART e)) = true) ∨ r.snd.snd (((s.storeWith a p (COL_CMD e) v
        (s.coilMay (s.fld (COL_CTRL_PART e)) a)).setFlag (COL_CMD_DONE e) true).commandRecord a p (COL_CMD e) (s.reg (COL_CMD
        e)) (BitVec.ofNat 64 (BitVec.toNat ((s.storeWith a p (COL_CMD e) v (s.coilMay (s.fld (COL_CTRL_PART e)) a)).reg
        (COL_CMD e)) ||| 2 ^ 62))) e = none)) ∧
    (∃ (r : (Auth → Path → Nat → Word → Instr) × Nat × (State → Nat → Option State)) (a : Auth) (p : Path) (e : Nat) (v :
      Word) (s : State), r ∈ [(Instr.coilOpen, 1, fun (s : State) (e : Nat) => if s.coilOpenable e = true then some
      (s.coilDoOpen e) else none), (Instr.coilCommit, 2, fun (s : State) (e : Nat) => if s.coilState e = 4 ∧ s.flag
      (COL_STATUS_PART_DONE e) = true then some (s.coilDoCommit e) else none), (Instr.coilDiscard, 3, fun (s : State) (e :
      Nat) => if s.coilState e = 4 then some (s.coilDoDiscard e) else if s.coilState e = 3 ∧ s.allReady e = false then some
      ((s.coilAbort e 4).coilDoDiscard e) else none), (Instr.coilRestore, 4, fun (s : State) (e : Nat) => if s.coilState e = 2
      ∨ s.coilState e = 1 then some ((s.coilDoRestore e).coilRestored e) else none), (Instr.coilPark, 5, fun (s : State) (e :
      Nat) => if s.coilState e ∈ [0, 3, 4] then none else some (s.coilRelease e true)), (Instr.coilDissolve, 6, fun (s :
      State) (e : Nat) => if s.coilState e ∈ [3, 4] then none else some (s.coilRelease e false))] ∧ e < 16 ∧ s.reaches a p
      (COL_CMD e) ∧ bitOf (BitVec.toNat v) 62 = true ∧ bits (BitVec.toNat v) 59 56 = r.snd.fst ∧ (s.storeWith a p (COL_CMD e)
      v (s.coilMay (s.fld (COL_CTRL_PART e)) a)).flag (COL_CMD_DONE e) = true ∧ (s.storeWith a p (COL_CMD e) v (s.coilMay
      (s.fld (COL_CTRL_PART e)) a)).coilWaits e {
        off := COL_CMD e, auth := a, path := p, old := s.reg (COL_CMD e),
        new := BitVec.ofNat 64 (BitVec.toNat ((s.storeWith a p (COL_CMD e) v (s.coilMay (s.fld (COL_CTRL_PART e)) a)).reg (COL_CMD e)) ||| 2 ^ 62) }
        = true) ∧
    (∃ (r : (Auth → Path → Nat → Word → Instr) × Nat × (State → Nat → Option State)) (a : Auth) (p : Path) (e : Nat) (v :
      Word) (s : State), r ∈ [(Instr.coilOpen, 1, fun (s : State) (e : Nat) => if s.coilOpenable e = true then some
      (s.coilDoOpen e) else none), (Instr.coilCommit, 2, fun (s : State) (e : Nat) => if s.coilState e = 4 ∧ s.flag
      (COL_STATUS_PART_DONE e) = true then some (s.coilDoCommit e) else none), (Instr.coilDiscard, 3, fun (s : State) (e :
      Nat) => if s.coilState e = 4 then some (s.coilDoDiscard e) else if s.coilState e = 3 ∧ s.allReady e = false then some
      ((s.coilAbort e 4).coilDoDiscard e) else none), (Instr.coilRestore, 4, fun (s : State) (e : Nat) => if s.coilState e = 2
      ∨ s.coilState e = 1 then some ((s.coilDoRestore e).coilRestored e) else none), (Instr.coilPark, 5, fun (s : State) (e :
      Nat) => if s.coilState e ∈ [0, 3, 4] then none else some (s.coilRelease e true)), (Instr.coilDissolve, 6, fun (s :
      State) (e : Nat) => if s.coilState e ∈ [3, 4] then none else some (s.coilRelease e false))] ∧ e < 16 ∧ s.reaches a p
      (COL_CMD e) ∧ bitOf (BitVec.toNat v) 62 = true ∧ bits (BitVec.toNat v) 59 56 = r.snd.fst ∧ (s.storeWith a p (COL_CMD e)
      v (s.coilMay (s.fld (COL_CTRL_PART e)) a)).flag (COL_CMD_DONE e) = false) ∧
    (∃ (p : Path) (e : Nat) (v : Word) (s : State), e < 16 ∧ s.reaches Auth.operator p (COL_CTRL e) ∧ bitOf (BitVec.toNat v) 0
      = true ∧ s.coilState e = 0 ∧ (s.membersBusy e || s.testIn (s.fld (COL_IMAGE_BASE e) * 4096) 512) = true) ∧
    (∃ (p : Path) (e : Nat) (v : Word) (s : State), e < 16 ∧ s.reaches Auth.operator p (COL_CTRL e) ∧ bitOf (BitVec.toNat v) 0
      = true ∧ s.coilState e = 0 ∧ (s.membersBusy e || s.testIn (s.fld (COL_IMAGE_BASE e) * 4096) 512) = false ∧ (s.storeWith
      Auth.operator p (COL_CTRL e) v (s.coilMay (bits (BitVec.toNat v) 51 48) Auth.operator)).coilValid e = true) ∧
    (∃ (p : Path) (e : Nat) (v : Word) (s : State), e < 16 ∧ s.reaches Auth.operator p (COL_CTRL e) ∧ bitOf (BitVec.toNat v) 0
      = true ∧ (s.coilState e ≠ 0 ∨ (s.membersBusy e || s.testIn (s.fld (COL_IMAGE_BASE e) * 4096) 512) = false ∧ (s.storeWith
      Auth.operator p (COL_CTRL e) v (s.coilMay (bits (BitVec.toNat v) 51 48) Auth.operator)).coilValid e = false)) ∧
    (∃ (k : Nat) (at_ : Nat) (pk' : Pkt) (pk : Pkt) (s : State) (s1 : State) (c : Instr × Nat × List Nat), s.powered = true ∧
      pktCoil pk' = true ∧ s.takeIngress k pk' = (some (pk, at_), s1) ∧ s1.border pk = (true, s1) ∧ s1.recorderOff ∧ s.quiet ∧
      c ∈ [(Instr.coilPage k pk', 0, [3]), (Instr.coilDelta k pk', 1, [3]), (Instr.coilAck k pk', 2, [3, 4]), (Instr.coilReady
      k pk', 3, [3]), (Instr.coilEnd k pk', 4, [3]), (Instr.coilRestoreReq k pk', 5, [0, 1, 2, 3, 4, 6, 7]),
      (Instr.coilRestorePage k pk', 6, [6])] ∧ bits pk'.opid 30 27 = c.snd.fst ∧ ¬(s1.flag (COL_CTRL_EN (bits pk.opid 26 23))
      = true ∧ bits pk.opid 22 0 = s1.fld (COL_SEQ_CURRENT (bits pk.opid 26 23)) % 2 ^ 23)) ∧
    (∃ (k : Nat) (at_ : Nat) (pk' : Pkt) (pk : Pkt) (s : State) (s1 : State) (c : Instr × Nat × List Nat), s.powered = true ∧
      pktCoil pk' = true ∧ s.takeIngress k pk' = (some (pk, at_), s1) ∧ s1.border pk = (true, s1) ∧ s1.recorderOff ∧ s.quiet ∧
      c ∈ [(Instr.coilPage k pk', 0, [3]), (Instr.coilDelta k pk', 1, [3]), (Instr.coilAck k pk', 2, [3, 4]), (Instr.coilReady
      k pk', 3, [3]), (Instr.coilEnd k pk', 4, [3]), (Instr.coilRestoreReq k pk', 5, [0, 1, 2, 3, 4, 6, 7]),
      (Instr.coilRestorePage k pk', 6, [6])] ∧ bits pk'.opid 30 27 = c.snd.fst ∧ (s1.flag (COL_CTRL_EN (bits pk.opid 26 23)) =
      true ∧ bits pk.opid 22 0 = s1.fld (COL_SEQ_CURRENT (bits pk.opid 26 23)) % 2 ^ 23) ∧ s1.coilState (bits pk.opid 26 23) <
      8 ∧ ¬s1.coilState (bits pk.opid 26 23) ∈ c.snd.snd) ∧
    (∃ (k : Nat) (at_ : Nat) (pk' : Pkt) (pk : Pkt) (s : State) (s1 : State) (c : Instr × Nat × List Nat), s.powered = true ∧
      pktCoil pk' = true ∧ s.takeIngress k pk' = (some (pk, at_), s1) ∧ s1.border pk = (true, s1) ∧ s1.recorderOff ∧ s.quiet ∧
      c ∈ [(Instr.coilPage k pk', 0, [3]), (Instr.coilDelta k pk', 1, [3]), (Instr.coilAck k pk', 2, [3, 4]), (Instr.coilReady
      k pk', 3, [3]), (Instr.coilEnd k pk', 4, [3]), (Instr.coilRestoreReq k pk', 5, [0, 1, 2, 3, 4, 6, 7]),
      (Instr.coilRestorePage k pk', 6, [6])] ∧ bits pk'.opid 30 27 = c.snd.fst ∧ (s1.flag (COL_CTRL_EN (bits pk.opid 26 23)) =
      true ∧ bits pk.opid 22 0 = s1.fld (COL_SEQ_CURRENT (bits pk.opid 26 23)) % 2 ^ 23) ∧ s1.coilState (bits pk.opid 26 23) ∈
      c.snd.snd ∧ s1.membersBusy (bits pk.opid 26 23) = true) ∧
    (∃ (k : Nat) (at_ : Nat) (pk' : Pkt) (pk : Pkt) (s : State) (s1 : State), s.powered = true ∧ pktCoil pk' = true ∧
      s.takeIngress k pk' = (some (pk, at_), s1) ∧ s1.border pk = (true, s1) ∧ s1.recorderOff ∧ s.quiet ∧ (s1.flag
      (COL_CTRL_EN (bits pk.opid 26 23)) = true ∧ bits pk.opid 22 0 = s1.fld (COL_SEQ_CURRENT (bits pk.opid 26 23)) % 2 ^ 23)
      ∧ s.frameTests = [] ∧ s1.coilState (bits pk.opid 26 23) = 3 ∧ bits pk'.opid 30 27 = 0 ∧ pk.aux % 65536 = s1.coilPred
      (bits pk.opid 26 23) ∧ pk.offset / 8192 < s1.coilN (bits pk.opid 26 23) ∧ pk.data.length = 256 ∧ (s1.flag
      (COL_CTRL_ATOMIC (bits pk.opid 26 23)) = false ∨ (s1.coil (bits pk.opid 26 23)).full = true)) ∧
    (∃ (k : Nat) (at_ : Nat) (pk' : Pkt) (pk : Pkt) (s : State) (s1 : State), s.powered = true ∧ pktCoil pk' = true ∧
      s.takeIngress k pk' = (some (pk, at_), s1) ∧ s1.border pk = (true, s1) ∧ s1.recorderOff ∧ s.quiet ∧ (s1.flag
      (COL_CTRL_EN (bits pk.opid 26 23)) = true ∧ bits pk.opid 22 0 = s1.fld (COL_SEQ_CURRENT (bits pk.opid 26 23)) % 2 ^ 23)
      ∧ s.frameTests = [] ∧ s1.coilState (bits pk.opid 26 23) = 3 ∧ bits pk'.opid 30 27 = 1 ∧ pk.offset / 8192 < s1.coilN
      (bits pk.opid 26 23) ∧ pk.data.length = 256 ∧ (s1.flag (COL_CTRL_ATOMIC (bits pk.opid 26 23)) = false ∨ (s1.coil (bits
      pk.opid 26 23)).full = true) ∧ (parityHome (s1.coilR (bits pk.opid 26 23)) ((pk.aux % 65536 + s1.coilR (bits pk.opid 26
      23) - 1) % Nat.max 1 (s1.coilR (bits pk.opid 26 23))) (pk.offset / 8192)).fst = s1.coilPos (bits pk.opid 26 23)) ∧
    (∃ (k : Nat) (at_ : Nat) (pk' : Pkt) (pk : Pkt) (s : State) (s1 : State), s.powered = true ∧ pktCoil pk' = true ∧
      s.takeIngress k pk' = (some (pk, at_), s1) ∧ s1.border pk = (true, s1) ∧ s1.recorderOff ∧ s.quiet ∧ (s1.flag
      (COL_CTRL_EN (bits pk.opid 26 23)) = true ∧ bits pk.opid 22 0 = s1.fld (COL_SEQ_CURRENT (bits pk.opid 26 23)) % 2 ^ 23)
      ∧ s.frameTests = [] ∧ s1.coilState (bits pk.opid 26 23) = 3 ∧ bits pk'.opid 30 27 = 3 ∧ pk.aux % 65536 < s1.coilR (bits
      pk.opid 26 23)) ∧
    (∃ (k : Nat) (at_ : Nat) (pk' : Pkt) (pk : Pkt) (s : State) (s1 : State), s.powered = true ∧ pktCoil pk' = true ∧
      s.takeIngress k pk' = (some (pk, at_), s1) ∧ s1.border pk = (true, s1) ∧ s1.recorderOff ∧ s.quiet ∧ (s1.flag
      (COL_CTRL_EN (bits pk.opid 26 23)) = true ∧ bits pk.opid 22 0 = s1.fld (COL_SEQ_CURRENT (bits pk.opid 26 23)) % 2 ^ 23)
      ∧ s.frameTests = [] ∧ s1.coilState (bits pk.opid 26 23) = 3 ∧ bits pk'.opid 30 27 = 4 ∧ pk.aux % 65536 = s1.coilPred
      (bits pk.opid 26 23)) ∧
    (∃ (k : Nat) (at_ : Nat) (pk' : Pkt) (pk : Pkt) (s : State) (s1 : State), s.powered = true ∧ pktCoil pk' = true ∧
      s.takeIngress k pk' = (some (pk, at_), s1) ∧ s1.border pk = (true, s1) ∧ s1.recorderOff ∧ s.quiet ∧ (s1.flag
      (COL_CTRL_EN (bits pk.opid 26 23)) = true ∧ bits pk.opid 22 0 = s1.fld (COL_SEQ_CURRENT (bits pk.opid 26 23)) % 2 ^ 23)
      ∧ s.frameTests = [] ∧ bits pk'.opid 30 27 = 2 ∧ (s1.coilState (bits pk.opid 26 23) = 3 ∨ s1.coilState (bits pk.opid 26
      23) = 4) ∧ pk.aux % 65536 = s1.coilSucc (bits pk.opid 26 23)) ∧
    (∃ (k : Nat) (at_ : Nat) (pk' : Pkt) (pk : Pkt) (s : State) (s1 : State), s.powered = true ∧ pktCoil pk' = true ∧
      s.takeIngress k pk' = (some (pk, at_), s1) ∧ s1.border pk = (true, s1) ∧ s1.recorderOff ∧ s.quiet ∧ (s1.flag
      (COL_CTRL_EN (bits pk.opid 26 23)) = true ∧ bits pk.opid 22 0 = s1.fld (COL_SEQ_CURRENT (bits pk.opid 26 23)) % 2 ^ 23)
      ∧ s.frameTests = [] ∧ bits pk'.opid 30 27 = 2 ∧ (s1.coilState (bits pk.opid 26 23) = 3 ∨ s1.coilState (bits pk.opid 26
      23) = 4) ∧ pk.aux % 65536 ≠ s1.coilSucc (bits pk.opid 26 23) ∧ SMap.get (fun (x : Nat) => false) (s1.coil (bits pk.opid
      26 23)).deltas pk.offset = true) ∧
    (∃ (k : Nat) (at_ : Nat) (pk' : Pkt) (pk : Pkt) (s : State) (s1 : State), s.powered = true ∧ pktCoil pk' = true ∧
      s.takeIngress k pk' = (some (pk, at_), s1) ∧ s1.border pk = (true, s1) ∧ s1.recorderOff ∧ s.quiet ∧ (s1.flag
      (COL_CTRL_EN (bits pk.opid 26 23)) = true ∧ bits pk.opid 22 0 = s1.fld (COL_SEQ_CURRENT (bits pk.opid 26 23)) % 2 ^ 23)
      ∧ s.frameTests = [] ∧ bits pk'.opid 30 27 = 2 ∧ (s1.coilState (bits pk.opid 26 23) = 3 ∨ s1.coilState (bits pk.opid 26
      23) = 4) ∧ pk.aux % 65536 ≠ s1.coilSucc (bits pk.opid 26 23) ∧ SMap.get (fun (x : Nat) => false) (s1.coil (bits pk.opid
      26 23)).deltas pk.offset = false) ∧
    (∃ (k : Nat) (at_ : Nat) (pk' : Pkt) (pk : Pkt) (s : State) (s1 : State) (a : Nat), s.powered = true ∧ pktCoil pk' = true
      ∧ s.takeIngress k pk' = (some (pk, at_), s1) ∧ s1.border pk = (true, s1) ∧ s1.recorderOff ∧ s.quiet ∧ (s1.flag
      (COL_CTRL_EN (bits pk.opid 26 23)) = true ∧ bits pk.opid 22 0 = s1.fld (COL_SEQ_CURRENT (bits pk.opid 26 23)) % 2 ^ 23)
      ∧ s.frameTests = [] ∧ bits pk'.opid 30 27 = 5 ∧ s1.coilState (bits pk.opid 26 23) ≠ 5 ∧ pk.offset / 8192 < s1.coilN
      (bits pk.opid 26 23) ∧ s1.restoreSource (bits pk.opid 26 23) (pk.aux % 65536) (pk.offset / 8192) = some a) ∧
    (∃ (k : Nat) (at_ : Nat) (pk' : Pkt) (pk : Pkt) (s : State) (s1 : State) (base : Nat), s.powered = true ∧ pktCoil pk' =
      true ∧ s.takeIngress k pk' = (some (pk, at_), s1) ∧ s1.border pk = (true, s1) ∧ s1.recorderOff ∧ s.quiet ∧ (s1.flag
      (COL_CTRL_EN (bits pk.opid 26 23)) = true ∧ bits pk.opid 22 0 = s1.fld (COL_SEQ_CURRENT (bits pk.opid 26 23)) % 2 ^ 23)
      ∧ s.frameTests = [] ∧ bits pk'.opid 30 27 = 6 ∧ s1.coilState (bits pk.opid 26 23) = 6 ∧ pk.poison = false ∧ SMap.get
      (fun (x : Nat) => false) (s1.coil (bits pk.opid 26 23)).lost (pk.offset / 8192) = false ∧ imagePageDpa (s1.coil (bits
      pk.opid 26 23)).extents (pk.offset / 8192) = some base ∧ 0 < SMap.get (fun (x : Nat) => 0) (s1.coil (bits pk.opid 26
      23)).want pk.offset) :=
  ⟨⟨(Instr.coilDissolve, 6, fun s e => if s.coilState e ∈ [3, 4] then none else some (s.coilRelease e false)), .operator, .mgmt0,
  15, BitVec.ofNat 64 (2 ^ 62 + 6 * 2 ^ 56), dev, State.coilRelease (((dev.storeWith .operator .mgmt0 (COL_CMD 15)
  (BitVec.ofNat 64 (2 ^ 62 + 6 * 2 ^ 56)) (dev.coilMay (dev.fld (COL_CTRL_PART 15)) .operator)).setFlag (COL_CMD_DONE 15)
  true).commandRecord .operator .mgmt0 (COL_CMD 15) (dev.reg (COL_CMD 15)) (BitVec.ofNat 64 (BitVec.toNat ((dev.storeWith
  .operator .mgmt0 (COL_CMD 15) (BitVec.ofNat 64 (2 ^ 62 + 6 * 2 ^ 56)) (dev.coilMay (dev.fld (COL_CTRL_PART 15))
  .operator)).reg (COL_CMD 15)) ||| 2 ^ 62))) 15 false, (by repeat (first | exact List.Mem.head _ | apply List.Mem.tail)),
  (by decide +kernel), (by unfold State.reaches; decide +kernel), (by decide +kernel), (by decide +kernel),
  (by decide +kernel), (by decide +kernel), (Or.inl rfl), (if_neg (by decide +kernel))⟩,
   ⟨(Instr.coilOpen, 1, fun s e => if s.coilOpenable e = true then some (s.coilDoOpen e) else none), .driver, .josil, 0,
     BitVec.ofNat 64 (2 ^ 62 + 1 * 2 ^ 56), dev, (List.Mem.head _), (by decide +kernel),
     (by unfold State.reaches; decide +kernel), (by decide +kernel), (by decide +kernel), (by decide +kernel),
     (by decide +kernel), (Or.inl (by decide +kernel))⟩,
   ⟨(Instr.coilRestore, 4, fun s e => if s.coilState e = 2 ∨ s.coilState e = 1 then some ((s.coilDoRestore e).coilRestored e)
     else none), .operator, .mgmt0, 0, BitVec.ofNat 64 (2 ^ 62 + 4 * 2 ^ 56), testing 0 dev,
     (by repeat (first | exact List.Mem.head _ | apply List.Mem.tail)), (by decide +kernel),
     (by unfold State.reaches; decide +kernel), (by decide +kernel), (by decide +kernel), (by decide +kernel),
     (by decide +kernel)⟩,
   ⟨(Instr.coilPark, 5, fun s e => if s.coilState e ∈ [0, 3, 4] then none else some (s.coilRelease e true)), .operator,
     .mgmt0, 0, BitVec.ofNat 64 (2 ^ 62 + 5 * 2 ^ 56), dev.setFlag (COL_CMD_DONE 0) false,
     (by repeat (first | exact List.Mem.head _ | apply List.Mem.tail)), (by decide +kernel),
     (by unfold State.reaches; decide +kernel), (by decide +kernel), (by decide +kernel), (by decide +kernel)⟩,
   ⟨.mgmt0, 0, BitVec.ofNat 64 (2 ^ 52 + 6 * 2 ^ 40 + 1), testing (2 * 4096) coilReady,
     (by unfold State.reaches; decide +kernel)⟩,
   ⟨.mgmt0, 0, BitVec.ofNat 64 (2 ^ 52 + 6 * 2 ^ 40 + 1), coilReady, (by unfold State.reaches; decide +kernel)⟩,
   ⟨.mgmt0, 15, 1, dev, (by unfold State.reaches; decide +kernel)⟩,
   ⟨3, 7, coilPkt 0 5, coilPkt 0 5, (coilDev 2 (coilPkt 0 5)).setFlag (COL_CTRL_EN 0) false, (((coilDev 2 (coilPkt 0
     5)).setFlag (COL_CTRL_EN 0) false).takeIngress 3 (coilPkt 0 5)).2, (Instr.coilPage 3 (coilPkt 0 5), 0, [3]),
     (by decide +kernel), (by decide +kernel), (pair_eq (by decide +kernel)), (border_true (by decide +kernel)),
     (by unfold State.recorderOff; decide +kernel), (by unfold State.quiet; decide +kernel), (List.Mem.head _),
     (by decide +kernel), (by decide +kernel)⟩,
   ⟨3, 7, coilPkt 0 5, coilPkt 0 5, coilDev 2 (coilPkt 0 5), ((coilDev 2 (coilPkt 0 5)).takeIngress 3 (coilPkt 0 5)).2,
     (Instr.coilPage 3 (coilPkt 0 5), 0, [3]), (by decide +kernel), (by decide +kernel), (pair_eq (by decide +kernel)),
     (border_true (by decide +kernel)), (by unfold State.recorderOff; decide +kernel),
     (by unfold State.quiet; decide +kernel), (List.Mem.head _), (by decide +kernel), (by decide +kernel),
     (by decide +kernel), (by decide +kernel)⟩,
   ⟨3, 7, coilPkt 0 5, coilPkt 0 5, testing 0 (coilDev 3 (coilPkt 0 5)), ((testing 0 (coilDev 3 (coilPkt 0 5))).takeIngress 3
     (coilPkt 0 5)).2, (Instr.coilPage 3 (coilPkt 0 5), 0, [3]), (by decide +kernel), (by decide +kernel), (pair_eq
     (by decide +kernel)), (border_true (by decide +kernel)), (by unfold State.recorderOff; decide +kernel),
     (by unfold State.quiet; decide +kernel), (List.Mem.head _), (by decide +kernel), (by decide +kernel),
     (by decide +kernel), (by decide +kernel)⟩,
   ⟨3, 7, coilPkt 0 5, coilPkt 0 5, coilDev 3 (coilPkt 0 5), ((coilDev 3 (coilPkt 0 5)).takeIngress 3 (coilPkt 0 5)).2,
     (by decide +kernel), (by decide +kernel), (pair_eq (by decide +kernel)), (border_true (by decide +kernel)),
     (by unfold State.recorderOff; decide +kernel), (by unfold State.quiet; decide +kernel), (by decide +kernel),
     (by decide +kernel), (by decide +kernel), (by decide +kernel), (by decide +kernel), (by decide +kernel),
     (by decide +kernel), (by decide +kernel)⟩,
   ⟨3, 7, coilPkt 1 3, coilPkt 1 3, coilDev 3 (coilPkt 1 3), ((coilDev 3 (coilPkt 1 3)).takeIngress 3 (coilPkt 1 3)).2,
     (by decide +kernel), (by decide +kernel), (pair_eq (by decide +kernel)), (border_true (by decide +kernel)),
     (by unfold State.recorderOff; decide +kernel), (by unfold State.quiet; decide +kernel), (by decide +kernel),
     (by decide +kernel), (by decide +kernel), (by decide +kernel), (by decide +kernel), (by decide +kernel),
     (by decide +kernel), (by decide +kernel)⟩,
   ⟨3, 7, coilPkt 3 5, coilPkt 3 5, coilDev 3 (coilPkt 3 5), ((coilDev 3 (coilPkt 3 5)).takeIngress 3 (coilPkt 3 5)).2,
     (by decide +kernel), (by decide +kernel), (pair_eq (by decide +kernel)), (border_true (by decide +kernel)),
     (by unfold State.recorderOff; decide +kernel), (by unfold State.quiet; decide +kernel), (by decide +kernel),
     (by decide +kernel), (by decide +kernel), (by decide +kernel), (by decide +kernel)⟩,
   ⟨3, 7, coilPkt 4 5, coilPkt 4 5, coilDev 3 (coilPkt 4 5), ((coilDev 3 (coilPkt 4 5)).takeIngress 3 (coilPkt 4 5)).2,
     (by decide +kernel), (by decide +kernel), (pair_eq (by decide +kernel)), (border_true (by decide +kernel)),
     (by unfold State.recorderOff; decide +kernel), (by unfold State.quiet; decide +kernel), (by decide +kernel),
     (by decide +kernel), (by decide +kernel), (by decide +kernel), (by decide +kernel)⟩,
   ⟨3, 7, coilPkt 2 1, coilPkt 2 1, coilDev 3 (coilPkt 2 1), ((coilDev 3 (coilPkt 2 1)).takeIngress 3 (coilPkt 2 1)).2,
     (by decide +kernel), (by decide +kernel), (pair_eq (by decide +kernel)), (border_true (by decide +kernel)),
     (by unfold State.recorderOff; decide +kernel), (by unfold State.quiet; decide +kernel), (by decide +kernel),
     (by decide +kernel), (by decide +kernel), (by decide +kernel), (by decide +kernel)⟩,
   ⟨3, 7, coilPkt 2 3, coilPkt 2 3, (coilDev 4 (coilPkt 2 3)).modCoil 0 (fun x => { x with deltas := [(0, true)] }),
     (((coilDev 4 (coilPkt 2 3)).modCoil 0 (fun x => { x with deltas := [(0, true)] })).takeIngress 3 (coilPkt 2 3)).2,
     (by decide +kernel), (by decide +kernel), (pair_eq (by decide +kernel)), (border_true (by decide +kernel)),
     (by unfold State.recorderOff; decide +kernel), (by unfold State.quiet; decide +kernel), (by decide +kernel),
     (by decide +kernel), (by decide +kernel), (by decide +kernel), (by decide +kernel), (by decide +kernel)⟩,
   ⟨3, 7, coilPkt 2 3, coilPkt 2 3, coilDev 3 (coilPkt 2 3), ((coilDev 3 (coilPkt 2 3)).takeIngress 3 (coilPkt 2 3)).2,
     (by decide +kernel), (by decide +kernel), (pair_eq (by decide +kernel)), (border_true (by decide +kernel)),
     (by unfold State.recorderOff; decide +kernel), (by unfold State.quiet; decide +kernel), (by decide +kernel),
     (by decide +kernel), (by decide +kernel), (by decide +kernel), (by decide +kernel), (by decide +kernel)⟩,
   ⟨3, 7, coilPkt 5 5, coilPkt 5 5, coilDev 6 (coilPkt 5 5), ((coilDev 6 (coilPkt 5 5)).takeIngress 3 (coilPkt 5 5)).2, 0,
     (by decide +kernel), (by decide +kernel), (pair_eq (by decide +kernel)), (border_true (by decide +kernel)),
     (by unfold State.recorderOff; decide +kernel), (by unfold State.quiet; decide +kernel), (by decide +kernel),
     (by decide +kernel), (by decide +kernel), (by decide +kernel), (by decide +kernel), (by decide +kernel)⟩,
   ⟨3, 7, coilPkt 6 5, coilPkt 6 5, (coilDev 6 (coilPkt 6 5)).modCoil 0 (fun x =>
     { x with extents := [(4, 2 ^ 24)], want := [(0, 2)] }), (((coilDev 6 (coilPkt 6 5)).modCoil 0 (fun x =>
     { x with extents := [(4, 2 ^ 24)], want := [(0, 2)] })).takeIngress 3 (coilPkt 6 5)).2, 2 ^ 24, (by decide +kernel),
     (by decide +kernel), (pair_eq (by decide +kernel)), (border_true (by decide +kernel)),
     (by unfold State.recorderOff; decide +kernel), (by unfold State.quiet; decide +kernel), (by decide +kernel),
     (by decide +kernel), (by decide +kernel), (by decide +kernel), (by decide +kernel), (by decide +kernel),
     (by decide +kernel), (by decide +kernel)⟩⟩

/-- The hypotheses of `Obligations.CoreWordRoundTrip`, clause by clause. -/
theorem witness_CoreWordRoundTrip :
    (∃ (i : Instr) (b : Nat) (f : Bool) (w : Word), i.wf = true ∧ coreOperands i = some (b, f, w)) :=
  ⟨Instr.add 127 true 0x0000886000000000, 127, true, 0x0000886000000000, (by decide +kernel)⟩

/-- The hypotheses of `Obligations.CountersSaturate`, clause by clause. -/
theorem witness_CountersSaturate :
    (∃ (b : Nat) (f : Fld), f ∈ [BLK_CORE_RETIRED_COUNT b, BLK_CORE_COUNT_TRANSIENT b, BLK_CORE_COUNT_PARITY b,
      BLK_CORE_COUNT_REEXEC b, BLK_CORE_COUNT_REFETCH b]) ∧
    (∃ (b : Nat) (f : Fld) (o : Nat), f ∈ [BLK_CORE_RETIRED_COUNT b, BLK_CORE_COUNT_TRANSIENT b, BLK_CORE_COUNT_PARITY b,
      BLK_CORE_COUNT_REEXEC b, BLK_CORE_COUNT_REFETCH b] ∧ o ≠ f.off) ∧
    (∃ (b : Nat) (f : Fld) (i : Nat), f ∈ [BLK_CORE_RETIRED_COUNT b, BLK_CORE_COUNT_TRANSIENT b, BLK_CORE_COUNT_PARITY b,
      BLK_CORE_COUNT_REEXEC b, BLK_CORE_COUNT_REFETCH b] ∧ (i < f.lo ∨ f.hi < i)) :=
  ⟨⟨127, BLK_CORE_RETIRED_COUNT 127, (by decide +kernel)⟩,
   ⟨127, BLK_CORE_COUNT_REFETCH 127, 0, (by decide +kernel)⟩,
   ⟨127, BLK_CORE_COUNT_PARITY 127, 63, (by decide +kernel)⟩⟩

/-- The hypotheses of `Obligations.DoorbellsAndTasks`, clause by clause. -/
theorem witness_DoorbellsAndTasks :
    (∃ (a : Auth) (p : Path) (q : Nat) (v : Word) (s : State), s.reaches a p (DB_TAIL q) ∧ s.replayQueue q = false ∧
      (s.queueOf q).st ≠ QState.unbound ∧ (bits (BitVec.toNat v) 31 0 + 2 ^ 32 - (s.queueOf q).tail) % 2 ^ 32 ≤ ((s.queueOf
      q).done + 2 ^ (s.queueOf q).sizeLog2 + 2 ^ 32 - (s.queueOf q).tail) % 2 ^ 32) ∧
    (∃ (a : Auth) (p : Path) (q : Nat) (v : Word) (s : State), s.reaches a p (DB_TAIL q) ∧ s.replayQueue q = false ∧
      (s.queueOf q).st ≠ QState.unbound ∧ ((s.queueOf q).done + 2 ^ (s.queueOf q).sizeLog2 + 2 ^ 32 - (s.queueOf q).tail) % 2
      ^ 32 < (bits (BitVec.toNat v) 31 0 + 2 ^ 32 - (s.queueOf q).tail) % 2 ^ 32) ∧
    (∃ (a : Auth) (p : Path) (q : Nat) (s : State), s.reaches a p (DB_TAIL q) ∧ s.replayQueue q = false ∧ (s.queueOf q).st =
      QState.unbound) ∧
    (∃ (q : Nat) (s : State) (s1 : State) (l : List Byte), s.powered = true ∧ (s.queueOf q).st = QState.run ∧ (s.queueOf
      q).entry = none ∧ s.admitted (s.queueOf q).ctx = true ∧ (s.ctxOf (s.queueOf q).ctx).tearing = false ∧ s.partExists
      (s.ctxOf (s.queueOf q).ctx).part = true ∧ s.scoreboardUsed (s.leadRegion (s.ctxOf (s.queueOf q).ctx).part) < s.fld
      DIM_SCHED_SCOREBOARD ∧ s.replayQueue q = false ∧ (s.queueOf q).head ≠ (s.queueOf q).tail ∧ s.vread (s.queueOf q).ctx
      ((s.queueOf q).slotVa (s.queueOf q).head) 64 Access.read = (Res.ok l, s1) ∧ (s1.rplNote (s.queueOf q).ctx rplEntry
      (leBytes q 4 ++ leBytes (s.queueOf q).head 4 ++ l)).entryBad q (entryOf ((s1.rplNote (s.queueOf q).ctx rplEntry (leBytes
      q 4 ++ leBytes (s.queueOf q).head 4 ++ l)).queueOf q).head l) l = false) ∧
    (∃ (q : Nat) (s : State) (s1 : State) (l : List Byte), s.powered = true ∧ (s.queueOf q).st = QState.run ∧ (s.queueOf
      q).entry = none ∧ s.admitted (s.queueOf q).ctx = true ∧ (s.ctxOf (s.queueOf q).ctx).tearing = false ∧ s.partExists
      (s.ctxOf (s.queueOf q).ctx).part = true ∧ s.scoreboardUsed (s.leadRegion (s.ctxOf (s.queueOf q).ctx).part) < s.fld
      DIM_SCHED_SCOREBOARD ∧ s.replayQueue q = false ∧ (s.queueOf q).head ≠ (s.queueOf q).tail ∧ s.vread (s.queueOf q).ctx
      ((s.queueOf q).slotVa (s.queueOf q).head) 64 Access.read = (Res.ok l, s1) ∧ (s1.rplNote (s.queueOf q).ctx rplEntry
      (leBytes q 4 ++ leBytes (s.queueOf q).head 4 ++ l)).entryBad q (entryOf ((s1.rplNote (s.queueOf q).ctx rplEntry (leBytes
      q 4 ++ leBytes (s.queueOf q).head 4 ++ l)).queueOf q).head l) l = true) ∧
    (∃ (q : Nat) (b : Nat) (f : Bool) (e : Entry) (s : State), s.powered = true ∧ (s.ctxOf (s.queueOf q).ctx).st =
      CtxState.resident ∧ (s.ctxOf (s.queueOf q).ctx).tearing = false ∧ (s.queueOf q).entry = some e ∧ e.args.length = 4 ∧ if
      f = true then s.firstQueue (s.fillQueues (s.queueOf q).ctx) = some q ∧ s.fillBlock (s.queueOf q).ctx = some b else
      s.firstQueue (s.startQueues (s.queueOf q).ctx 0) = some q ∧ s.idleBlock (s.queueOf q).ctx = some b) ∧
    (∃ (b : Nat) (c : Nat) (f : Bool) (v : Word) (s : State) (s1 : State), s.powered = true ∧ (s.blk b).ctx = some c ∧ (s.cset
      b f).exited = some v ∧ (s.cset b f).placed = true ∧ ((s.blk b).phase = SwPhase.idle ∨ (s.blk b).phase =
      SwPhase.stopping) ∧ (s.blk b).discard = false ∧ s.vwrite c ((s.queueOf (s.cset b f).queue).slotVa (s.cset b f).seq + 56)
      (leBytes (BitVec.toNat v) 4) = (Res.ok (), s1)) ∧
    (∃ (x : Queue) (n : Nat), n ∈ (Queue.advance (x.exited.length + 1) x).exited) :=
  ⟨⟨.tenant, .internal, 5, 16, withQueue queueFive, (by unfold State.reaches; decide +kernel)⟩,
   ⟨.tenant, .internal, 5, 17, withQueue queueFive, (by unfold State.reaches; decide +kernel)⟩,
   ⟨.tenant, .internal, 4095, dev, (by unfold State.reaches; decide +kernel)⟩,
   ⟨5, withQueue queueFive, ((withQueue queueFive).vread ((withQueue queueFive).queueOf 5).ctx (((withQueue queueFive).queueOf
     5).slotVa ((withQueue queueFive).queueOf 5).head) 64 Access.read).2, List.replicate 64 0, (by decide +kernel),
     (by decide +kernel), (by decide +kernel), (by decide +kernel), (by decide +kernel), (by decide +kernel),
     (by decide +kernel), (by decide +kernel), (by decide +kernel), (pair_eq (ok_eq (by decide +kernel))),
     (by decide +kernel)⟩,
   ⟨5, withQueueBytes, (withQueueBytes.vread (withQueueBytes.queueOf 5).ctx ((withQueueBytes.queueOf 5).slotVa
     (withQueueBytes.queueOf 5).head) 64 Access.read).2, 1 :: List.replicate 63 0, (by decide +kernel), (by decide +kernel),
     (by decide +kernel), (by decide +kernel), (by decide +kernel), (by decide +kernel), (by decide +kernel),
     (by decide +kernel), (by decide +kernel), (pair_eq (ok_eq (by decide +kernel))), (by decide +kernel)⟩,
   ⟨5, 0, false, entryZero, (withQueue { queueFive with entry := some entryZero, head := 1 }).modBst 0 (fun x =>
     { x with main := .reset }), (by decide +kernel)⟩,
   ⟨0, 1, false, 7, (withQueue queueFive).modSet 0 false (fun x => { x with exited := some 7, queue := 5 }), (((withQueue
     queueFive).modSet 0 false (fun x => { x with exited := some 7, queue := 5 })).vwrite 1 ((((withQueue queueFive).modSet 0
     false (fun x => { x with exited := some 7, queue := 5 })).queueOf (((withQueue queueFive).modSet 0 false (fun x =>
     { x with exited := some 7, queue := 5 })).cset 0 false).queue).slotVa (((withQueue queueFive).modSet 0 false (fun x =>
     { x with exited := some 7, queue := 5 })).cset 0 false).seq + 56) (leBytes (BitVec.toNat 7) 4)).2, (by decide +kernel),
     (by decide +kernel), (by decide +kernel), (by decide +kernel), (by decide +kernel), (by decide +kernel), (pair_eq (ok_eq
     (by decide +kernel)))⟩,
   ⟨{ queueFive with exited := [3] }, 3, (by decide +kernel)⟩⟩

/-- The hypotheses of `Obligations.FabricTimeAndTriggers`, clause by clause. -/
theorem witness_FabricTimeAndTriggers :
    (∃ (p : Path) (v : Word) (s : State), s.reaches Auth.operator p FTU_EPOCH ∧ (bits (BitVec.toNat v) 31 0 = 0 ∨ s.partList ≠
      [])) ∧
    (∃ (p : Path) (v : Word) (s : State), s.reaches Auth.operator p FTU_EPOCH ∧ bits (BitVec.toNat v) 31 0 ≠ 0 ∧ s.partList =
      [] ∧ (s.fld FTU_EPOCH_EPOCH_ID = 0 ∨ s.fld FTU_EPOCH_EPOCH_ID = bits (BitVec.toNat v) 31 0)) ∧
    (∃ (p : Path) (v : Word) (s : State), s.reaches Auth.operator p FTU_EPOCH ∧ bits (BitVec.toNat v) 31 0 ≠ 0 ∧ s.partList =
      [] ∧ s.fld FTU_EPOCH_EPOCH_ID ≠ 0 ∧ s.fld FTU_EPOCH_EPOCH_ID ≠ bits (BitVec.toNat v) 31 0) ∧
    (∃ (a : Auth) (p : Path) (s : State), s.reaches a p FTU_EPOCH ∧ a ≠ Auth.operator) ∧
    (∃ (port : Nat) (seqId : Nat) (s : State), s.timeRuns = true ∧ port < 2 ∧ s.sourceValid (37 - port) = true ∧ (s.source (37
      - port)).seqId = some seqId) ∧
    (∃ (port : Nat) (seqId : Nat) (s : State), s.timeRuns = true ∧ port < 2 ∧ (s.sourceValid (37 - port) = false ∨ (s.source
      (37 - port)).seqId ≠ some seqId)) ∧
    (∃ (p : Nat) (s : State), s.powered = true ∧ (s.source p).valid = true) ∧
    (∃ (s : State), s.servo.everLocked = true ∧ s.usedSources = []) ∧
    (∃ (s : State), s.usedSources ≠ [] ∧ s.servo.everLocked = false) ∧
    (∃ (s : State), s.usedSources ≠ [] ∧ s.servo.everLocked = true ∧ (combined s.usedSources).fst < -(↑(s.fld
      FTU_SERVO_STEP_NS) * nsUnit * (combined s.usedSources).snd)) ∧
    (∃ (s : State), s.usedSources ≠ [] ∧ s.servo.everLocked = true ∧ -(↑(s.fld FTU_SERVO_STEP_NS) * nsUnit * (combined
      s.usedSources).snd) ≤ (combined s.usedSources).fst) ∧
    (∃ (s : State), s.powered = true ∧ s.servo.everLocked = true ∧ s.fld FTU_CTRL_HOLD_LIMIT_NS < s.errBound ∧ s.flag
      FTU_STATUS_DEGRADED = false) ∧
    (∃ (s : State) (since : Nat), s.powered = true ∧ (s.flag FTU_STATUS_HOLDOVER = true ∨ s.flag FTU_STATUS_DEGRADED = true) ∧
      s.usedSources ≠ [] ∧ s.servo.goodSince = some since ∧ since + 1000000000 ≤ s.now) ∧
    (∃ (a : Auth) (p : Path) (region : Option Nat) (i : Nat) (v : Word) (s : State), s.reaches a p (trigCtrl region i) ∧
      s.slotMay region a = true ∧ ∀ (r : Nat), region = some r → a = Auth.driver → s.driverTarget r (bits (BitVec.toNat v) 11
      8) (bits (BitVec.toNat v) 23 12) = true) ∧
    (∃ (a : Auth) (p : Path) (region : Option Nat) (i : Nat) (s : State), s.reaches a p (trigCtrl region i) ∧ i < 256 ∧ (∀ (r
      : Nat), region = some r → r < 4) ∧ s.slotMay region a = false) ∧
    (∃ (p : Path) (r : Nat) (i : Nat) (v : Word) (s : State), s.reaches Auth.driver p (RGN_TRIG_CTRL r i) ∧ s.driverTarget r
      (bits (BitVec.toNat v) 11 8) (bits (BitVec.toNat v) 23 12) = false) ∧
    (∃ (region : Option Nat) (i : Nat) (s : State), s.powered = true ∧ s.servo.everLocked = true ∧ s.slotDue (trigCtrl region
      i) = true ∧ s.slotFirst (trigCtrl region i) = true) ∧
    (∃ (region : Option Nat) (i : Nat) (s : State), i < 256 ∧ (∀ (r : Nat), region = some r → r < 4) ∧ bits (BitVec.toNat
      (s.reg (trigCtrl region i))) 63 32 = 0) ∧
    (∃ (region : Option Nat) (i : Nat) (s : State), i < 256 ∧ (∀ (r : Nat), region = some r → r < 4) ∧ bits (BitVec.toNat
      (s.reg (trigCtrl region i))) 63 32 ≠ 0 ∧ s.now + bits (BitVec.toNat (s.reg (trigCtrl region i))) 63 32 < 2 ^ 64 ∧
      BitVec.toNat (s.reg (trigTime region i)) ≤ s.now) :=
  ⟨⟨.mgmt0, 0, dev, (by unfold State.reaches; decide +kernel)⟩,
   ⟨.mgmt0, 1, dev, (by unfold State.reaches; decide +kernel)⟩,
   ⟨.mgmt0, 0xFFFFFFFF, dev.setFld FTU_EPOCH_EPOCH_ID 3, (by unfold State.reaches; decide +kernel)⟩,
   ⟨.driver, .josil, dev, (by unfold State.reaches; decide +kernel)⟩,
   ⟨1, 9, ({ dev with sources := [(36, { Source.reset with seqId := some 9, valid := true })] } : State).setFlag
     FTU_CTRL_PTP0_EN true, (by decide +kernel)⟩,
   ⟨0, 9, dev, (by decide +kernel)⟩,
   ⟨5, sourced, (by decide +kernel)⟩,
   ⟨locked dev, (by decide +kernel)⟩,
   ⟨ptpDev dev 5, (by decide +kernel)⟩,
   ⟨ptpDev (locked dev) (-20000 * 2 ^ 32), (by decide +kernel)⟩,
   ⟨ptpDev (locked dev) 5, (by decide +kernel)⟩,
   ⟨(locked dev).modServo (fun v => { v with holdErr := 65535 }), (by decide +kernel)⟩,
   ⟨((({ locked dev with sources := [(36, { Source.reset with valid := true })] } : State).setFlag FTU_CTRL_PTP0_EN
     true).setFlag FTU_STATUS_HOLDOVER true).modServo (fun v => { v with goodSince := some 0 }), 0, (by decide +kernel)⟩,
   ⟨.driver, .josil, some 3, 255, 0, dev, (by unfold State.reaches; decide +kernel), (by decide +kernel),
     (by intro r hr _; cases hr; decide +kernel)⟩,
   ⟨.tenant, .internal, some 3, 255, dev, (by unfold State.reaches; decide +kernel)⟩,
   ⟨.josil, 3, 255, 0x100, dev, (by unfold State.reaches; decide +kernel)⟩,
   ⟨none, 0, ((locked dev).setReg (FTU_TRIG_CTRL 0) 1).modServo (fun v => { v with fireAt := some 5 }), (by decide +kernel)⟩,
   ⟨some 3, 255, dev, (by decide +kernel), (by intro r hr; cases hr; decide), (by decide +kernel)⟩,
   ⟨none, 255, dev.setReg (FTU_TRIG_CTRL 255) (BitVec.ofNat 64 (1000 * 2 ^ 32)), (by decide +kernel),
     (by intro r hr; cases hr), (by decide +kernel), (by decide +kernel), (by decide +kernel)⟩⟩

/-- The hypotheses of `Obligations.FabricTimeInstructions`, clause by clause. -/
theorem witness_FabricTimeInstructions :
    (∃ (b : Nat) (f : Bool) (w : Word) (s : State), s.issues b f ∧ wSb w = 0 ∧ wImm w = 0 ∧ wSa w = 0) ∧
    (∃ (b : Nat) (f : Bool) (w : Word) (s : State), s.issues b f ∧ wSb w = 0 ∧ wImm w = 0 ∧ s.servo.everLocked = true ∧
      BitVec.toNat (s.sreg b f (wSa w)) ≤ s.blockNow b) ∧
    (∃ (b : Nat) (f : Bool) (w : Word) (s : State), s.issues b f ∧ wSb w = 0 ∧ wImm w = 0 ∧ (s.servo.everLocked = false ∨
      s.blockNow b < BitVec.toNat (s.sreg b f (wSa w)))) ∧
    (∃ (b : Nat) (d : Nat) (target : Nat) (f : Bool) (s : State), s.issues b f ∧ target ≤ s.blockNow b ∧ (s.cset b f).wait =
      Wait.time d target ∧ s.servo.everLocked = true) ∧
    (∃ (b : Nat) (d : Nat) (target : Nat) (mask : Nat) (f : Bool) (s : State), s.issues b f ∧ target ≤ s.blockNow b ∧ (s.cset
      b f).wait = Wait.deadline d target mask ∧ ∃ (i : Nat), i < 32 ∧ mask.testBit i = true ∧ ((s.cset b f).ticket i).st =
      TkState.busy) :=
  ⟨⟨0, true, 0x2120800000000000, onFill, (by unfold State.issues State.quiet; decide +kernel)⟩,
   ⟨0, false, 0x2130800000000000, locked onBlock, (by unfold State.issues State.quiet; decide +kernel), (by decide +kernel),
     (by decide +kernel), (by decide +kernel), (Nat.zero_le _)⟩,
   ⟨0, false, 0x2130800000000000, onBlock, (by unfold State.issues State.quiet; decide +kernel), (by decide +kernel),
     (by decide +kernel), (Or.inl (by decide +kernel))⟩,
   ⟨0, 3, 0, false, (locked onBlock).modSet 0 false (fun x => { x with wait := .time 3 0 }),
     (by unfold State.issues State.quiet; decide +kernel), (Nat.zero_le _), (by decide +kernel), (by decide +kernel)⟩,
   ⟨0, 3, 0, 2, false, ((locked onBlock).modSet 0 false (fun x =>
     { x with wait := .deadline 3 0 2, tk := [(1, ⟨.busy, 1, 0, 0⟩)] })),
     (by unfold State.issues State.quiet; decide +kernel), (Nat.zero_le _), (by decide +kernel), (by decide +kernel)⟩⟩

/-- The hypotheses of `Obligations.HbmCommands`, clause by clause. -/
theorem witness_HbmCommands :
    (∃ (a : Auth) (p : Path) (s : State), s.reaches a p HBM_TLBI_CTRL ∧ s.flag HBM_TLBI_CTRL_DONE = false) ∧
    (∃ (a : Auth) (p : Path) (v : Word) (s : State), s.reaches a p HBM_TLBI_CTRL ∧ s.flag HBM_TLBI_CTRL_DONE = true ∧ a =
      Auth.driver ∧ bitOf (BitVec.toNat v) 62 = true) ∧
    (∃ (a : Auth) (p : Path) (v : Word) (s : State), s.reaches a p HBM_TLBI_CTRL ∧ s.flag HBM_TLBI_CTRL_DONE = true ∧ ¬(a =
      Auth.driver ∧ bitOf (BitVec.toNat v) 62 = true)) ∧
    (∃ (a : Auth) (p : Path) (v : Word) (s : State), s.reaches a p HBM_DIRTY_CTRL ∧ bitOf (BitVec.toNat v) 1 = true ∧ s.coilOn
      = false ∧ (a = Auth.operator ∨ a = Auth.driver)) ∧
    (∃ (a : Auth) (p : Path) (v : Word) (s : State), s.reaches a p HBM_DIRTY_CTRL ∧ bitOf (BitVec.toNat v) 1 = true ∧ s.coilOn
      = true ∧ (a = Auth.operator ∨ a = Auth.driver)) ∧
    (∃ (a : Auth) (p : Path) (v : Word) (s : State), s.reaches a p HBM_DIRTY_CTRL ∧ bitOf (BitVec.toNat v) 1 = true ∧ a ≠
      Auth.operator ∧ a ≠ Auth.driver) ∧
    (∃ (a : Auth) (p : Path) (bank : Nat) (idx : Nat) (v : Word) (s : State), s.reaches a p (HBM_DIRTY bank idx) ∧ v ≠ 0 ∧
      s.coilOn = false) ∧
    (∃ (a : Auth) (p : Path) (bank : Nat) (idx : Nat) (v : Word) (s : State), s.reaches a p (HBM_DIRTY bank idx) ∧ v ≠ 0 ∧
      s.coilOn = true) ∧
    (∃ (a : Auth) (p : Path) (s : State), s.reaches a p HBM_ILV) ∧
    (∃ (a : Auth) (p : Path) (s : State), s.reaches a p HBM_SCRUB_CTRL ∧ s.flag HBM_SCRUB_CTRL_DONE = false) ∧
    (∃ (a : Auth) (p : Path) (v : Word) (s : State), s.reaches a p HBM_SCRUB_CTRL ∧ s.flag HBM_SCRUB_CTRL_DONE = true ∧ bitOf
      (BitVec.toNat v) 62 = true ∧ (a = Auth.operator ∨ a = Auth.driver ∧ (s.store a p HBM_SCRUB_CTRL v).driverRange ((s.store
      a p HBM_SCRUB_CTRL v).fld HBM_SCRUB_BASE_BASE * 65536) (((s.store a p HBM_SCRUB_CTRL v).fld HBM_SCRUB_CTRL_SIZE *
      65536).min (usableEnd - (s.store a p HBM_SCRUB_CTRL v).fld HBM_SCRUB_BASE_BASE * 65536)) = true)) ∧
    (∃ (a : Auth) (p : Path) (v : Word) (s : State), s.reaches a p HBM_SCRUB_CTRL ∧ s.flag HBM_SCRUB_CTRL_DONE = true ∧ bitOf
      (BitVec.toNat v) 62 = true ∧ a ≠ Auth.operator ∧ (a = Auth.driver → (s.store a p HBM_SCRUB_CTRL v).driverRange ((s.store
      a p HBM_SCRUB_CTRL v).fld HBM_SCRUB_BASE_BASE * 65536) (((s.store a p HBM_SCRUB_CTRL v).fld HBM_SCRUB_CTRL_SIZE *
      65536).min (usableEnd - (s.store a p HBM_SCRUB_CTRL v).fld HBM_SCRUB_BASE_BASE * 65536)) = false)) ∧
    (∃ (a : Auth) (p : Path) (v : Word) (s : State), s.reaches a p HBM_SCRUB_CTRL ∧ s.flag HBM_SCRUB_CTRL_DONE = true ∧ bitOf
      (BitVec.toNat v) 62 = false) ∧
    (∃ (s : State) (base : Nat) (len : Nat) (why : ScrubFor) (rest : List (Nat × Nat × ScrubFor)), s.powered = true ∧ s.scrubs
      = (base, len, why) :: rest ∧ s.saveHeld base len = true) ∧
    (∃ (s : State) (base : Nat) (len : Nat) (why : ScrubFor) (rest : List (Nat × Nat × ScrubFor)), s.powered = true ∧ s.scrubs
      = (base, len, why) :: rest ∧ s.saveHeld base len = false) ∧
    (∃ (s : State), s.powered = true ∧ s.flag HBM_TLBI_CTRL_DONE = false ∧ ∀ (m : Move), m ∈ s.moves → m.tag = s.tagOf (s.fld
      HBM_TLBI_CTRL_CONTEXT) → s.moveOutstanding m.id = false ∧ m.got = none) ∧
    (∃ (tag : Nat) (who : Reader) (s : State), s.powered = true ∧ who ≠ Reader.companion ∧ s.tagCurrent tag = false) ∧
    (∃ (tag : Nat) (va : Word) (acc : Access) (who : Reader) (s : State) (x : Nat × Nat), s.powered = true ∧ who ≠
      Reader.companion ∧ s.tagCurrent tag = true ∧ s.walkWaits (tag / 256) (BitVec.toNat va) = false ∧ s.translate (tag / 256)
      (BitVec.toNat va) acc = Except.ok x) ∧
    (∃ (tag : Nat) (va : Word) (acc : Access) (who : Reader) (s : State) (e : Nat), s.powered = true ∧ who ≠ Reader.companion
      ∧ s.tagCurrent tag = true ∧ s.walkWaits (tag / 256) (BitVec.toNat va) = false ∧ s.translate (tag / 256) (BitVec.toNat
      va) acc = Except.error e) ∧
    (∃ (tag : Nat) (b : Nat) (f : Bool) (s : State), (s.blk b).ctx = some (tag / 256) ∧ s.canIssue b f = true) ∧
    (∃ (dpa : Nat) (fails : Nat) (s : State), s.powered = true ∧ dpa < 2 ^ 39 ∧ s.hbmPoisoned dpa = false ∧ fails < 3) ∧
    (∃ (dpa : Nat) (fails : Nat) (s : State), s.powered = true ∧ dpa < 2 ^ 39 ∧ s.hbmPoisoned dpa = false ∧ 3 ≤ fails) ∧
    (∃ (dpa : Nat) (fails : Nat) (tag : Nat) (s : State), s.powered = true ∧ dpa < 2 ^ 39 ∧ s.hbmPoisoned dpa = false ∧ 3 ≤
      fails ∧ s.tagCurrent tag = true) ∧
    (∃ (k : Nat) (s : State) (t : FrameTest) (rest : List FrameTest), s.powered = true ∧ takeFirst (fun (x : FrameTest) =>
      x.stack == k) s.frameTests = (some t, rest) ∧ (k, Config.hbmChannel k t.frame) ∈ ({ s with frameTests := rest }.setFlag
      (HBM_STATUS_SELFTEST k) (rest.any fun (x : FrameTest) => x.stack == k)).flushHeld.badChannels) ∧
    (∃ (k : Nat) (s : State) (t : FrameTest) (rest : List FrameTest), s.powered = true ∧ takeFirst (fun (x : FrameTest) =>
      x.stack == k) s.frameTests = (some t, rest) ∧ ¬(k, Config.hbmChannel k t.frame) ∈ ({ s with frameTests := rest }.setFlag
      (HBM_STATUS_SELFTEST k) (rest.any fun (x : FrameTest) => x.stack == k)).flushHeld.badChannels) ∧
    (∃ (k : Nat) (s : State) (t : FrameTest) (rest : List FrameTest), s.powered = true ∧ takeFirst (fun (x : FrameTest) =>
      x.stack == k) s.frameTests = (some t, rest)) ∧
    (∃ (b : Nat) (row : Nat) (inj : Bool) (rest : List (Nat × Bool)) (s : State), s.powered = true ∧ (s.blk b).rowTests =
      (row, inj) :: rest) ∧
    (∃ (b : Nat) (row : Nat) (inj : Bool) (rest : List (Nat × Bool)) (s : State) (n : Nat), s.powered = true ∧ (s.blk
      b).rowTests = (row, inj) :: rest ∧ ((((s.modBlk b fun (x : Blk) => { x with rowTests := rest }).forEach (List.range 4)
      fun (s : State) (i : Nat) => s.modBst b fun (x : BlkState) => x.setLinePoison (bankRowBase row + 256 * i) true).modBlk b
      fun (x : Blk) => x.dropSpare row).blk b).freeRowSpare (row / 256) = some n) ∧
    (∃ (b : Nat) (row : Nat) (inj : Bool) (rest : List (Nat × Bool)) (s : State), s.powered = true ∧ (s.blk b).rowTests =
      (row, inj) :: rest ∧ ((((s.modBlk b fun (x : Blk) => { x with rowTests := rest }).forEach (List.range 4) fun (s : State)
      (i : Nat) => s.modBst b fun (x : BlkState) => x.setLinePoison (bankRowBase row + 256 * i) true).modBlk b fun (x : Blk)
      => x.dropSpare row).blk b).freeRowSpare (row / 256) = none) :=
  ⟨⟨.driver, .josil, dev.setFlag HBM_TLBI_CTRL_DONE false, (by unfold State.reaches; decide +kernel)⟩,
   ⟨.driver, .josil, BitVec.ofNat 64 (2 ^ 62), dev, (by unfold State.reaches; decide +kernel)⟩,
   ⟨.operator, .mgmt0, BitVec.ofNat 64 (2 ^ 62), dev, (by unfold State.reaches; decide +kernel)⟩,
   ⟨.driver, .josil, 2, dev, (by unfold State.reaches; decide +kernel)⟩,
   ⟨.driver, .josil, 2, dev.setFlag (COL_CTRL_EN 0) true, (by unfold State.reaches; decide +kernel)⟩,
   ⟨.firmware, .internal, 2, dev, (by unfold State.reaches; decide +kernel)⟩,
   ⟨.driver, .josil, 1, 0, 5, dev, (by unfold State.reaches; decide +kernel)⟩,
   ⟨.driver, .josil, 0, 3, 5, dev.setFlag (COL_CTRL_EN 15) true, (by unfold State.reaches; decide +kernel)⟩,
   ⟨.firmware, .internal, dev, (by unfold State.reaches; decide +kernel)⟩,
   ⟨.driver, .josil, dev.setFlag HBM_SCRUB_CTRL_DONE false, (by unfold State.reaches; decide +kernel)⟩,
   ⟨.driver, .josil, BitVec.ofNat 64 (2 ^ 62 + 1), devPart, (by unfold State.reaches; decide +kernel)⟩,
   ⟨.driver, .josil, BitVec.ofNat 64 (2 ^ 62 + 1), dev, (by unfold State.reaches; decide +kernel), (by decide +kernel),
     (by decide +kernel), (by decide +kernel), (by intro _; decide +kernel)⟩,
   ⟨.driver, .josil, 0, dev, (by unfold State.reaches; decide +kernel)⟩,
   ⟨testing 0 { dev with scrubs := [(0, 65536, .command)] }, 0, 65536, .command, [], (by decide +kernel)⟩,
   ⟨{ dev with scrubs := [(0, 65536, .command)] }, 0, 65536, .command, [], (by decide +kernel)⟩,
   ⟨dev.setFlag HBM_TLBI_CTRL_DONE false, (by decide +kernel), (by decide +kernel), (fun m hm _ => absurd (show m ∈ ([] : List
     Move) from hm) List.not_mem_nil)⟩,
   ⟨257, .context, onBlock, (by decide +kernel)⟩,
   ⟨256, 0x1FFFF8, .write, .core 0 false 0, onBlock, (0, 2 ^ 21 + 0x1FFFF8), (by decide +kernel), (by decide +kernel),
     (by decide +kernel), (by decide +kernel), (xok_eq (by decide +kernel))⟩,
   ⟨256, BitVec.ofNat 64 (2 ^ 48), .read, .fetch 0 false, onBlock, VADDR_RANGE, (by decide +kernel), (by decide +kernel),
     (by decide +kernel), (by decide +kernel), (xerr_eq (by decide +kernel))⟩,
   ⟨256, 0, false, onBlock, (by decide +kernel)⟩,
   ⟨2 ^ 39 - 1, 2, dev, (by decide +kernel)⟩,
   ⟨0, 3, dev, (by decide +kernel)⟩,
   ⟨0, 3, 256, onBlock, (by decide +kernel)⟩,
   ⟨7, { testDev with badChannels := [(7, Config.hbmChannel 7 5)] }, ⟨7, 5, false, true⟩, [], (by decide +kernel), (pair_eq
     (by decide +kernel)), (List.Mem.head _)⟩,
   ⟨7, testDev, ⟨7, 5, false, true⟩, [], (by decide +kernel), (pair_eq (by decide +kernel)), (List.not_mem_nil)⟩,
   ⟨0, { dev with frameTests := [⟨7, 5, false, true⟩, ⟨0, 6, true, true⟩] }, ⟨0, 6, true, true⟩, [⟨7, 5, false, true⟩],
     (by decide +kernel)⟩,
   ⟨0, 17 * 256, false, [], onBlk (fun k => { k with rowTests := [(17 * 256, false)] }), (by decide +kernel)⟩,
   ⟨0, 5, false, [], onBlk (fun k => { k with rowTests := [(5, false)] }), 0, (by decide +kernel)⟩,
   ⟨0, 5, false, [], onBlk (fun k => { k with rowTests := [(5, false)], rowSpares := [(0, 0), (1, 1), (2, 2), (3, 3)] }),
     (by decide +kernel)⟩⟩

/-- The hypotheses of `Obligations.IllegalInstructions`, clause by clause. -/
theorem witness_IllegalInstructions :
    (∃ (b : Nat) (f : Bool) (w : Word) (s : State), decodeCore b f w = Instr.illegalInstruction b f w ∧ s.issues b f) ∧
    (∃ (b : Nat) (f : Bool) (w : Word), decodeCore b f w ≠ Instr.illegalInstruction b f w) :=
  ⟨⟨0, false, 0x0180000000000000, onBlock, (by unfold State.issues State.quiet; decide +kernel)⟩,
   ⟨0, false, 0x0000886000000000, (by decide +kernel)⟩⟩

/-- The hypotheses of `Obligations.ImagesAndRepairs`, clause by clause. -/
theorem witness_ImagesAndRepairs :
    (∃ (fetched : Bool) (m : List Byte), fetched = false ∨ m.length < 64) ∧
    (∃ (s : State) (fetched : Bool) (m : List Byte), fetched = true ∧ 64 ≤ m.length ∧ leAt m 32 32 ≠ s.ownDigest) ∧
    (∃ (s : State) (fetched : Bool) (m : List Byte), fetched = true ∧ 64 ≤ m.length ∧ leAt m 32 32 = s.ownDigest ∧ leAt m 0 4
      = 1380991316 ∧ leAt m 4 4 ≤ 65536 ∧ zeroAt m 8 24 = true ∧ 64 + 16 * leAt m 4 4 ≤ m.length ∧ ∀ (i : Nat), i < leAt m 4 4
      → repairOk m (64 + 16 * i) = true) ∧
    (∃ (s : State) (fetched : Bool) (m : List Byte), fetched = true ∧ 64 ≤ m.length ∧ leAt m 32 32 = s.ownDigest ∧ ¬(leAt m 0
      4 = 1380991316 ∧ leAt m 4 4 ≤ 65536 ∧ zeroAt m 8 24 = true ∧ 64 + 16 * leAt m 4 4 ≤ m.length ∧ ∀ (i : Nat), i < leAt m 4
      4 → repairOk m (64 + 16 * i) = true)) ∧
    (∃ (m : List Byte) (a : Nat), repairOk m a = true) ∧
    (∃ (m : List Byte) (a : Nat), repairOk m a = true ∧ (repairAt m a).kind = 4) ∧
    (∃ (s : State) (fetched : Bool) (m : List Byte), s.powered = true ∧ s.lidFetched 1 fetched m = true) ∧
    (∃ (s : State) (fetched : Bool) (m : List Byte), s.powered = true ∧ s.lidFetched 2 fetched m = true) ∧
    (∃ (s : State), s.powered = true ∧ s.lid.key ≠ none ∧ s.lid.imageOk = true) :=
  ⟨⟨false, [], (by decide +kernel)⟩,
   ⟨dev, true, List.replicate 64 1, (by decide +kernel)⟩,
   ⟨dev, true, repairBytes 127, (by decide +kernel)⟩,
   ⟨dev, true, repairBytes 128, (by decide +kernel)⟩,
   ⟨repairBytes 127, 64, (by decide +kernel)⟩,
   ⟨repairBytes 127, 64, (by decide +kernel)⟩,
   ⟨lidHas 1 [], true, [], (by decide +kernel)⟩,
   ⟨lidHas 2 (repairBytes 3), true, repairBytes 3, (by decide +kernel)⟩,
   ⟨devKey.modLid (fun l => { l with imageOk := true }), (by decide +kernel)⟩⟩

/-- The hypotheses of `Obligations.IntegerArithmetic`, clause by clause. -/
theorem witness_IntegerArithmetic :
    (∃ (p : (Nat → Bool → Word → Instr) × (Word → Word → Word)) (b : Nat) (f : Bool) (w : Word) (s : State), p ∈ [(Instr.add,
      fun (x y : Word) => x + y), (Instr.sub, fun (x y : Word) => x - y), (Instr.and, fun (x y : Word) => x &&& y), (Instr.or,
      fun (x y : Word) => x ||| y), (Instr.xor, fun (x y : Word) => x ^^^ y), (Instr.sll, fun (x y : Word) => x <<<
      (BitVec.toNat y % 64)), (Instr.srl, fun (x y : Word) => x >>> (BitVec.toNat y % 64)), (Instr.sra, fun (x y : Word) =>
      BitVec.sshiftRight x (BitVec.toNat y % 64)), (Instr.slt, fun (x y : Word) => if BitVec.slt x y = true then 1 else 0),
      (Instr.sltu, fun (x y : Word) => if BitVec.ult x y = true then 1 else 0), (Instr.mul, fun (x y : Word) => x * y),
      (Instr.mulh, fun (x y : Word) => BitVec.ofInt 64 (BitVec.toInt x * BitVec.toInt y / 2 ^ 64)), (Instr.mulhu, fun (x y :
      Word) => BitVec.ofNat 64 (BitVec.toNat x * BitVec.toNat y / 2 ^ 64)), (Instr.div, fun (x y : Word) => if y = 0 then
      BitVec.allOnes 64 else BitVec.ofInt 64 ((BitVec.toInt x).tdiv (BitVec.toInt y))), (Instr.divu, fun (x y : Word) => if y
      = 0 then BitVec.allOnes 64 else BitVec.ofNat 64 (BitVec.toNat x / BitVec.toNat y)), (Instr.rem, fun (x y : Word) => if y
      = 0 then x else BitVec.ofInt 64 ((BitVec.toInt x).tmod (BitVec.toInt y))), (Instr.remu, fun (x y : Word) => if y = 0
      then x else BitVec.ofNat 64 (BitVec.toNat x % BitVec.toNat y)), (Instr.min, fun (x y : Word) => if BitVec.slt x y = true
      then x else y), (Instr.max, fun (x y : Word) => if BitVec.slt x y = true then y else x), (Instr.minu, fun (x y : Word)
      => if BitVec.ult x y = true then x else y), (Instr.maxu, fun (x y : Word) => if BitVec.ult x y = true then y else x)] ∧
      s.issues b f ∧ wImm w = 0) ∧
    (∃ (b : Nat) (f : Bool) (w : Word) (s : State), s.issues b f ∧ wImm w = 0 ∧ wSb w = 0) ∧
    (∃ (p : (Nat → Bool → Word → Instr) × (Word → Word → Word)) (b : Nat) (f : Bool) (w : Word) (s : State), p ∈ [(Instr.addi,
      fun (x y : Word) => x + y), (Instr.andi, fun (x y : Word) => x &&& y), (Instr.ori, fun (x y : Word) => x ||| y),
      (Instr.xori, fun (x y : Word) => x ^^^ y), (Instr.slli, fun (x y : Word) => x <<< (BitVec.toNat y % 64)), (Instr.srli,
      fun (x y : Word) => x >>> (BitVec.toNat y % 64)), (Instr.srai, fun (x y : Word) => BitVec.sshiftRight x (BitVec.toNat y
      % 64)), (Instr.slti, fun (x y : Word) => if BitVec.slt x y = true then 1 else 0), (Instr.sltiu, fun (x y : Word) => if
      BitVec.ult x y = true then 1 else 0)] ∧ s.issues b f ∧ wSb w = 0) ∧
    (∃ (b : Nat) (f : Bool) (w : Word) (s : State), s.issues b f ∧ wSa w = 0 ∧ wSb w = 0) ∧
    (∃ (b : Nat) (f : Bool) (w : Word) (s : State), s.issues b f ∧ wSb w = 0 ∧ wBits w 36 27 = 0) :=
  ⟨⟨(Instr.add, fun x y => x + y), 0, false, 0x0000886000000000, onBlock, (List.Mem.head _),
  (by unfold State.issues State.quiet; decide +kernel), (by decide +kernel)⟩,
   ⟨0, true, 0x0110880000000000, onFill, (by unfold State.issues State.quiet; decide +kernel)⟩,
   ⟨(Instr.addi, fun x y => x + y), 0, false, 0x0400881FFFFFFFFF, onBlock, (List.Mem.head _),
     (by unfold State.issues State.quiet; decide +kernel), (by decide +kernel)⟩,
   ⟨0, false, 0x0800801000000000, onBlock, (by unfold State.issues State.quiet; decide +kernel)⟩,
   ⟨0, false, 0x0810840000000005, onBlock, (by unfold State.issues State.quiet; decide +kernel)⟩⟩

/-- The hypotheses of `Obligations.IssueConditions`, clause by clause. -/
theorem witness_IssueConditions :
    (∃ (i : Instr) (b : Nat) (f : Bool) (w : Word) (s : State), coreOperands i = some (b, f, w) ∧ s.canIssue b f = false) ∧
    (∃ (i : Instr) (b : Nat) (f : Bool) (w : Word) (s : State), coreOperands i = some (b, f, w) ∧ s.canIssue b f = true ∧
      s.quiet ∧ (i = Instr.illegalInstruction b f w → decodeCore b f w = i) ∧ s.fetchWaits b f = true) ∧
    (∃ (i : Instr) (b : Nat) (f : Bool) (w : Word) (s : State) (code : Nat), coreOperands i = some (b, f, w) ∧ s.canIssue b f
      = true ∧ s.quiet ∧ (i = Instr.illegalInstruction b f w → decodeCore b f w = i) ∧ s.fetchWaits b f = false ∧ s.fetchFault
      b f = some code) ∧
    (∃ (b : Nat) (c : Nat) (f : Bool) (s : State), (s.blk b).ctx = some c ∧ s.flag (BLK_CORE_STATUS_FAULTED b) = false ∧
      (s.cset b f).fault = none) ∧
    (∃ (b : Nat) (c : Nat) (f : Bool) (s : State), (s.blk b).ctx = some c ∧ s.flag (BLK_CORE_STATUS_FAULTED b) = false ∧
      (s.cset b f).fault = none) ∧
    (∃ (b : Nat) (c : Nat) (f : Bool) (s : State) (b' : Nat), (s.blk b).ctx = some c ∧ s.flag (BLK_CORE_STATUS_FAULTED b) =
      false ∧ (s.cset b f).fault = none ∧ b' ≠ b) ∧
    (∃ (b : Nat) (c : Nat) (f : Bool) (s : State) (o : Nat), (s.blk b).ctx = some c ∧ s.flag (BLK_CORE_STATUS_FAULTED b) =
      false ∧ (s.cset b f).fault = none ∧ o ≠ BLK_CORE_FAULT b ∧ o ≠ BLK_CORE_STATUS b) ∧
    (∃ (b : Nat) (c : Nat) (s : State), (s.blk b).ctx = some c ∧ s.flag (BLK_CORE_STATUS_FAULTED b) = true) ∧
    (∃ (b : Nat) (c : Nat) (s : State), (s.blk b).ctx = some c ∧ s.flag (BLK_CORE_STATUS_FAULTED b) = true ∧ (s.bst
      b).faultDue = false) ∧
    (∃ (b : Nat) (c : Nat) (f : Bool) (s : State), (s.blk b).ctx = some c ∧ s.flag (BLK_CORE_STATUS_FAULTED b) = true ∧ (s.bst
      b).faultDue = true ∧ (s.cset b f).fault = none) ∧
    (∃ (b : Nat) (c : Nat) (f : Bool) (s : State) (x : CoreErr), (s.blk b).ctx = some c ∧ s.flag (BLK_CORE_STATUS_FAULTED b) =
      true ∧ (s.bst b).faultDue = true ∧ (s.cset b f).fault = some x) ∧
    (∃ (e : CoreErr) (n : Nat), n < 32 ∧ e.kind = 128 + n) ∧
    (∃ (e : CoreErr), e.kind = 96) ∧
    (∃ (e : CoreErr), e.kind < 128 ∧ e.kind ≠ 96) ∧
    (∃ (b : Nat) (f : Bool) (e : CoreErr) (s : State), (s.cset b f).fault = some e) ∧
    (∃ (b : Nat) (f : Bool) (s : State), (s.cset b f).fault = none) ∧
    (∃ (b : Nat) (f : Bool) (s : State), (s.cset b !f).fault = none ∧ (s.cset b f).fault ≠ none) ∧
    (∃ (b : Nat) (x : CoreErr) (y : CoreErr) (s : State), (s.cset b false).fault = some x ∧ (s.cset b true).fault = some y) :=
  ⟨⟨Instr.amocas 127 true 5, 127, true, 5, dev, (by decide +kernel)⟩,
   ⟨Instr.vadd 0 false 5, 0, false, 5, { onBlock with
       frameTests := [⟨(onBlock.frameOf (2 ^ 21 + 0x1000)).1, (onBlock.frameOf (2 ^ 21 + 0x1000)).2, false, true⟩] },
       (by decide +kernel), (by decide +kernel), (by unfold State.quiet; decide +kernel), (fun h => nomatch h),
       (by decide +kernel)⟩,
   ⟨Instr.vadd 0 false 5, 0, false, 5, { onBlock with tlb := [] }, XLATE_INVALID, (by decide +kernel), (by decide +kernel),
     (by unfold State.quiet; decide +kernel), (fun h => nomatch h), (by decide +kernel), (by decide +kernel)⟩,
   ⟨0, 1, false, onBlock, (by decide +kernel)⟩,
   ⟨0, 1, false, onBlock, (by decide +kernel)⟩,
   ⟨0, 1, false, onBlock, 1, (by decide +kernel)⟩,
   ⟨0, 1, false, onBlock, BLK_CORE_COUNT 0, (by decide +kernel)⟩,
   ⟨0, 1, onBlock.setFlag (BLK_CORE_STATUS_FAULTED 0) true, (by decide +kernel)⟩,
   ⟨0, 1, onBlock.setFlag (BLK_CORE_STATUS_FAULTED 0) true, (by decide +kernel)⟩,
   ⟨0, 1, true, (faultDev 3).setFlag (BLK_CORE_STATUS_FAULTED 0) true, (by decide +kernel)⟩,
   ⟨0, 1, false, (faultDev 3).setFlag (BLK_CORE_STATUS_FAULTED 0) true, errOne 3, (by decide +kernel)⟩,
   ⟨errOne 159, 31, (by decide +kernel)⟩,
   ⟨errOne 96, (by decide +kernel)⟩,
   ⟨errOne 127, (by decide +kernel)⟩,
   ⟨0, false, errOne 3, faultDev 3, (by decide +kernel)⟩,
   ⟨0, true, faultDev 3, (by decide +kernel)⟩,
   ⟨0, false, faultDev 3, (by decide +kernel)⟩,
   ⟨0, errOne 3, errOne 4, (faultDev 3).modSet 0 true (fun x => { x with fault := some (errOne 4) }), (by decide +kernel)⟩⟩

/-- The hypotheses of `Obligations.JosilLinkRules`, clause by clause. -/
theorem witness_JosilLinkRules :
    (∃ (s : State), s.powered = true ∧ s.jslState = 1) ∧
    (∃ (s : State), s.powered = true ∧ s.jslState = 2) ∧
    (∃ (s : State) (low : List (List Byte)) (high : List (List Byte)) (q : Nat) (d : Nat) (m : Nat), s.powered = true ∧
      s.jslState = 3 ∧ (chosenLanes (alignLanes (fun (p : Nat) => !bitOf s.josil.signal p) (low ++ high)).good).length ≠ 0 ∧
      (alignLanes (fun (p : Nat) => !bitOf s.josil.signal p) (low ++ high)).txLanes.length ≠ 0 ∧ 1 ≤ q ∧ 256 ≤ d ∧ 1 ≤ m) ∧
    (∃ (s : State) (low : List (List Byte)) (high : List (List Byte)) (q : Nat) (d : Nat) (m : Nat), s.powered = true ∧
      s.jslState = 3 ∧ ¬((chosenLanes (alignLanes (fun (p : Nat) => !bitOf s.josil.signal p) (low ++ high)).good).length ≠ 0 ∧
      (alignLanes (fun (p : Nat) => !bitOf s.josil.signal p) (low ++ high)).txLanes.length ≠ 0 ∧ 1 ≤ q ∧ 256 ≤ d ∧ 1 ≤ m)) ∧
    (∃ (s : State) (lane : Nat), s.powered = true ∧ s.jslState = 4 ∧ lane ∈ chosenLanes (s.fld JSL_STATUS_RX_GOOD)) ∧
    (∃ (s : State) (low : List (List Byte)) (high : List (List Byte)), s.powered = true ∧ s.jslState = 5 ∧ (chosenLanes
      (alignLanes (fun (x : Nat) => false) (low ++ high)).good).length ≠ 0 ∧ (alignLanes (fun (x : Nat) => false) (low ++
      high)).txLanes.length ≠ 0 ∧ s.josil.retrains + 1 < Nat.max 1 (s.fld JSL_CTRL_RETRAIN_LIMIT)) ∧
    (∃ (s : State) (low : List (List Byte)) (high : List (List Byte)), s.powered = true ∧ s.jslState = 5 ∧ ¬((chosenLanes
      (alignLanes (fun (x : Nat) => false) (low ++ high)).good).length ≠ 0 ∧ (alignLanes (fun (x : Nat) => false) (low ++
      high)).txLanes.length ≠ 0 ∧ s.josil.retrains + 1 < Nat.max 1 (s.fld JSL_CTRL_RETRAIN_LIMIT))) ∧
    (∃ (p : Path) (v : Word) (s : State), s.reaches Auth.driver p JSL_CTRL ∧ bitOf (BitVec.toNat v) 0 = true) ∧
    (∃ (p : Path) (v : Word) (s : State), s.reaches Auth.driver p JSL_CTRL ∧ bitOf (BitVec.toNat v) 1 = true) ∧
    (∃ (n : Nat) (s : State), (s.line n).st ≠ LineState.invalid ∧ (s.line n).filling = false) ∧
    (∃ (n : Nat) (s : State), (s.line n).st ≠ LineState.invalid ∧ (s.line n).filling = true) ∧
    (∃ (n : Nat) (s : State), (s.line n).st ≠ LineState.invalid ∧ n ∈ s.josil.flush) ∧
    (∃ (s : State), s.powered = true ∧ s.flag JSL_STATUS_FLUSHING = true ∧ s.josil.flush = [] ∧ (List.all s.josil.lines fun (e
      : Nat × Line) => !e.snd.evicting) = true) ∧
    (∃ (f : OutFlit), f.seq < 4096 ∧ f.ack < 4096 ∧ f.crReq < 65536 ∧ f.crData < 65536 ∧ f.crMsg < 65536 ∧ f.slots.length = 15
      ∧ ∀ (x : List Byte), x ∈ f.slots → x.length = 16) ∧
    (∃ (fl : Flit) (s : State), s.powered = true ∧ s.jslState = 4 ∧ (fl.fecOk = false ∨ flitFrom fl.bytes = none)) ∧
    (∃ (fl : Flit) (s : State) (f : OutFlit), s.powered = true ∧ s.jslState = 4 ∧ fl.fecOk = true ∧ flitFrom fl.bytes = some
      f) ∧
    (∃ (fl : Flit) (s : State) (f : OutFlit), s.powered = true ∧ s.jslState = 4 ∧ fl.fecOk = true ∧ flitFrom fl.bytes = some f
      ∧ f.seq = s.josil.rxNext ∧ f.payload = false) ∧
    (∃ (fl : Flit) (s : State) (f : OutFlit), s.powered = true ∧ s.jslState = 4 ∧ fl.fecOk = true ∧ flitFrom fl.bytes = some f
      ∧ f.seq = s.josil.rxNext ∧ f.payload = true) ∧
    (∃ (fl : Flit) (s : State) (f : OutFlit), s.powered = true ∧ s.jslState = 4 ∧ fl.fecOk = true ∧ flitFrom fl.bytes = some f
      ∧ f.seq ≠ s.josil.rxNext ∧ below12 s.josil.rxNext f.seq = true) ∧
    (∃ (fl : Flit) (s : State) (f : OutFlit), s.powered = true ∧ s.jslState = 4 ∧ fl.fecOk = true ∧ flitFrom fl.bytes = some f
      ∧ f.seq ≠ s.josil.rxNext ∧ below12 s.josil.rxNext f.seq = false) ∧
    (∃ (s : State), s.powered = true ∧ s.jslState = 4) ∧
    (∃ (s : State), s.powered = true ∧ s.jslState = 4 ∧ s.josil.window ≠ [] ∧ ∀ (f : OutFlit), f ∈ s.josil.window → SMap.get
      (fun (x : Nat) => 0) s.josil.tries f.seq < Nat.max 1 (s.fld JSL_CTRL_REPLAY_LIMIT)) ∧
    (∃ (s : State), s.powered = true ∧ s.jslState = 4 ∧ ∃ (f : OutFlit), f ∈ s.josil.window ∧ Nat.max 1 (s.fld
      JSL_CTRL_REPLAY_LIMIT) ≤ SMap.get (fun (x : Nat) => 0) s.josil.tries f.seq) ∧
    (∃ (s : State) (f : OutFlit) (rest : List OutFlit), s.powered = true ∧ s.jslState = 4 ∧ s.josil.replay = f :: rest) ∧
    (∃ (s : State) (l : List (List Byte)) (s1 : State), s.powered = true ∧ s.jslState = 4 ∧ s.josil.replay = [] ∧
      s.josil.window.length < 1024 ∧ s.fillSlots 64 15 = (l, s1) ∧ l ≠ []) ∧
    (∃ (s : State), s.powered = true ∧ s.jslState = 4 ∧ s.josil.replay = [] ∧ (s.fillSlots 64 15).fst = []) :=
  ⟨⟨jslDev 1, (by decide +kernel)⟩,
   ⟨jslDev 2, (by decide +kernel)⟩,
   ⟨(jslDev 3).modJosil (fun j => { j with signal := 0xFFFF }), goodLanes.take 8, goodLanes.drop 8, 1, 256, 1,
     (by decide +kernel)⟩,
   ⟨(jslDev 3).modJosil (fun j => { j with signal := 0xFFFF }), goodLanes.take 8, goodLanes.drop 8, 1, 255, 1,
     (by decide +kernel)⟩,
   ⟨jslDev 4, 15, (by decide +kernel)⟩,
   ⟨jslDev 5, goodLanes.take 8, goodLanes.drop 8, (by decide +kernel)⟩,
   ⟨jslDev 5, [], [], (by decide +kernel)⟩,
   ⟨.josil, 1, jslDev 4, (by unfold State.reaches; decide +kernel)⟩,
   ⟨.josil, 2, jslDev 4, (by unfold State.reaches; decide +kernel)⟩,
   ⟨5, lineDev { Line.reset with st := .shared }, (by decide +kernel)⟩,
   ⟨5, lineDev { Line.reset with st := .shared, filling := true }, (by decide +kernel)⟩,
   ⟨5, (lineDev { Line.reset with st := .shared, filling := true }).modJosil (fun j => { j with flush := [5] }),
     (by decide +kernel)⟩,
   ⟨(jslDev 4).setFlag JSL_STATUS_FLUSHING true, (by decide +kernel)⟩,
   ⟨{ flitRead true 4095 with slots := List.replicate 15 (List.replicate 16 7) }, (by decide +kernel)⟩,
   ⟨{ flitOne true 0 with fecOk := false }, jslDev 4, (by decide +kernel)⟩,
   ⟨flitOne true 0, jslDev 4, flitFields (flitOne true 0).bytes, (by decide +kernel), (by decide +kernel),
     (by decide +kernel), (flitOne_reads _ _)⟩,
   ⟨flitOne false 0, jslDev 4, flitFields (flitOne false 0).bytes, (by decide +kernel), (by decide +kernel),
     (by decide +kernel), (flitOne_reads _ _), (by decide +kernel), (by decide +kernel)⟩,
   ⟨flitOne true 0, jslDev 4, flitFields (flitOne true 0).bytes, (by decide +kernel), (by decide +kernel),
     (by decide +kernel), (flitOne_reads _ _), (by decide +kernel), (by decide +kernel)⟩,
   ⟨flitOne true 2047, jslDev 4, flitFields (flitOne true 2047).bytes, (by decide +kernel), (by decide +kernel),
     (by decide +kernel), (flitOne_reads _ _), (by decide +kernel), (by decide +kernel)⟩,
   ⟨flitOne true 2049, jslDev 4, flitFields (flitOne true 2049).bytes, (by decide +kernel), (by decide +kernel),
     (by decide +kernel), (flitOne_reads _ _), (by decide +kernel), (by decide +kernel)⟩,
   ⟨jslDev 4, (by decide +kernel)⟩,
   ⟨((jslDev 4).setFld JSL_CTRL_REPLAY_LIMIT 2).modJosil (fun j => { j with window := [outOne], tries := [(5, 1)] }),
     (by decide +kernel)⟩,
   ⟨((jslDev 4).setFld JSL_CTRL_REPLAY_LIMIT 0).modJosil (fun j => { j with window := [outOne], tries := [(5, 1)] }),
     (by decide +kernel), (by decide +kernel), (⟨outOne, by decide +kernel⟩)⟩,
   ⟨(jslDev 4).modJosil (fun j => { j with replay := [outOne] }), outOne, [], (by decide +kernel)⟩,
   ⟨slotDev, [List.replicate 16 0], (slotDev.fillSlots 64 15).2, (by decide +kernel), (by decide +kernel),
     (by decide +kernel), (by decide +kernel), (pair_eq (by decide +kernel)), (by decide +kernel)⟩,
   ⟨jslDev 4, (by decide +kernel)⟩⟩

/-- The hypotheses of `Obligations.JosilMessages`, clause by clause. -/
theorem witness_JosilMessages :
    (∃ (h : JHdr) (data : List Byte) (s : State) (s1 : State) (m : JMsg), s.powered = true ∧ m.data = data ∧ (s.takeMsg fun (m
      : JMsg) => decide (m.hdr = h ∧ m.data = data)) = (some m, s1) ∧ s1.takeReq h = (none, s1.count JSL_COUNT1_LATE_RSP 1) ∧
      h.opc = 16 ∧ data = []) ∧
    (∃ (h : JHdr) (data : List Byte) (s : State) (s1 : State) (m : JMsg), s.powered = true ∧ m.data = data ∧ (s.takeMsg fun (m
      : JMsg) => decide (m.hdr = h ∧ m.data = data)) = (some m, s1) ∧ s1.takeReq h = (none, s1.count JSL_COUNT1_LATE_RSP 1) ∧
      h.opc = 17) ∧
    (∃ (h : JHdr) (data : List Byte) (s : State) (s1 : State) (m : JMsg), s.powered = true ∧ m.data = data ∧ (s.takeMsg fun (m
      : JMsg) => decide (m.hdr = h ∧ m.data = data)) = (some m, s1) ∧ s1.takeReq h = (none, s1.count JSL_COUNT1_LATE_RSP 1) ∧
      h.opc = 18) ∧
    (∃ (h : JHdr) (data : List Byte) (s : State) (s1 : State) (m : JMsg), s.powered = true ∧ m.data = data ∧ (s.takeMsg fun (m
      : JMsg) => decide (m.hdr = h ∧ m.data = data)) = (some m, s1) ∧ s1.takeReq h = (none, s1.count JSL_COUNT1_LATE_RSP 1) ∧
      h.opc = 19) ∧
    (∃ (h : JHdr) (data : List Byte) (s : State) (s1 : State) (m : JMsg) (r : JReq) (s2 : State) (id : Nat), s.powered = true
      ∧ m.data = data ∧ (s.takeMsg fun (m : JMsg) => decide (m.hdr = h ∧ m.data = data)) = (some m, s1) ∧ s1.takeReq h = (some
      r, s2) ∧ (h.noCtx || s2.tagCurrent h.tag) = true ∧ r.who = JWho.move id ∧ h.opc = 16 ∧ data = []) ∧
    (∃ (h : JHdr) (data : List Byte) (s : State) (s1 : State) (m : JMsg) (r : JReq) (s2 : State) (id : Nat), s.powered = true
      ∧ m.data = data ∧ (s.takeMsg fun (m : JMsg) => decide (m.hdr = h ∧ m.data = data)) = (some m, s1) ∧ s1.takeReq h = (some
      r, s2) ∧ (h.noCtx || s2.tagCurrent h.tag) = true ∧ r.who = JWho.move id ∧ h.opc = 17) ∧
    (∃ (h : JHdr) (data : List Byte) (s : State) (s1 : State) (m : JMsg) (r : JReq) (s2 : State), s.powered = true ∧ m.data =
      data ∧ (s.takeMsg fun (m : JMsg) => decide (m.hdr = h ∧ m.data = data)) = (some m, s1) ∧ s1.takeReq h = (some r, s2) ∧
      (h.noCtx || s2.tagCurrent h.tag) = true ∧ r.who = JWho.lidRead ∧ h.opc = 17 ∧ h.poison = false) ∧
    (∃ (h : JHdr) (data : List Byte) (s : State) (s1 : State) (m : JMsg) (r : JReq) (s2 : State) (n : Nat), s.powered = true ∧
      m.data = data ∧ (s.takeMsg fun (m : JMsg) => decide (m.hdr = h ∧ m.data = data)) = (some m, s1) ∧ s1.takeReq h = (some
      r, s2) ∧ (h.noCtx || s2.tagCurrent h.tag) = true ∧ r.who = JWho.fill n ∧ h.opc = 16 ∧ data = []) ∧
    (∃ (h : JHdr) (data : List Byte) (s : State) (s1 : State) (m : JMsg) (r : JReq) (s2 : State) (n : Nat), s.powered = true ∧
      m.data = data ∧ (s.takeMsg fun (m : JMsg) => decide (m.hdr = h ∧ m.data = data)) = (some m, s1) ∧ s1.takeReq h = (some
      r, s2) ∧ (h.noCtx || s2.tagCurrent h.tag) = true ∧ r.who = JWho.evict n ∧ h.opc = 16 ∧ data = []) ∧
    (∃ (h : JHdr) (data : List Byte) (s : State) (s1 : State) (m : JMsg) (r : JReq) (s2 : State) (n : Nat), s.powered = true ∧
      m.data = data ∧ (s.takeMsg fun (m : JMsg) => decide (m.hdr = h ∧ m.data = data)) = (some m, s1) ∧ s1.takeReq h = (some
      r, s2) ∧ (h.noCtx || s2.tagCurrent h.tag) = true ∧ r.who = JWho.fill n ∧ s2.josil.held.length < 32768 ∧ ¬n ∈
      s2.josil.flush ∧ s2.josil.lidWaits = [] ∧ h.opc = 18) ∧
    (∃ (h : JHdr) (data : List Byte) (s : State) (s1 : State) (m : JMsg) (r : JReq) (s2 : State) (n : Nat), s.powered = true ∧
      m.data = data ∧ (s.takeMsg fun (m : JMsg) => decide (m.hdr = h ∧ m.data = data)) = (some m, s1) ∧ s1.takeReq h = (some
      r, s2) ∧ (h.noCtx || s2.tagCurrent h.tag) = true ∧ r.who = JWho.fill n ∧ s2.josil.held.length < 32768 ∧ ¬n ∈
      s2.josil.flush ∧ s2.josil.lidWaits = [] ∧ h.opc = 19) ∧
    (∃ (h : JHdr) (s : State) (s1 : State) (m : JMsg), s.powered = true ∧ m.hdr = h ∧ (s.takeMsg fun (m : JMsg) => decide
      (m.hdr = h)) = (some m, s1) ∧ (s1.line (h.addr / 128)).evicting = false ∧ (s1.line (h.addr / 128)).filling = false ∧
      (s1.line (h.addr / 128)).st = LineState.modified ∧ (h.opc = 8 ∨ h.opc = 9)) ∧
    (∃ (h : JHdr) (s : State) (s1 : State) (m : JMsg), s.powered = true ∧ m.hdr = h ∧ (s.takeMsg fun (m : JMsg) => decide
      (m.hdr = h)) = (some m, s1) ∧ (s1.line (h.addr / 128)).evicting = false ∧ (s1.line (h.addr / 128)).filling = false ∧
      (s1.line (h.addr / 128)).st ≠ LineState.modified ∧ (h.opc = 8 ∨ h.opc = 9)) ∧
    (∃ (tid : Nat) (r : JReq) (s : State), s.powered = true ∧ List.find? (fun (r : JReq) => r.tid == tid) s.josil.reqs = some
      r ∧ r.at_ + 1000 * Nat.max 1 (s.fld JSL_CTRL_REQ_TIMEOUT_US) ≤ s.now) :=
  ⟨⟨hdrOne 16 0, [], withMsg (msgOne 16 0) [], (((withMsg (msgOne 16 0) []).takeMsg fun (m : JMsg) => decide (m.hdr = (hdrOne 16
  0) ∧ m.data = []))).2, msgOne 16 0, (by decide +kernel), (by decide +kernel), (pair_eq (by decide +kernel)),
  (by decide +kernel), (by decide +kernel), (by decide +kernel)⟩,
   ⟨hdrOne 17 0, [], withMsg (msgOne 17 0) [], (((withMsg (msgOne 17 0) []).takeMsg fun (m : JMsg) => decide (m.hdr = (hdrOne
     17 0) ∧ m.data = []))).2, msgOne 17 0, (by decide +kernel), (by decide +kernel), (pair_eq (by decide +kernel)),
     (by decide +kernel), (by decide +kernel)⟩,
   ⟨hdrOne 18 0, [], withMsg (msgOne 18 0) [], (((withMsg (msgOne 18 0) []).takeMsg fun (m : JMsg) => decide (m.hdr = (hdrOne
     18 0) ∧ m.data = []))).2, msgOne 18 0, (by decide +kernel), (by decide +kernel), (pair_eq (by decide +kernel)),
     (by decide +kernel), (by decide +kernel)⟩,
   ⟨hdrOne 19 0, [], withMsg (msgOne 19 0) [], (((withMsg (msgOne 19 0) []).takeMsg fun (m : JMsg) => decide (m.hdr = (hdrOne
     19 0) ∧ m.data = []))).2, msgOne 19 0, (by decide +kernel), (by decide +kernel), (pair_eq (by decide +kernel)),
     (by decide +kernel), (by decide +kernel)⟩,
   ⟨hdrOne 16 0x1000, [], withMsg (msgOne 16 0x1000) [reqOne (.move 3)], (((withMsg (msgOne 16 0x1000) [reqOne (.move
     3)]).takeMsg fun (m : JMsg) => decide (m.hdr = (hdrOne 16 0x1000) ∧ m.data = []))).2, msgOne 16 0x1000, reqOne (.move 3),
     (((((withMsg (msgOne 16 0x1000) [reqOne (.move 3)]).takeMsg fun (m : JMsg) => decide (m.hdr = (hdrOne 16 0x1000) ∧ m.data
     = []))).2).takeReq (hdrOne 16 0x1000)).2, 3, (by decide +kernel), (by decide +kernel), (pair_eq (by decide +kernel)),
     (pair_eq (by decide +kernel)), (by decide +kernel), (by decide +kernel), (by decide +kernel), (by decide +kernel)⟩,
   ⟨hdrOne 17 0x1000, [], withMsg (msgOne 17 0x1000) [reqOne (.move 3)], (((withMsg (msgOne 17 0x1000) [reqOne (.move
     3)]).takeMsg fun (m : JMsg) => decide (m.hdr = (hdrOne 17 0x1000) ∧ m.data = []))).2, msgOne 17 0x1000, reqOne (.move 3),
     (((((withMsg (msgOne 17 0x1000) [reqOne (.move 3)]).takeMsg fun (m : JMsg) => decide (m.hdr = (hdrOne 17 0x1000) ∧ m.data
     = []))).2).takeReq (hdrOne 17 0x1000)).2, 3, (by decide +kernel), (by decide +kernel), (pair_eq (by decide +kernel)),
     (pair_eq (by decide +kernel)), (by decide +kernel), (by decide +kernel), (by decide +kernel)⟩,
   ⟨hdrOne 17 0x1000, [], (withMsg (msgOne 17 0x1000) [reqOne .lidRead]).modLid (fun x =>
     { x with fetch := some ⟨3, 0x1000, 128, [], true⟩ }), ((((withMsg (msgOne 17 0x1000) [reqOne .lidRead]).modLid (fun x =>
     { x with fetch := some ⟨3, 0x1000, 128, [], true⟩ })).takeMsg fun (m : JMsg) => decide (m.hdr = (hdrOne 17 0x1000) ∧
     m.data = []))).2, msgOne 17 0x1000, reqOne .lidRead, ((((((withMsg (msgOne 17 0x1000) [reqOne .lidRead]).modLid (fun x =>
     { x with fetch := some ⟨3, 0x1000, 128, [], true⟩ })).takeMsg fun (m : JMsg) => decide (m.hdr = (hdrOne 17 0x1000) ∧
     m.data = []))).2).takeReq (hdrOne 17 0x1000)).2, (by decide +kernel), (by decide +kernel), (pair_eq (by decide +kernel)),
     (pair_eq (by decide +kernel)), (by decide +kernel), (by decide +kernel), (by decide +kernel), (by decide +kernel)⟩,
   ⟨hdrOne 16 0x1000, [], withMsg (msgOne 16 0x1000) [reqOne (.fill 32)], (((withMsg (msgOne 16 0x1000) [reqOne (.fill
     32)]).takeMsg fun (m : JMsg) => decide (m.hdr = (hdrOne 16 0x1000) ∧ m.data = []))).2, msgOne 16 0x1000, reqOne (.fill
     32), (((((withMsg (msgOne 16 0x1000) [reqOne (.fill 32)]).takeMsg fun (m : JMsg) => decide (m.hdr = (hdrOne 16 0x1000) ∧
     m.data = []))).2).takeReq (hdrOne 16 0x1000)).2, 32, (by decide +kernel), (by decide +kernel), (pair_eq
     (by decide +kernel)), (pair_eq (by decide +kernel)), (by decide +kernel), (by decide +kernel), (by decide +kernel),
     (by decide +kernel)⟩,
   ⟨hdrOne 16 0x1000, [], withMsg (msgOne 16 0x1000) [reqOne (.evict 32)], (((withMsg (msgOne 16 0x1000) [reqOne (.evict
     32)]).takeMsg fun (m : JMsg) => decide (m.hdr = (hdrOne 16 0x1000) ∧ m.data = []))).2, msgOne 16 0x1000, reqOne (.evict
     32), (((((withMsg (msgOne 16 0x1000) [reqOne (.evict 32)]).takeMsg fun (m : JMsg) => decide (m.hdr = (hdrOne 16 0x1000) ∧
     m.data = []))).2).takeReq (hdrOne 16 0x1000)).2, 32, (by decide +kernel), (by decide +kernel), (pair_eq
     (by decide +kernel)), (pair_eq (by decide +kernel)), (by decide +kernel), (by decide +kernel), (by decide +kernel),
     (by decide +kernel)⟩,
   ⟨hdrOne 18 0x1000, [], withMsg (msgOne 18 0x1000) [reqOne (.fill 32)], (((withMsg (msgOne 18 0x1000) [reqOne (.fill
     32)]).takeMsg fun (m : JMsg) => decide (m.hdr = (hdrOne 18 0x1000) ∧ m.data = []))).2, msgOne 18 0x1000, reqOne (.fill
     32), (((((withMsg (msgOne 18 0x1000) [reqOne (.fill 32)]).takeMsg fun (m : JMsg) => decide (m.hdr = (hdrOne 18 0x1000) ∧
     m.data = []))).2).takeReq (hdrOne 18 0x1000)).2, 32, (by decide +kernel), (by decide +kernel), (pair_eq
     (by decide +kernel)), (pair_eq (by decide +kernel)), (by decide +kernel), (by decide +kernel), (by decide +kernel),
     (by decide +kernel), (by decide +kernel), (by decide +kernel)⟩,
   ⟨hdrOne 19 0x1000, [], withMsg (msgOne 19 0x1000) [reqOne (.fill 32)], (((withMsg (msgOne 19 0x1000) [reqOne (.fill
     32)]).takeMsg fun (m : JMsg) => decide (m.hdr = (hdrOne 19 0x1000) ∧ m.data = []))).2, msgOne 19 0x1000, reqOne (.fill
     32), (((((withMsg (msgOne 19 0x1000) [reqOne (.fill 32)]).takeMsg fun (m : JMsg) => decide (m.hdr = (hdrOne 19 0x1000) ∧
     m.data = []))).2).takeReq (hdrOne 19 0x1000)).2, 32, (by decide +kernel), (by decide +kernel), (pair_eq
     (by decide +kernel)), (pair_eq (by decide +kernel)), (by decide +kernel), (by decide +kernel), (by decide +kernel),
     (by decide +kernel), (by decide +kernel), (by decide +kernel)⟩,
   ⟨hdrOne 8 0x1000, (withMsg (msgOne 8 0x1000) []).setLine 32 { Line.reset with st := .modified }, ((((withMsg (msgOne 8
     0x1000) []).setLine 32 { Line.reset with st := .modified }).takeMsg fun (m : JMsg) => decide (m.hdr = (hdrOne 8
     0x1000)))).2, msgOne 8 0x1000, (by decide +kernel), (by decide +kernel), (pair_eq (by decide +kernel)),
     (by decide +kernel), (by decide +kernel), (by decide +kernel), (by decide +kernel)⟩,
   ⟨hdrOne 9 0x1000, withMsg (msgOne 9 0x1000) [], (((withMsg (msgOne 9 0x1000) []).takeMsg fun (m : JMsg) => decide (m.hdr =
     (hdrOne 9 0x1000)))).2, msgOne 9 0x1000, (by decide +kernel), (by decide +kernel), (pair_eq (by decide +kernel)),
     (by decide +kernel), (by decide +kernel), (by decide +kernel), (by decide +kernel)⟩,
   ⟨4, reqOne .lid, locked (withMsg (msgOne 8 0) [reqOne .lid]), (by decide +kernel)⟩⟩

/-- The hypotheses of `Obligations.LocalAccesses`, clause by clause. -/
theorem witness_LocalAccesses :
    (∃ (p : (Nat → Bool → Word → Instr) × Nat × Bool) (b : Nat) (f : Bool) (w : Word) (s : State), p ∈ [(Instr.ldlB, 1, true),
      (Instr.ldlBu, 1, false), (Instr.ldlH, 2, true), (Instr.ldlHu, 2, false), (Instr.ldlW, 4, true), (Instr.ldlWu, 4, false),
      (Instr.ldlD, 8, false)] ∧ s.issues b f ∧ BitVec.toNat (s.sreg b f (wSa w) + BitVec.ofInt 64 (signed 37 (BitVec.toNat
      w))) % p.snd.fst = 0 ∧ (BitVec.toNat (s.sreg b f (wSa w) + BitVec.ofInt 64 (signed 37 (BitVec.toNat w))) + p.snd.fst ≤
      4456448 ∨ 5242880 ≤ BitVec.toNat (s.sreg b f (wSa w) + BitVec.ofInt 64 (signed 37 (BitVec.toNat w))) ∧ BitVec.toNat
      (s.sreg b f (wSa w) + BitVec.ofInt 64 (signed 37 (BitVec.toNat w))) + p.snd.fst ≤ 5308416) ∧ s.localPoisoned b
      (BitVec.toNat (s.sreg b f (wSa w) + BitVec.ofInt 64 (signed 37 (BitVec.toNat w)))) p.snd.fst = false) ∧
    (∃ (p : (Nat → Bool → Word → Instr) × Nat) (b : Nat) (f : Bool) (w : Word) (s : State), p ∈ [(Instr.stlB, 1), (Instr.stlH,
      2), (Instr.stlW, 4), (Instr.stlD, 8)] ∧ s.issues b f ∧ wDst w = 0 ∧ BitVec.toNat (s.sreg b f (wSa w) + BitVec.ofInt 64
      (signed 37 (BitVec.toNat w))) % p.snd = 0 ∧ (BitVec.toNat (s.sreg b f (wSa w) + BitVec.ofInt 64 (signed 37 (BitVec.toNat
      w))) + p.snd ≤ 4456448 ∨ 5242880 ≤ BitVec.toNat (s.sreg b f (wSa w) + BitVec.ofInt 64 (signed 37 (BitVec.toNat w))) ∧
      BitVec.toNat (s.sreg b f (wSa w) + BitVec.ofInt 64 (signed 37 (BitVec.toNat w))) + p.snd ≤ 5308416)) ∧
    (∃ (p : (Nat → Bool → Word → Instr) × Nat) (b : Nat) (f : Bool) (w : Word) (s : State), p ∈ [(Instr.ldlB, 1),
      (Instr.ldlBu, 1), (Instr.ldlH, 2), (Instr.ldlHu, 2), (Instr.ldlW, 4), (Instr.ldlWu, 4), (Instr.ldlD, 8), (Instr.stlB,
      1), (Instr.stlH, 2), (Instr.stlW, 4), (Instr.stlD, 8)] ∧ s.issues b f ∧ (p.fst b f w = Instr.stlB b f w ∨ p.fst b f w =
      Instr.stlH b f w ∨ p.fst b f w = Instr.stlW b f w ∨ p.fst b f w = Instr.stlD b f w → wDst w = 0) ∧ BitVec.toNat (s.sreg
      b f (wSa w) + BitVec.ofInt 64 (signed 37 (BitVec.toNat w))) % p.snd ≠ 0) ∧
    (∃ (p : (Nat → Bool → Word → Instr) × Nat) (b : Nat) (f : Bool) (w : Word) (s : State), p ∈ [(Instr.ldlB, 1),
      (Instr.ldlBu, 1), (Instr.ldlH, 2), (Instr.ldlHu, 2), (Instr.ldlW, 4), (Instr.ldlWu, 4), (Instr.ldlD, 8), (Instr.stlB,
      1), (Instr.stlH, 2), (Instr.stlW, 4), (Instr.stlD, 8)] ∧ s.issues b f ∧ (p.fst b f w = Instr.stlB b f w ∨ p.fst b f w =
      Instr.stlH b f w ∨ p.fst b f w = Instr.stlW b f w ∨ p.fst b f w = Instr.stlD b f w → wDst w = 0) ∧ BitVec.toNat (s.sreg
      b f (wSa w) + BitVec.ofInt 64 (signed 37 (BitVec.toNat w))) % p.snd = 0 ∧ ¬(BitVec.toNat (s.sreg b f (wSa w) +
      BitVec.ofInt 64 (signed 37 (BitVec.toNat w))) + p.snd ≤ 4456448 ∨ 5242880 ≤ BitVec.toNat (s.sreg b f (wSa w) +
      BitVec.ofInt 64 (signed 37 (BitVec.toNat w))) ∧ BitVec.toNat (s.sreg b f (wSa w) + BitVec.ofInt 64 (signed 37
      (BitVec.toNat w))) + p.snd ≤ 5308416)) :=
  ⟨⟨(Instr.ldlB, 1, true), 0, false, 0x1000840000000000, withRegs [(1, 0x50FFFF)], (List.Mem.head _),
  (by unfold State.issues State.quiet; decide +kernel), (by decide +kernel), (by decide +kernel), (by decide +kernel)⟩,
   ⟨(Instr.stlB, 1), 0, false, 0x1070040000000000, withRegs [(1, 0x43FFFF)], (List.Mem.head _),
     (by unfold State.issues State.quiet; decide +kernel), (by decide +kernel), (by decide +kernel), (by decide +kernel)⟩,
   ⟨(Instr.ldlH, 2), 0, false, 0x1020840000000001, onBlock, (by repeat (first | exact List.Mem.head _ | apply List.Mem.tail)),
     (by unfold State.issues State.quiet; decide +kernel), (by intro h; rcases h with h | h | h | h <;> cases h),
     (by decide +kernel)⟩,
   ⟨(Instr.ldlB, 1), 0, false, 0x1000840000000000, withRegs [(1, 0x440000)], (List.Mem.head _),
     (by unfold State.issues State.quiet; decide +kernel), (by intro h; rcases h with h | h | h | h <;> cases h),
     (by decide +kernel), (by decide +kernel)⟩⟩

/-- The hypotheses of `Obligations.ManagementAndSmbus`, clause by clause. -/
theorem witness_ManagementAndSmbus :
    (∃ (port : Nat) (s : State), s.powered = true ∧ port < 2) ∧
    (∃ (port : Nat) (s : State), s.driven = true ∧ port < 2 ∧ s.flag (mgtEn port) = true) ∧
    (∃ (port : Nat) (s : State) (target : Nat), s.driven = true ∧ port < 2 ∧ s.flag (mgtEn port) = true ∧ target = s.fld
      (MGT_IP_HI_ADDR port) * 2 ^ 64 + s.fld (MGT_IP_LO_ADDR port)) ∧
    (∃ (port : Nat) (s : State) (target : Nat), s.driven = true ∧ port < 2 ∧ s.flag (mgtEn port) = true ∧ ¬target = s.fld
      (MGT_IP_HI_ADDR port) * 2 ^ 64 + s.fld (MGT_IP_LO_ADDR port)) ∧
    (∃ (port : Nat) (s : State), s.driven = true ∧ port < 2 ∧ s.flag (mgtEn port) = true) ∧
    (∃ (port : Nat) (s : State) (d : Datagram), s.driven = true ∧ port < 2 ∧ s.flag (mgtEn port) = true ∧ (d.dest ≠ s.mgtAddr
      port ∨ d.udpPort ≠ s.fld MGT_CTRL_UDP_PORT)) ∧
    (∃ (port : Nat) (s : State) (d : Datagram), s.driven = true ∧ port < 2 ∧ s.flag (mgtEn port) = true ∧ d.dest = s.mgtAddr
      port ∧ d.udpPort = s.fld MGT_CTRL_UDP_PORT ∧ isDatagram d.bytes = false) ∧
    (∃ (port : Nat) (s : State) (d : Datagram), s.driven = true ∧ port < 2 ∧ s.flag (mgtEn port) = true ∧ d.dest = s.mgtAddr
      port ∧ d.udpPort = s.fld MGT_CTRL_UDP_PORT ∧ isDatagram d.bytes = true ∧ (s.tagVerifies d.bytes = false ∨ dgAt d.bytes
      26 2 ≠ s.fld MGT_STATUS_KEY_ID)) ∧
    (∃ (port : Nat) (s : State) (d : Datagram), s.driven = true ∧ port < 2 ∧ s.flag (mgtEn port) = true ∧ d.dest = s.mgtAddr
      port ∧ d.udpPort = s.fld MGT_CTRL_UDP_PORT ∧ isDatagram d.bytes = true ∧ s.tagVerifies d.bytes = true ∧ dgAt d.bytes 26
      2 = s.fld MGT_STATUS_KEY_ID ∧ s.seqFresh (dgAt d.bytes 8 8) = false) ∧
    (∃ (port : Nat) (s : State) (d : Datagram), s.driven = true ∧ port < 2 ∧ s.flag (mgtEn port) = true ∧ d.dest = s.mgtAddr
      port ∧ d.udpPort = s.fld MGT_CTRL_UDP_PORT ∧ isDatagram d.bytes = true ∧ s.tagVerifies d.bytes = true ∧ dgAt d.bytes 26
      2 = s.fld MGT_STATUS_KEY_ID ∧ s.seqFresh (dgAt d.bytes 8 8) = true) ∧
    (∃ (port : Nat) (s : State) (d : Datagram) (n : Nat), s.driven = true ∧ port < 2 ∧ s.flag (mgtEn port) = true ∧ d.dest =
      s.mgtAddr port ∧ d.udpPort = s.fld MGT_CTRL_UDP_PORT ∧ isDatagram d.bytes = true ∧ s.tagVerifies d.bytes = true ∧ dgAt
      d.bytes 26 2 = s.fld MGT_STATUS_KEY_ID ∧ s.seqFresh (dgAt d.bytes 8 8) = true ∧ msgLen (dgAt d.bytes 3 1) = some n ∧
      dgAt d.bytes 6 1 = 0 ∧ dgAt d.bytes 7 1 = 1 ∧ n ≤ (List.take (dgAt d.bytes 4 2) (List.drop 32 d.bytes)).length) ∧
    (∃ (port : Nat) (s : State) (d : Datagram), s.driven = true ∧ port < 2 ∧ s.flag (mgtEn port) = true ∧ d.dest = s.mgtAddr
      port ∧ d.udpPort = s.fld MGT_CTRL_UDP_PORT ∧ isDatagram d.bytes = true ∧ s.tagVerifies d.bytes = true ∧ dgAt d.bytes 26
      2 = s.fld MGT_STATUS_KEY_ID ∧ s.seqFresh (dgAt d.bytes 8 8) = true ∧ msgLen (dgAt d.bytes 3 1) = none) ∧
    (∃ (s : State), s.driven = true ∧ s.fld MGT_CTRL_TELEM_MS ≠ 0) ∧
    (∃ (i : Nat) (s : State), s.driven = true ∧ s.smbStuck = false ∧ i < 9 ∧ s.flag (SMB_VR_EN i) = true) ∧
    (∃ (s : State) (clk : Bool) (ok : Bool), s.driven = true ∧ ¬(clk = false ∧ ok = true)) ∧
    (∃ (s : State), s.driven = true) ∧
    (∃ (s : State), s.driven = true ∧ s.smbStuck = true) :=
  ⟨⟨1, dev, (by decide +kernel)⟩,
   ⟨0, dev.setFlag MGT_CTRL_PORT0_EN true, (by decide +kernel)⟩,
   ⟨0, dev.setFlag MGT_CTRL_PORT0_EN true, 0, (by decide +kernel)⟩,
   ⟨0, dev.setFlag MGT_CTRL_PORT0_EN true, 1, (by decide +kernel)⟩,
   ⟨0, dev.setFlag MGT_CTRL_PORT0_EN true, (by decide +kernel)⟩,
   ⟨0, dev.setFlag MGT_CTRL_PORT0_EN true, ⟨1, 0, []⟩, (by decide +kernel)⟩,
   ⟨0, dev.setFlag MGT_CTRL_PORT0_EN true, ⟨dev.mgtAddr 0, dev.fld MGT_CTRL_UDP_PORT, []⟩, (by decide +kernel)⟩,
   ⟨0, devKey.setFlag MGT_CTRL_PORT0_EN true, ⟨dev.mgtAddr 0, dev.fld MGT_CTRL_UDP_PORT, dgBytes 0x4C 0 1 (List.replicate 32
     0)⟩, (by decide +kernel)⟩,
   ⟨0, devKey.setFlag MGT_CTRL_PORT0_EN true, dgSigned 0x4C 0 0, (by decide +kernel), (by decide +kernel),
     (by decide +kernel), (by decide +kernel), (by decide +kernel), (dgSigned_shape _ _ _ (fun _ => rfl) (fun _ => by simp
     [dgAt, dgBytes, leNat]) (fun _ => rfl) (by decide)), (dgSigned_verifies _ _ _ rfl (fun _ => rfl)), (by decide +kernel),
     (by decide +kernel)⟩,
   ⟨0, devKey.setFlag MGT_CTRL_PORT0_EN true, dgSigned 0x4C 0 1, (by decide +kernel), (by decide +kernel),
     (by decide +kernel), (by decide +kernel), (by decide +kernel), (dgSigned_shape _ _ _ (fun _ => rfl) (fun _ => by simp
     [dgAt, dgBytes, leNat]) (fun _ => rfl) (by decide)), (dgSigned_verifies _ _ _ rfl (fun _ => rfl)), (by decide +kernel),
     (by decide +kernel)⟩,
   ⟨1, devKey.setFlag MGT_CTRL_PORT1_EN true, dgSigned 0x22 4 1, 4, (by decide +kernel), (by decide +kernel),
     (by decide +kernel), (by decide +kernel), (by decide +kernel), (dgSigned_shape _ _ _ (fun _ => rfl) (fun _ => by simp
     [dgAt, dgBytes, leNat]) (fun _ => rfl) (by decide)), (dgSigned_verifies _ _ _ rfl (fun _ => rfl)), (by decide +kernel),
     (by decide +kernel), (by decide +kernel), (by decide +kernel), (by decide +kernel), (by decide +kernel)⟩,
   ⟨1, devKey.setFlag MGT_CTRL_PORT1_EN true, dgSigned 0x21 0 1, (by decide +kernel), (by decide +kernel),
     (by decide +kernel), (by decide +kernel), (by decide +kernel), (dgSigned_shape _ _ _ (fun _ => rfl) (fun _ => by simp
     [dgAt, dgBytes, leNat]) (fun _ => rfl) (by decide)), (dgSigned_verifies _ _ _ rfl (fun _ => rfl)), (by decide +kernel),
     (by decide +kernel), (by decide +kernel)⟩,
   ⟨dev.setFld MGT_CTRL_TELEM_MS 1, (by decide +kernel)⟩,
   ⟨8, dev.setFlag (SMB_VR_EN 8) true, (by decide +kernel)⟩,
   ⟨dev, true, true, (by decide +kernel)⟩,
   ⟨dev, (by decide +kernel)⟩,
   ⟨dev.setReg HLT_STATUS 0x80, (by decide +kernel)⟩⟩

/-- The hypotheses of `Obligations.MoveEngine`, clause by clause. -/
theorem witness_MoveEngine :
    (∃ (p : (Nat → Bool → Word → Instr) × Nat) (b : Nat) (c : Nat) (f : Bool) (w : Word) (s : State), p ∈ [(Instr.move, 0),
      (Instr.moveFill, 1), (Instr.moveNc, 2)] ∧ s.issues b f ∧ (s.blk b).ctx = some c ∧ s.moveCheck b f w p.snd = none ∧
      (s.movesOf b).length < 8 ∧ s.ticketBusy b f (wTicket w) = false) ∧
    (∃ (p : (Nat → Bool → Word → Instr) × Nat) (b : Nat) (c : Nat) (f : Bool) (w : Word) (s : State), p ∈ [(Instr.move, 0),
      (Instr.moveFill, 1), (Instr.moveNc, 2)] ∧ s.issues b f ∧ (s.blk b).ctx = some c ∧ s.moveCheck b f w p.snd = none ∧ (8 ≤
      (s.movesOf b).length ∨ s.ticketBusy b f (wTicket w) = true)) ∧
    (∃ (p : (Nat → Bool → Word → Instr) × Nat) (b : Nat) (c : Nat) (f : Bool) (w : Word) (s : State) (e : Nat), p ∈
      [(Instr.move, 0), (Instr.moveFill, 1), (Instr.moveNc, 2)] ∧ s.issues b f ∧ (s.blk b).ctx = some c ∧ s.moveCheck b f w
      p.snd = some e) ∧
    (∃ (id : Nat) (s : State) (m : Move) (src : Nat → Byte) (dpa : Option Nat), s.quiet ∧ List.find? (fun (x : Move) => x.id
      == id) s.moves = some m ∧ s.moveRuns m = true ∧ m.got = none ∧ m.col < m.len ∧ m.row < m.rows ∧ (m.kind ≠ 1 → m.srcVirt
      = false → m.srcAt + m.burst ≤ 4456448 ∧ s.localPoisoned m.blk m.srcAt m.burst = false ∧ src = fun (i : Nat) => (s.bst
      m.blk).byte (m.srcAt + i)) ∧ (m.kind ≠ 1 → m.srcVirt = true → s.walkWaits (m.tag / 256) m.srcAt = false ∧ ∃ (pa : Nat),
      s.translate (m.tag / 256) m.srcAt Access.read = Except.ok (0, pa) ∧ (∀ (u : Nat), u ∈ unitsOf pa m.burst → s.frameBusy
      (u * 256) = false) ∧ (∀ (i : Nat), i < m.burst → s.hbmPoisoned (pa + i) = false) ∧ src = fun (i : Nat) => s.hbmByte (pa
      + i)) ∧ if m.dstVirt = true then s.walkWaits (m.tag / 256) m.dstAt = false ∧ ∃ (pa : Nat), s.translate (m.tag / 256)
      m.dstAt Access.write = Except.ok (0, pa) ∧ s.writeHeld pa m.burst = false ∧ dpa = some pa else dpa = none) :=
  ⟨⟨(Instr.move, 0), 0, 1, false, 0xB000886000000000, withRegs [(3, 64)], (List.Mem.head _),
  (by unfold State.issues State.quiet; decide +kernel), (by decide +kernel), (by decide +kernel), (by decide +kernel),
  (by decide +kernel)⟩,
   ⟨(Instr.move, 0), 0, 1, false, 0xB000886000000000, (withRegs [(3, 64)]).modSet 0 false (fun x =>
     { x with tk := [(0, ⟨.busy, 1, 0, 0⟩)] }), (List.Mem.head _), (by unfold State.issues State.quiet; decide +kernel),
     (by decide +kernel), (by decide +kernel), (by decide +kernel)⟩,
   ⟨(Instr.move, 0), 0, 1, false, 0xB000886000000000, withRegs [], MOVE_FIELD_INVALID, (List.Mem.head _),
     (by unfold State.issues State.quiet; decide +kernel), (by decide +kernel), (by decide +kernel)⟩,
   ⟨3, { onBlock with moves := [moveTwo] }, moveTwo, fun i => (({ onBlock with moves := [moveTwo] } : State).bst
     moveTwo.blk).byte (moveTwo.srcAt + i), none, (by unfold State.quiet; decide +kernel), (by decide +kernel),
     (by decide +kernel), (by decide +kernel), (by decide +kernel), (by decide +kernel), (fun _ _ => ⟨by decide +kernel, by
     decide +kernel, rfl⟩), (fun _ h => nomatch h), (rfl)⟩⟩

/-- The hypotheses of `Obligations.PacketsAndBorders`, clause by clause. -/
theorem witness_PacketsAndBorders :
    (∃ (s : State) (pk : Pkt), (s.border pk).fst = true) ∧
    (∃ (s : State) (pk : Pkt), (s.ptb.flag PTB_CTRL_EN && s.ptb.fld PTB_GEN_COUNT != 0 && s.ptb.fld PTB_GEN_CONTEXT == pk.tag
      / 256 % 4096 && (s.ptb.fld PTB_GEN_SRC == 65535 || s.ptb.fld PTB_GEN_SRC == pk.src)) = false ∧ s.tagCurrent (pk.tag % 2
      ^ 20) = true ∧ SMap.get (fun (x : Nat) => false) s.fence pk.src = true) ∧
    (∃ (s : State) (pk : Pkt), (s.ptb.flag PTB_CTRL_EN && s.ptb.fld PTB_GEN_COUNT != 0 && s.ptb.fld PTB_GEN_CONTEXT == pk.tag
      / 256 % 4096 && (s.ptb.fld PTB_GEN_SRC == 65535 || s.ptb.fld PTB_GEN_SRC == pk.src)) = true ∨ s.tagCurrent (pk.tag % 2 ^
      20) = false) ∧
    (∃ (r : (Nat → Pkt → Instr) × Nat) (k : Nat) (pk : Pkt) (s : State), r ∈ [(Instr.writePacket, 1), (Instr.resultPacket, 2),
      (Instr.summaryPacket, 5), (Instr.versionPacket, 6)] ∧ s.powered = true ∧ pk.ptype = r.snd ∧ pktCoil pk = false ∧ ∃ (t :
      Nat), (pk, t) ∈ (s.link k).ingress) ∧
    (∃ (r : (Nat → Pkt → Instr) × Nat) (k : Nat) (pk : Pkt) (s : State), r ∈ [(Instr.writePacket, 1), (Instr.resultPacket, 2),
      (Instr.summaryPacket, 5), (Instr.versionPacket, 6)] ∧ s.powered = true ∧ pk.ptype = r.snd ∧ pktCoil pk = false ∧ ∀ (t :
      Nat), ¬(pk, t) ∈ (s.link k).ingress) ∧
    (∃ (k : Nat) (pk : Pkt) (s : State), (∀ (slot : Nat) (o : PlaitOp), s.plaitSlot slot = some o → o.endDue = false) ∧
      List.flatMap (fun (e : Nat × Link) => List.map (fun (q : Pkt) => (e.fst, q)) e.snd.due) s.links = [(k, pk)]) ∧
    (∃ (k : Nat) (at_ : Nat) (pk : Pkt) (pk' : Pkt) (s : State) (s1 : State) (s2 : State), s.powered = true ∧ s.takeIngress k
      pk = (some (pk', at_), s1) ∧ s1.recorderOff ∧ s1.border pk' = (false, s2)) ∧
    (∃ (k : Nat) (at_ : Nat) (pk : Pkt) (pk' : Pkt) (s : State) (s1 : State) (r' : Res Unit) (s3 : State), s.powered = true ∧
      s.takeIngress k pk = (some (pk', at_), s1) ∧ s1.recorderOff ∧ s1.border pk' = (true, s1) ∧ s1.plaitPacket pk' at_ = (r',
      s3) ∧ r' ≠ Res.wait) ∧
    (∃ (k : Nat) (at_ : Nat) (pk : Pkt) (pk' : Pkt) (s : State) (s1 : State) (s3 : State), s.powered = true ∧ s.takeIngress k
      pk = (some (pk', at_), s1) ∧ s1.recorderOff ∧ s1.border pk' = (true, s1) ∧ s1.plaitPacket pk' at_ = (Res.wait, s3)) ∧
    (∃ (pk : Pkt) (s : State), (pk.ptype = 1 → s.carryOf pk = none) ∧ pk.opid < 2 ^ 31 ∧ s.inFlight (pk.tag % 2 ^ 20) pk.opid
      = true) ∧
    (∃ (pk : Pkt) (s : State), (pk.ptype = 1 → s.carryOf pk = none) ∧ (2 ^ 31 ≤ pk.opid ∨ s.inFlight (pk.tag % 2 ^ 20) pk.opid
      = false) ∧ pk.opid < 2 ^ 31 ∧ SMap.get (fun (x : Nat) => false) s.plaitDone (pk.tag % 2 ^ 20 * 2 ^ 32 + pk.opid) = true) ∧
    (∃ (pk : Pkt) (s : State), (pk.ptype = 1 → s.carryOf pk = none) ∧ (2 ^ 31 ≤ pk.opid ∨ s.inFlight (pk.tag % 2 ^ 20) pk.opid
      = false) ∧ ¬(pk.opid < 2 ^ 31 ∧ SMap.get (fun (x : Nat) => false) s.plaitDone (pk.tag % 2 ^ 20 * 2 ^ 32 + pk.opid) =
      true) ∧ s.earlyUsed + pktBytes pk ≤ 4194304) ∧
    (∃ (pk : Pkt) (s : State), (pk.ptype = 1 → s.carryOf pk = none) ∧ (2 ^ 31 ≤ pk.opid ∨ s.inFlight (pk.tag % 2 ^ 20) pk.opid
      = false) ∧ ¬(pk.opid < 2 ^ 31 ∧ SMap.get (fun (x : Nat) => false) s.plaitDone (pk.tag % 2 ^ 20 * 2 ^ 32 + pk.opid) =
      true) ∧ 4194304 < s.earlyUsed + pktBytes pk) ∧
    (∃ (k : Nat) (at_ : Nat) (pk' : Pkt) (pk : Pkt) (s : State) (s1 : State), s.powered = true ∧ pk'.ptype = 4 ∧ s.takeIngress
      k pk' = (some (pk, at_), s1) ∧ s1.recorderOff ∧ s1.border pk = (true, s1)) ∧
    (∃ (i : Nat) (e : Early) (s : State), s.powered = true ∧ s.early[i]? = some e ∧ e.at_ + Nat.max 1 (s.fld
      PLT_CTRL_EARLY_US) * 1000 < s.now) :=
  ⟨⟨onBlock, pktOne 1 256 7, (by decide +kernel)⟩,
   ⟨{ onBlock with fence := [(9, true)] }, pktOne 1 256 7, (by decide +kernel)⟩,
   ⟨onBlock, pktOne 1 257 7, (by decide +kernel)⟩,
   ⟨(Instr.writePacket, 1), 3, pktOne 1 512 7, inIngress onBlock (pktOne 1 512 7), (List.Mem.head _), (by decide +kernel),
     (by decide +kernel), (by decide +kernel), (⟨7, by decide +kernel⟩)⟩,
   ⟨(Instr.writePacket, 1), 3, pktOne 1 256 7, onBlock, (List.Mem.head _), (by decide +kernel), (by decide +kernel),
     (by decide +kernel), (fun t h => List.not_mem_nil h)⟩,
   ⟨3, pktOne 1 256 7, onBlock.modLink 3 (fun l => { l with due := [pktOne 1 256 7] }), (fun _ _ h => nomatch h),
     (by decide +kernel)⟩,
   ⟨3, 7, pktOne 1 257 7, pktOne 1 257 7, inIngress onBlock (pktOne 1 257 7), ((inIngress onBlock (pktOne 1 257
     7)).takeIngress 3 (pktOne 1 257 7)).2, ((((inIngress onBlock (pktOne 1 257 7)).takeIngress 3 (pktOne 1 257 7)).2).border
     (pktOne 1 257 7)).2, (by decide +kernel), (pair_eq (by decide +kernel)), (by unfold State.recorderOff; decide +kernel),
     (pair_eq (by decide +kernel))⟩,
   ⟨3, 7, pktOne 1 256 7, pktOne 1 256 7, inIngress onBlock (pktOne 1 256 7), ((inIngress onBlock (pktOne 1 256
     7)).takeIngress 3 (pktOne 1 256 7)).2, ((((inIngress onBlock (pktOne 1 256 7)).takeIngress 3 (pktOne 1 256
     7)).2).plaitPacket (pktOne 1 256 7) 7).1, ((((inIngress onBlock (pktOne 1 256 7)).takeIngress 3 (pktOne 1 256
     7)).2).plaitPacket (pktOne 1 256 7) 7).2, (by decide +kernel), (pair_eq (by decide +kernel)),
     (by unfold State.recorderOff; decide +kernel), (border_true (by decide +kernel)), (pair_eq rfl), (not_wait
     (by decide +kernel))⟩,
   ⟨3, 7, pktOne 1 256 7, pktOne 1 256 7, inIngress carryWait (pktOne 1 256 7), ((inIngress carryWait (pktOne 1 256
     7)).takeIngress 3 (pktOne 1 256 7)).2, ((((inIngress carryWait (pktOne 1 256 7)).takeIngress 3 (pktOne 1 256
     7)).2).plaitPacket (pktOne 1 256 7) 7).2, (by decide +kernel), (pair_eq (by decide +kernel)),
     (by unfold State.recorderOff; decide +kernel), (border_true (by decide +kernel)), (pair_eq (wait_eq
     (by decide +kernel)))⟩,
   ⟨pktOne 2 256 7, onBlock.setPlaitSlot 7 (some (opOne 2 false)), (by decide +kernel)⟩,
   ⟨pktOne 2 256 7, { onBlock with plaitDone := [(256 * 2 ^ 32 + 7, true)] }, (by decide +kernel)⟩,
   ⟨pktOne 1 256 7, onBlock, (by decide +kernel)⟩,
   ⟨pktOne 1 256 7, fullEarly, (by decide +kernel)⟩,
   ⟨3, 7, pktOne 4 256 7, pktOne 4 256 7, inIngress onBlock (pktOne 4 256 7), ((inIngress onBlock (pktOne 4 256
     7)).takeIngress 3 (pktOne 4 256 7)).2, (by decide +kernel), (by decide +kernel), (pair_eq (by decide +kernel)),
     (by unfold State.recorderOff; decide +kernel), (border_true (by decide +kernel))⟩,
   ⟨0, ⟨pktOne 1 256 7, 7⟩, { locked onBlock with early := [⟨pktOne 1 256 7, 7⟩] }, (by decide +kernel)⟩⟩

/-- The hypotheses of `Obligations.Perturbations`, clause by clause. -/
theorem witness_Perturbations :
    (∃ (p : Path) (s : State), s.reaches Auth.debug p PTB_CTRL) ∧
    (∃ (p : Path) (s : State) (o : Nat), s.reaches Auth.debug p PTB_CTRL ∧ o ∈ PTB_CTRL :: ptbRegs) ∧
    (∃ (p : Path) (v : Word) (s : State), s.reaches Auth.debug p PTB_CTRL ∧ bitOf (BitVec.toNat v) 1 = true) ∧
    (∃ (p : Path) (v : Word) (s : State) (o : Nat), s.reaches Auth.debug p PTB_CTRL ∧ bitOf (BitVec.toNat v) 1 = true ∧ o ∈
      ptbRegs) ∧
    (∃ (p : Path) (s : State) (c : Nat × (Auth → Path → Word → Instr)), c ∈ [(PTB_SEED, Instr.ptbSeedWrite), (PTB_INJ,
      Instr.ptbInjWrite), (PTB_GEN, Instr.ptbGenWrite), (PTB_SKEW, Instr.ptbSkewWrite)] ∧ s.reaches Auth.debug p c.fst) ∧
    (∃ (p : Path) (s : State) (off : Nat), off ∈ ptbRegs ∧ s.reaches Auth.debug p off) ∧
    (∃ (s : State) (o : Nat), o ≠ PTB_COUNT1 ∨ s.ptbOld = []) ∧
    (∃ (s : State), s.ptbOld ≠ []) ∧
    (∃ (s : State), (s.ptbOld.any fun (x : Nat × Word) => x.fst == PTB_SEED) = true) ∧
    (∃ (s : State), s.flag PTB_CTRL_EN = false) ∧
    (∃ (s : State) (k : Nat), s.flag PTB_CTRL_EN = false ∧ k < 64) ∧
    (∃ (s : State), s.flag PTB_CTRL_EN = true) ∧
    (∃ (a : Auth) (p : Path) (off : Nat) (s : State), a ≠ Auth.debug ∧ off ∈ PTB_CTRL :: ptbRegs ∧ s.reaches a p off) ∧
    (∃ (i : Nat) (d : Delayed) (s : State), s.powered = true ∧ s.delayed[i]? = some d ∧ d.dueNs ≤ s.now ∧ ((List.take i
      s.delayed).any fun (e : Delayed) => e.blk == d.blk && e.unit == d.unit && orderedUnit d.unit) = false) ∧
    (∃ (i : Nat) (at_ : Nat) (key : Nat) (cls : Nat) (n : Nat) (s : State), s.powered = true ∧ s.credits[i]? = some (at_, key,
      cls, n) ∧ at_ ≤ s.now) :=
  ⟨⟨.debugPort, debugDev, (by unfold State.reaches; decide +kernel)⟩,
   ⟨.debugPort, debugDev, PTB_SKEW, (by unfold State.reaches; decide +kernel)⟩,
   ⟨.debugPort, 2, debugDev, (by unfold State.reaches; decide +kernel)⟩,
   ⟨.mgmt0, 2, debugDev, PTB_SEED, (by unfold State.reaches; decide +kernel)⟩,
   ⟨.debugPort, debugDev, (PTB_SEED, Instr.ptbSeedWrite), (List.Mem.head _), (by unfold State.reaches; decide +kernel)⟩,
   ⟨.debugPort, debugDev, PTB_SEED, (by unfold State.reaches; decide +kernel)⟩,
   ⟨debugDev, 5, (by decide +kernel)⟩,
   ⟨{ debugDev with ptbOld := [(PTB_SEED, 0)] }, (by decide +kernel)⟩,
   ⟨{ debugDev with ptbOld := [(PTB_SEED, 0)] }, (by decide +kernel)⟩,
   ⟨dev, (by decide +kernel)⟩,
   ⟨dev, 63, (by decide +kernel)⟩,
   ⟨dev.setFlag PTB_CTRL_EN true, (by decide +kernel)⟩,
   ⟨.driver, .josil, PTB_CTRL, dev, (by unfold State.reaches; decide +kernel)⟩,
   ⟨0, ⟨5, 0, 256, 0, false, 1, 1, 0⟩, { locked dev with delayed := [⟨5, 0, 256, 0, false, 1, 1, 0⟩] }, (by decide +kernel)⟩,
   ⟨1, 5, 64, 0, 1, { locked dev with credits := [(2 ^ 60, 3, 0, 1), (5, 64, 0, 1)] }, (by decide +kernel)⟩⟩

/-- The hypotheses of `Obligations.PlaitAcceptance`, clause by clause. -/
theorem witness_PlaitAcceptance :
    (∃ (b : Nat) (s : State) (e : PlaitIssue) (rest : List PlaitIssue), s.powered = true ∧ s.blockPresent b = true ∧
      s.plaitQueue b = e :: rest ∧ e.fence = true) ∧
    (∃ (b : Nat) (s : State) (e : PlaitIssue) (rest : List PlaitIssue), s.powered = true ∧ s.blockPresent b = true ∧
      s.plaitQueue b = e :: rest ∧ e.fence = false ∧ (s.fences.any fun (x : PlaitFence) => x.tag == e.tag) = true) ∧
    (∃ (b : Nat) (s : State) (e : PlaitIssue) (rest : List PlaitIssue) (code : Nat) (s1 : State), s.powered = true ∧
      s.blockPresent b = true ∧ s.plaitQueue b = e :: rest ∧ e.fence = false ∧ (s.fences.any fun (x : PlaitFence) => x.tag ==
      e.tag) = false ∧ s.readOp b (e.tag / 256) e = (Res.fault code, s1)) ∧
    (∃ (b : Nat) (s : State) (e : PlaitIssue) (rest : List PlaitIssue) (o : PlaitOp) (s1 : State), s.powered = true ∧
      s.blockPresent b = true ∧ s.plaitQueue b = e :: rest ∧ e.fence = false ∧ (s.fences.any fun (x : PlaitFence) => x.tag ==
      e.tag) = false ∧ s.readOp b (e.tag / 256) e = (Res.ok o, s1) ∧ (s.plaitSlot (o.desc.opid % 4096) ≠ none ∨ s.fld
      DIM_FABRIC_TRACKER < s.trackerUsed + o.tracker)) ∧
    (∃ (b : Nat) (s : State) (e : PlaitIssue) (rest : List PlaitIssue) (o : PlaitOp) (s1 : State), s.powered = true ∧
      s.blockPresent b = true ∧ s.plaitQueue b = e :: rest ∧ e.fence = false ∧ (s.fences.any fun (x : PlaitFence) => x.tag ==
      e.tag) = false ∧ s.readOp b (e.tag / 256) e = (Res.ok o, s1) ∧ s.plaitSlot (o.desc.opid % 4096) = none ∧ s.trackerUsed +
      o.tracker ≤ s.fld DIM_FABRIC_TRACKER ∧ o.desc.anyHold = true ∧ SMap.get (fun (x : Nat) => none) s.holds (holdKey
      (s.ctxOf (e.tag / 256)).part o.desc.hold) ≠ none ∧ SMap.get (fun (x : Nat) => none) s.holds (holdKey (s.ctxOf (e.tag /
      256)).part o.desc.hold) ≠ some (e.tag / 256)) ∧
    (∃ (b : Nat) (s : State) (e : PlaitIssue) (rest : List PlaitIssue) (o : PlaitOp) (s1 : State) (r : Res Unit) (s2 : State),
      s.powered = true ∧ s.blockPresent b = true ∧ s.plaitQueue b = e :: rest ∧ e.fence = false ∧ (s.fences.any fun (x :
      PlaitFence) => x.tag == e.tag) = false ∧ s.readOp b (e.tag / 256) e = (Res.ok o, s1) ∧ s.plaitSlot (o.desc.opid % 4096)
      = none ∧ s.trackerUsed + o.tracker ≤ s.fld DIM_FABRIC_TRACKER ∧ (o.desc.anyHold = false ∨ SMap.get (fun (x : Nat) =>
      none) s.holds (holdKey (s.ctxOf (e.tag / 256)).part o.desc.hold) = none ∨ SMap.get (fun (x : Nat) => none) s.holds
      (holdKey (s.ctxOf (e.tag / 256)).part o.desc.hold) = some (e.tag / 256)) ∧ (s1.modBlk b fun (x : Blk) =>
      { x with pq := rest }).acceptOp o = (r, s2) ∧ r ≠ Res.wait) ∧
    (∃ (b : Nat) (s : State) (e : PlaitIssue) (rest : List PlaitIssue) (o : PlaitOp) (s1 : State) (s2 : State), s.powered =
      true ∧ s.blockPresent b = true ∧ s.plaitQueue b = e :: rest ∧ e.fence = false ∧ (s.fences.any fun (x : PlaitFence) =>
      x.tag == e.tag) = false ∧ s.readOp b (e.tag / 256) e = (Res.ok o, s1) ∧ s.plaitSlot (o.desc.opid % 4096) = none ∧
      s.trackerUsed + o.tracker ≤ s.fld DIM_FABRIC_TRACKER ∧ (o.desc.anyHold = false ∨ SMap.get (fun (x : Nat) => none)
      s.holds (holdKey (s.ctxOf (e.tag / 256)).part o.desc.hold) = none ∨ SMap.get (fun (x : Nat) => none) s.holds (holdKey
      (s.ctxOf (e.tag / 256)).part o.desc.hold) = some (e.tag / 256)) ∧ (s1.modBlk b fun (x : Blk) =>
      { x with pq := rest }).acceptOp o = (Res.wait, s2)) ∧
    (∃ (b : Nat) (s : State) (e : PlaitIssue) (rest : List PlaitIssue) (s1 : State), s.powered = true ∧ s.blockPresent b =
      true ∧ s.plaitQueue b = e :: rest ∧ e.fence = false ∧ (s.fences.any fun (x : PlaitFence) => x.tag == e.tag) = false ∧
      s.readOp b (e.tag / 256) e = (Res.wait, s1)) ∧
    (∃ (slot : Nat) (o : PlaitOp) (s : State), s.powered = true ∧ s.plaitSlot slot = some o ∧ s.tagCurrent o.tag = true ∧
      o.desc.op ≠ 6 ∧ o.waitEnded = false ∧ o.deadline + s.fld PLT_CTRL_GRACE_NS ≤ s.now) ∧
    (∃ (slot : Nat) (o : PlaitOp) (s : State) (s1 : State), s.powered = true ∧ s.plaitSlot slot = some o ∧ s.tagCurrent o.tag
      = true ∧ o.desc.op ≠ 6 ∧ o.waitEnded = false ∧ o.deadline + s.fld PLT_CTRL_GRACE_NS ≤ s.now ∧ o.endDue = true ∧
      s.endWait slot = (Res.ok (), s1)) ∧
    (∃ (slot : Nat) (o : PlaitOp) (s : State) (s1 : State), s.powered = true ∧ s.plaitSlot slot = some o ∧ s.tagCurrent o.tag
      = true ∧ o.desc.op ≠ 6 ∧ o.waitEnded = false ∧ o.deadline + s.fld PLT_CTRL_GRACE_NS ≤ s.now ∧ o.endDue = true ∧
      s.endWait slot = (Res.wait, s1)) ∧
    (∃ (slot : Nat) (o : PlaitOp) (s : State), s.powered = true ∧ s.plaitSlot slot = some o ∧ s.tagCurrent o.tag = true ∧
      o.desc.op ≠ 6 ∧ o.waitEnded = true ∧ o.deadline + 2 * s.fld PLT_CTRL_GRACE_NS ≤ s.now) ∧
    (∃ (slot : Nat) (o : PlaitOp) (s : State) (s1 : State), s.powered = true ∧ s.plaitSlot slot = some o ∧ s.tagCurrent o.tag
      = true ∧ o.desc.op ≠ 6 ∧ o.waitEnded = true ∧ o.deadline + 2 * s.fld PLT_CTRL_GRACE_NS ≤ s.now ∧ o.endDue = true ∧
      s.writeWhole o 2 = (Res.ok (), s1) ∧ o.desc.op = 0 ∧ ∃ (r : Nat), r ∈ o.owners ∧ r ≠ o.myRank ∧ SMap.get (fun (x : Nat)
      => 0) o.results r < (o.count r * o.eb + 7) / 8 * 8) ∧
    (∃ (slot : Nat) (o : PlaitOp) (s : State) (s1 : State), s.powered = true ∧ s.plaitSlot slot = some o ∧ s.tagCurrent o.tag
      = true ∧ o.desc.op ≠ 6 ∧ o.waitEnded = true ∧ o.deadline + 2 * s.fld PLT_CTRL_GRACE_NS ≤ s.now ∧ o.endDue = true ∧
      s.writeWhole o 2 = (Res.ok (), s1) ∧ ¬(o.desc.op = 0 ∧ ∃ (r : Nat), r ∈ o.owners ∧ r ≠ o.myRank ∧ SMap.get (fun (x :
      Nat) => 0) o.results r < (o.count r * o.eb + 7) / 8 * 8)) ∧
    (∃ (slot : Nat) (o : PlaitOp) (s : State), s.powered = true ∧ s.plaitSlot slot = some o ∧ s.tagCurrent o.tag = true) ∧
    (∃ (c : Nat) (va : Nat) (a : Nat) (d : List (Byte × Bool)) (s : State), s.quiet ∧ d ≠ [] ∧ va % 256 + d.length ≤ 256 ∧
      s.translate c va Access.write = Except.ok (0, a) ∧ s.writeHeld a d.length = false) ∧
    (∃ (n : Nat) (l : List (Option Nat)), l.length < n ∧ (∀ (x : Nat), some x ∈ l → x < 2 ^ 64) ∧ List.filterMap id l = []) ∧
    (∃ (d : Desc) (n : Nat) (l : List (Option Nat)), l.length < n ∧ (∀ (x : Nat), some x ∈ l → x < 2 ^ 64) ∧ d.isFloat = false
      ∧ List.filterMap id l ≠ [] ∧ d.red = 0) ∧
    (∃ (d : Desc) (n : Nat) (l : List (Option Nat)), l.length < n ∧ (∀ (x : Nat), some x ∈ l → x < 2 ^ 64) ∧ d.isFloat = false
      ∧ List.filterMap id l ≠ [] ∧ d.red = 1) ∧
    (∃ (d : Desc) (n : Nat) (l : List (Option Nat)), l.length < n ∧ (∀ (x : Nat), some x ∈ l → x < 2 ^ 64) ∧ d.isFloat = false
      ∧ List.filterMap id l ≠ [] ∧ d.red = 3) ∧
    (∃ (o : PlaitOp) (m : Nat), o.desc.correct = false ∨ m = 0) ∧
    (∃ (o : PlaitOp) (m : Nat) (e : Nat) (rows : List (Option (List (Nat × Bool)))), (o.desc.correct = false ∨ m = 0) ∧
      o.desc.isFloat = false ∧ o.desc.dtype ≤ 8 ∧ o.desc.red = 0 ∧ rows.length ≤ o.n ∧ List.filterMap (fun (r : Option (List
      (Nat × Bool))) => r.bind fun (l : List (Nat × Bool)) => l[e]?) rows ≠ [] ∧ ∀ (v : Nat × Bool), v ∈ List.filterMap (fun
      (r : Option (List (Nat × Bool))) => r.bind fun (l : List (Nat × Bool)) => l[e]?) rows → v.fst < 2 ^ (8 * o.eb)) ∧
    (∃ (o : PlaitOp) (present : List Nat) (rows : List (Option (List (Nat × Bool)))) (s : State) (s1 : State), s.readLeaves o
      present = (Res.ok rows, s1)) ∧
    (∃ (o : PlaitOp) (present : List Nat) (rows : List (Option (List (Nat × Bool)))) (s : State) (s1 : State) (r : Nat),
      s.readLeaves o present = (Res.ok rows, s1) ∧ r < o.n) ∧
    (∃ (o : PlaitOp) (rows : List (Option (List (Nat × Bool)))) (s : State) (s1 : State) (s2 : State), s.carriesFor o = [] ∧
      s.readLeaves o (List.filter (fun (r : Nat) => !o.missing.contains r) (List.range o.n)) = (Res.ok rows, s1) ∧
      s1.writeResults o (o.desc.recvVa + if o.owner = true ∧ o.desc.op = 0 then o.offset o.myRank * o.eb else 0) (List.map
      (o.result o.missing.length rows []) (List.range o.segElems)) = (Res.ok (), s2)) ∧
    (∃ (slot : Nat) (o : PlaitOp) (s : State) (s0 : State), s.plaitSlot slot = some o ∧ s.writeWhole o 1 = (Res.ok (), s0) ∧
      o.reduces = false) ∧
    (∃ (slot : Nat) (o : PlaitOp) (s : State) (s0 : State) (d : Summary) (s1 : State) (s2 : State), s.plaitSlot slot = some o
      ∧ s.writeWhole o 1 = (Res.ok (), s0) ∧ o.reduces = true ∧ o.segElems ≠ 0 ∧ o.desc.carry = false ∧ s0.reduceOp o =
      (Res.ok d, s1) ∧ s1.publish o d = (Res.ok (), s2) ∧ o.owner = false) ∧
    (∃ (slot : Nat) (o : PlaitOp) (s : State) (s0 : State) (d : Summary) (s1 : State) (s2 : State) (t' : State), s.plaitSlot
      slot = some o ∧ s.writeWhole o 1 = (Res.ok (), s0) ∧ o.reduces = true ∧ o.segElems ≠ 0 ∧ o.desc.carry = false ∧
      s0.reduceOp o = (Res.ok d, s1) ∧ s1.publish o d = (Res.ok (), s2) ∧ o.owner = true ∧ (s2.modOp slot fun (o : PlaitOp) =>
      { o with
        parts := List.filter (fun (q : Pkt) => q.ptype == 2) o.parts, waitEnded := true,
        summaries := SMap.set (fun (x : Nat) => none) o.summaries o.myRank (some d) }).tryFinish slot = (Res.ok (), t')) :=
  ⟨⟨0, onBlk (fun k => { k with pq := [⟨true, false, 1, 0, 256, 0⟩] }), ⟨true, false, 1, 0, 256, 0⟩, [], (by decide +kernel)⟩,
   ⟨0, { plaitDev 0 with fences := [⟨0, 256, 0, false, 2, [7]⟩] }, plaitOne, [], (by decide +kernel)⟩,
   ⟨0, onBlk (fun k => { k with pq := [plaitOdd] }), plaitOdd, [], PLT_DESC_INVALID, ((onBlk (fun k =>
     { k with pq := [plaitOdd] })).readOp 0 (plaitOdd.tag / 256) plaitOdd).2, (by decide +kernel), (by decide +kernel),
     (by decide +kernel), (by decide +kernel), (by decide +kernel), (pair_eq (fault_eq (by decide +kernel)))⟩,
   ⟨0, (plaitDev 0).setPlaitSlot 0 (some (opOne 2 false)), plaitOne, [], opGet ((((plaitDev 0).setPlaitSlot 0 (some (opOne 2
     false))).readOp 0 1 plaitOne).1), (((plaitDev 0).setPlaitSlot 0 (some (opOne 2 false))).readOp 0 (plaitOne.tag / 256)
     plaitOne).2, (by decide +kernel), (by decide +kernel), (by decide +kernel), (by decide +kernel), (by decide +kernel),
     (pair_eq (ok_eq (by decide +kernel))), (by decide +kernel)⟩,
   ⟨0, { plaitDev 8 with holds := [(0, some 2)] }, plaitOne, [], opGet ((({ plaitDev 8 with holds := [(0, some 2)] } :
     State).readOp 0 1 plaitOne).1), (({ plaitDev 8 with holds := [(0, some 2)] }).readOp 0 (plaitOne.tag / 256) plaitOne).2,
     (by decide +kernel), (by decide +kernel), (by decide +kernel), (by decide +kernel), (by decide +kernel), (pair_eq (ok_eq
     (by decide +kernel))), (by decide +kernel), (by decide +kernel), (by decide +kernel), (by decide +kernel),
     (by decide +kernel)⟩,
   ⟨0, plaitDev 0, plaitOne, [], opGet (((plaitDev 0).readOp 0 1 plaitOne).1), ((plaitDev 0).readOp 0 (plaitOne.tag / 256)
     plaitOne).2, (((((plaitDev 0).readOp 0 (plaitOne.tag / 256) plaitOne).2).modBlk 0 fun (x : Blk) =>
     { x with pq := [] }).acceptOp (opGet (((plaitDev 0).readOp 0 1 plaitOne).1))).1, (((((plaitDev 0).readOp 0 (plaitOne.tag
     / 256) plaitOne).2).modBlk 0 fun (x : Blk) => { x with pq := [] }).acceptOp (opGet (((plaitDev 0).readOp 0 1
     plaitOne).1))).2, (by decide +kernel), (by decide +kernel), (by decide +kernel), (by decide +kernel),
     (by decide +kernel), (pair_eq (ok_eq (by decide +kernel))), (by decide +kernel), (by decide +kernel),
     (by decide +kernel), (pair_eq rfl), (not_wait (by decide +kernel))⟩,
   ⟨0, plaitSend, plaitOne, [], opGet ((plaitSend.readOp 0 1 plaitOne).1), (plaitSend.readOp 0 (plaitOne.tag / 256)
     plaitOne).2, ((((plaitSend.readOp 0 (plaitOne.tag / 256) plaitOne).2).modBlk 0 fun (x : Blk) =>
     { x with pq := [] }).acceptOp (opGet ((plaitSend.readOp 0 1 plaitOne).1))).2, (by decide +kernel), (by decide +kernel),
     (by decide +kernel), (by decide +kernel), (by decide +kernel), (pair_eq (ok_eq (by decide +kernel))),
     (by decide +kernel), (by decide +kernel), (by decide +kernel), (pair_eq (wait_eq (by decide +kernel)))⟩,
   ⟨0, away (plaitDev 0), plaitOne, [], ((away (plaitDev 0)).readOp 0 (plaitOne.tag / 256) plaitOne).2, (by decide +kernel),
     (by decide +kernel), (by decide +kernel), (by decide +kernel), (by decide +kernel), (pair_eq (wait_eq
     (by decide +kernel)))⟩,
   ⟨7, opOne 2 false, withOp (opOne 2 false), (by decide +kernel)⟩,
   ⟨7, dueOp 2 false, withOp (dueOp 2 false), ((withOp (dueOp 2 false)).endWait 7).2, (by decide +kernel),
     (by decide +kernel), (by decide +kernel), (by decide +kernel), (by decide +kernel), (by decide +kernel),
     (by decide +kernel), (pair_eq (ok_eq (by decide +kernel)))⟩,
   ⟨7, dueOp 0 false, away (withOp (dueOp 0 false)), ((away (withOp (dueOp 0 false))).endWait 7).2, (by decide +kernel),
     (by decide +kernel), (by decide +kernel), (by decide +kernel), (by decide +kernel), (by decide +kernel),
     (by decide +kernel), (pair_eq (wait_eq (by decide +kernel)))⟩,
   ⟨7, opOne 2 true, withOp (opOne 2 true), (by decide +kernel)⟩,
   ⟨7, dueOp 0 true, withOp (dueOp 0 true), ((withOp (dueOp 0 true)).writeWhole (dueOp 0 true) 2).2, (by decide +kernel),
     (by decide +kernel), (by decide +kernel), (by decide +kernel), (by decide +kernel), (by decide +kernel),
     (by decide +kernel), (pair_eq (ok_eq (by decide +kernel))), (by decide +kernel), (by decide +kernel)⟩,
   ⟨7, dueOp 2 true, withOp (dueOp 2 true), ((withOp (dueOp 2 true)).writeWhole (dueOp 2 true) 2).2, (by decide +kernel),
     (by decide +kernel), (by decide +kernel), (by decide +kernel), (by decide +kernel), (by decide +kernel),
     (by decide +kernel), (pair_eq (ok_eq (by decide +kernel))), (by decide +kernel)⟩,
   ⟨7, opOne 2 true, withOp (opOne 2 true), (by decide +kernel)⟩,
   ⟨1, 0x5000, 2 ^ 21 + 0x5000, [(1, false)], onBlock, (by unfold State.quiet; decide +kernel), (by decide +kernel),
     (by decide +kernel), (xok_eq (by decide +kernel)), (by decide +kernel)⟩,
   ⟨2, [none], (by decide +kernel), (by intro x hx; simp at hx), (by decide +kernel)⟩,
   ⟨intDesc 0, 2, [some 5], (by decide +kernel), (by intro x hx; simp at hx; omega), (by decide +kernel), (by decide +kernel),
     (by decide +kernel)⟩,
   ⟨intDesc 1, 2, [some 5], (by decide +kernel), (by intro x hx; simp at hx; omega), (by decide +kernel), (by decide +kernel),
     (by decide +kernel)⟩,
   ⟨intDesc 3, 2, [some 5], (by decide +kernel), (by intro x hx; simp at hx; omega), (by decide +kernel), (by decide +kernel),
     (by decide +kernel)⟩,
   ⟨opOne 0 true, 0, (by decide +kernel)⟩,
   ⟨intOp, 0, 0, [some [(5, false)]], (by decide +kernel)⟩,
   ⟨opOne 0 true, [0, 1], rowsGet ((onBlock.readLeaves (opOne 0 true) [0, 1]).1), onBlock, (onBlock.readLeaves (opOne 0 true)
     ([0, 1])).2, (pair_eq (ok_eq (by decide +kernel)))⟩,
   ⟨opOne 0 true, [0, 1], rowsGet ((onBlock.readLeaves (opOne 0 true) [0, 1]).1), onBlock, (onBlock.readLeaves (opOne 0 true)
     ([0, 1])).2, 1, (pair_eq (ok_eq (by decide +kernel))), (by decide +kernel)⟩,
   ⟨opOne 0 true, rowsGet ((onBlock.readLeaves (opOne 0 true) ((List.range 2).filter (fun r => !(opOne 0
     true).missing.contains r))).1), onBlock, (onBlock.readLeaves (opOne 0 true) (List.filter (fun (r : Nat) => !(opOne 0
     true).missing.contains r) (List.range (opOne 0 true).n))).2, (((onBlock.readLeaves (opOne 0 true) (List.filter (fun (r :
     Nat) => !(opOne 0 true).missing.contains r) (List.range (opOne 0 true).n))).2).writeResults (opOne 0 true) ((opOne 0
     true).desc.recvVa + if (opOne 0 true).owner = true ∧ (opOne 0 true).desc.op = 0 then (opOne 0 true).offset (opOne 0
     true).myRank * (opOne 0 true).eb else 0) (List.map ((opOne 0 true).result (opOne 0 true).missing.length (rowsGet
     ((onBlock.readLeaves (opOne 0 true) ((List.range 2).filter (fun r => !(opOne 0 true).missing.contains r))).1)) [])
     (List.range (opOne 0 true).segElems))).2, (by decide +kernel), (pair_eq (ok_eq (by decide +kernel))), (pair_eq (ok_eq
     (by decide +kernel)))⟩,
   ⟨7, opOne 2 false, withOp (opOne 2 false), ((withOp (opOne 2 false)).writeWhole (opOne 2 false) 1).2, (by decide +kernel),
     (pair_eq (ok_eq (by decide +kernel))), (by decide +kernel)⟩,
   ⟨7, loneOp, withOp loneOp, ((withOp loneOp).writeWhole loneOp 1).2, sumGet (((withOp loneOp).writeWhole loneOp
     1).2.reduceOp loneOp).1, ((((withOp loneOp).writeWhole loneOp 1).2).reduceOp loneOp).2, ((((((withOp loneOp).writeWhole
     loneOp 1).2).reduceOp loneOp).2).publish loneOp (sumGet (((withOp loneOp).writeWhole loneOp 1).2.reduceOp loneOp).1)).2,
     (by decide +kernel), (pair_eq (ok_eq (by decide +kernel))), (by decide +kernel), (by decide +kernel),
     (by decide +kernel), (pair_eq (ok_eq (by decide +kernel))), (pair_eq (ok_eq (by decide +kernel))), (by decide +kernel)⟩,
   ⟨7, opOne 0 false, withOp (opOne 0 false), ((withOp (opOne 0 false)).writeWhole (opOne 0 false) 1).2, sumGet (((withOp
     (opOne 0 false)).writeWhole (opOne 0 false) 1).2.reduceOp (opOne 0 false)).1, ((((withOp (opOne 0 false)).writeWhole
     (opOne 0 false) 1).2).reduceOp (opOne 0 false)).2, ((((((withOp (opOne 0 false)).writeWhole (opOne 0 false)
     1).2).reduceOp (opOne 0 false)).2).publish (opOne 0 false) (sumGet (((withOp (opOne 0 false)).writeWhole (opOne 0 false)
     1).2.reduceOp (opOne 0 false)).1)).2, (((((((((withOp (opOne 0 false)).writeWhole (opOne 0 false) 1).2).reduceOp (opOne 0
     false)).2).publish (opOne 0 false) (sumGet (((withOp (opOne 0 false)).writeWhole (opOne 0 false) 1).2.reduceOp (opOne 0
     false)).1)).2).modOp 7 fun (o : PlaitOp) => { o with
       parts := List.filter (fun (q : Pkt) => q.ptype == 2) o.parts, waitEnded := true,
       summaries := SMap.set (fun (x : Nat) => none) o.summaries o.myRank (some (sumGet (((withOp (opOne 0 false)).writeWhole (opOne 0 false) 1).2.reduceOp (opOne 0 false)).1)) }).tryFinish
       7).2, (by decide +kernel), (pair_eq (ok_eq (by decide +kernel))), (by decide +kernel), (by decide +kernel),
       (by decide +kernel), (pair_eq (ok_eq (by decide +kernel))), (pair_eq (ok_eq (by decide +kernel))), (by decide +kernel),
       (pair_eq (ok_eq (by decide +kernel)))⟩⟩

/-- The hypotheses of `Obligations.PlaitInstructions`, clause by clause. -/
theorem witness_PlaitInstructions :
    (∃ (b : Nat) (c : Nat) (f : Bool) (w : Word) (s : State) (i : Nat → Bool → Word → Instr), s.issues b f ∧ (s.blk b).ctx =
      some c ∧ (wDst w ≠ 0 ∨ wSb w ≠ 0 ∨ wBits w 31 0 ≠ 0) ∧ i ∈ [Instr.plait, Instr.plaitFence, Instr.plaitHrel]) ∧
    (∃ (b : Nat) (c : Nat) (f : Bool) (w : Word) (s : State), s.issues b f ∧ (s.blk b).ctx = some c ∧ wDst w = 0 ∧ wSb w = 0 ∧
      wBits w 31 0 = 0 ∧ ¬(8 ≤ (s.plaitQueue b).length ∨ s.ticketBusy b f (wTicket w) = true)) ∧
    (∃ (b : Nat) (c : Nat) (f : Bool) (w : Word) (s : State), s.issues b f ∧ (s.blk b).ctx = some c ∧ wDst w = 0 ∧ wSb w = 0 ∧
      wBits w 31 0 = 0 ∧ ¬(8 ≤ (s.plaitQueue b).length ∨ s.ticketBusy b f (wTicket w) = true) ∧ wSa w = 0) ∧
    (∃ (b : Nat) (c : Nat) (f : Bool) (w : Word) (s : State), s.issues b f ∧ (s.blk b).ctx = some c ∧ wDst w = 0 ∧ wSb w = 0 ∧
      wBits w 31 0 = 0 ∧ ¬(8 ≤ (s.plaitQueue b).length ∨ s.ticketBusy b f (wTicket w) = true) ∧ BitVec.toNat (s.sreg b f (wSa
      w)) ≤ 1023 ∧ SMap.get (fun (x : Nat) => none) s.holds (holdKey (s.ctxOf c).part (BitVec.toNat (s.sreg b f (wSa w)))) =
      some c) ∧
    (∃ (b : Nat) (c : Nat) (f : Bool) (w : Word) (s : State), s.issues b f ∧ (s.blk b).ctx = some c ∧ wDst w = 0 ∧ wSb w = 0 ∧
      wBits w 31 0 = 0 ∧ ¬(8 ≤ (s.plaitQueue b).length ∨ s.ticketBusy b f (wTicket w) = true) ∧ (1023 < BitVec.toNat (s.sreg b
      f (wSa w)) ∨ ∃ (c' : Nat), c' ≠ c ∧ SMap.get (fun (x : Nat) => none) s.holds (holdKey (s.ctxOf c).part (BitVec.toNat
      (s.sreg b f (wSa w)))) = some c')) ∧
    (∃ (b : Nat) (c : Nat) (f : Bool) (w : Word) (s : State), s.issues b f ∧ (s.blk b).ctx = some c ∧ wDst w = 0 ∧ wSb w = 0 ∧
      wBits w 31 0 = 0 ∧ (8 ≤ (s.plaitQueue b).length ∨ s.ticketBusy b f (wTicket w) = true)) ∧
    (∃ (b : Nat) (c : Nat) (f : Bool) (w : Word) (s : State), s.issues b f ∧ (s.blk b).ctx = some c ∧ wDst w = 0 ∧ wSb w = 0 ∧
      wBits w 31 0 = 0 ∧ (8 ≤ (s.plaitQueue b).length ∨ s.ticketBusy b f (wTicket w) = true) ∧ wSa w = 0) ∧
    (∃ (b : Nat) (c : Nat) (f : Bool) (w : Word) (s : State), s.issues b f ∧ (s.blk b).ctx = some c ∧ wDst w = 0 ∧ wSb w = 0 ∧
      wBits w 31 0 = 0 ∧ wSa w ≠ 0) :=
  ⟨⟨0, 1, false, 0xC000040000000001, onBlock, Instr.plait, (by unfold State.issues State.quiet; decide +kernel),
  (by decide +kernel), (by decide +kernel), (List.Mem.head _)⟩,
   ⟨0, 1, false, 0xC000040000000000, onBlock, (by unfold State.issues State.quiet; decide +kernel)⟩,
   ⟨0, 1, true, 0xC010000500000000, onFill, (by unfold State.issues State.quiet; decide +kernel)⟩,
   ⟨0, 1, false, 0xC020040000000000, { withRegs [(1, 1023)] with holds := [(1023, some 1)] },
     (by unfold State.issues State.quiet; decide +kernel)⟩,
   ⟨0, 1, false, 0xC020040000000000, withRegs [(1, 1024)], (by unfold State.issues State.quiet; decide +kernel),
     (by decide +kernel), (by decide +kernel), (by decide +kernel), (by decide +kernel), (by decide +kernel), (Or.inl
     (by decide +kernel))⟩,
   ⟨0, 1, false, 0xC000040500000000, onBlock.modSet 0 false (fun x => { x with tk := [(5, ⟨.busy, 1, 0, 0⟩)] }),
     (by unfold State.issues State.quiet; decide +kernel)⟩,
   ⟨0, 1, false, 0xC010000500000000, onBlock.modSet 0 false (fun x => { x with tk := [(5, ⟨.busy, 1, 0, 0⟩)] }),
     (by unfold State.issues State.quiet; decide +kernel)⟩,
   ⟨0, 1, false, 0xC010040000000000, onBlock, (by unfold State.issues State.quiet; decide +kernel)⟩⟩

/-- The hypotheses of `Obligations.PowerAndClocks`, clause by clause. -/
theorem witness_PowerAndClocks :
    (∃ (s : State), s.power.pwrGood = false) ∧
    (∃ (rail : Nat) (s : State), s.power.railsOn = true ∧ s.power.held = false ∧ rail ∈ [3, 4, 5, 6]) ∧
    (∃ (s : State), s.power.railsOn = true ∧ s.power.held = false ∧ s.flag PWR_CLK_A_OK = false ∧ s.flag PWR_CLK_B_OK = false
      ∧ s.flag DIM_UNITS_VALID = true) ∧
    (∃ (clkB : Bool) (s : State), s.powered = true ∧ s.flag (clkOk clkB) = true) ∧
    (∃ (s : State), s.powered = true ∧ s.flag DIM_UNITS_VALID = true) ∧
    (∃ (a : Auth) (p : Path) (v : Word) (s : State), s.reaches a p PWR_CLK ∧ bitOf (BitVec.toNat v) 3 = true ∧ a =
      Auth.operator) ∧
    (∃ (a : Auth) (p : Path) (v : Word) (s : State), s.reaches a p PWR_CLK ∧ bitOf (BitVec.toNat v) 3 = true ∧ a ≠
      Auth.operator) ∧
    (∃ (s : State), s.powered = true ∧ s.flag DIM_UNITS_VALID = true ∧ s.smbStuck = false) ∧
    (∃ (s : State), s.powered = true ∧ s.power.throtReqN = true) ∧
    (∃ (temps : List Int) (s : State) (t : Int) (i : Nat), s.powered = true ∧ s.power.thermTripN = true ∧
      { s.power with temps := temps }.tj = some (t, i) ∧ 920 ≤ t) ∧
    (∃ (temps : List Int) (s : State) (t : Int) (i : Nat), s.powered = true ∧ s.power.thermTripN = true ∧
      { s.power with temps := temps }.tj = some (t, i) ∧ t < 920) ∧
    (∃ (s : State), s.powered = true ∧ s.power.thermTripN = true) ∧
    (∃ (s : State) (t : Int) (i : Nat), s.powered = true ∧ s.flag PWR_STATUS_STOP = true ∧ s.power.tj = some (t, i) ∧ t < 800) :=
  ⟨⟨State.reset, (by decide +kernel)⟩,
   ⟨6, dev, (by decide +kernel)⟩,
   ⟨{ dev with regs := [(DIM_UNITS, regReset DIM_UNITS ||| 1), (PWR_CLK, 0)] }, (by decide +kernel)⟩,
   ⟨false, dev.setFlag PWR_CLK_A_OK true, (by decide +kernel)⟩,
   ⟨dev, (by decide +kernel)⟩,
   ⟨.operator, .mgmt0, 8, dev, (by unfold State.reaches; decide +kernel)⟩,
   ⟨.tenant, .internal, 8, dev, (by unfold State.reaches; decide +kernel)⟩,
   ⟨dev, (by decide +kernel)⟩,
   ⟨dev, (by decide +kernel)⟩,
   ⟨[800, 920], dev, 920, 1, (by decide +kernel)⟩,
   ⟨[800, 919], dev, 919, 1, (by decide +kernel)⟩,
   ⟨dev, (by decide +kernel)⟩,
   ⟨(dev.setFlag PWR_STATUS_STOP true).modPower (fun w => { w with temps := [799] }), 799, 0, (by decide +kernel)⟩⟩

/-- The hypotheses of `Obligations.RandWritesItsRow`, clause by clause. -/
theorem witness_RandWritesItsRow :
    (∃ (b : Nat) (s : State) (r : WeaveRun), s.randReady b r ∧ (s.blk b).arrTest = none ∧ r.next < r.op.rows ∧ (r.op.acc =
      true → s.localPoisoned b (r.op.rowAddr r.next) (r.op.nc * if r.op.wide = true then 8 else 4) = false)) :=
  ⟨0, onBlockWith (fun x => { x with run := some runTwo }), runTwo, (by unfold State.randReady State.quiet; decide +kernel)⟩

/-- The hypotheses of `Obligations.RecorderModes`, clause by clause. -/
theorem witness_RecorderModes :
    (∃ (p : Path) (v : Word) (s : State), s.reaches Auth.operator p RPL_CTRL ∧ bits (BitVec.toNat v) 1 0 = 1 ∧ s.rplArmable
      (bits (BitVec.toNat v) 63 52) = true) ∧
    (∃ (p : Path) (s : State), s.reaches Auth.operator p RPL_CTRL) ∧
    (∃ (p : Path) (v : Word) (s : State), s.reaches Auth.operator p RPL_CTRL ∧ bits (BitVec.toNat v) 1 0 = 2 ∧ s.rplArmable
      (bits (BitVec.toNat v) 63 52) = true ∧ s.rplFull = false ∧ s.flag RPL_STATUS_VALID = true) ∧
    (∃ (p : Path) (v : Word) (s : State), s.reaches Auth.operator p RPL_CTRL ∧ bits (BitVec.toNat v) 1 0 = 0 ∧ s.fld
      RPL_CTRL_MODE ≠ 1) ∧
    (∃ (p : Path) (v : Word) (s : State), s.reaches Auth.operator p RPL_CTRL ∧ bits (BitVec.toNat v) 1 0 = 0 ∧ s.fld
      RPL_CTRL_MODE = 1 ∧ s.rplFull = false ∧ rplBytes s.recorder + (⟨4, s.now, leBytes s.recorder.length 8⟩ : RplRec).size ≤
      2 ^ 35) ∧
    (∃ (p : Path) (v : Word) (s : State), s.reaches Auth.operator p RPL_CTRL ∧ (bits (BitVec.toNat v) 1 0 = 3 ∨ bits
      (BitVec.toNat v) 1 0 ≠ 0 ∧ s.rplArmable (bits (BitVec.toNat v) 63 52) = false ∨ bits (BitVec.toNat v) 1 0 = 2 ∧
      (s.rplFull = true ∨ s.flag RPL_STATUS_VALID = false))) :=
  ⟨⟨.mgmt0, BitVec.ofNat 64 (2 ^ 52 + 1), rplDev, (by unfold State.reaches; decide +kernel)⟩,
   ⟨.mgmt0, rplDev, (by unfold State.reaches; decide +kernel)⟩,
   ⟨.mgmt1, BitVec.ofNat 64 (2 ^ 52 + 2), rplDev.setFlag RPL_STATUS_VALID true, (by unfold State.reaches; decide +kernel)⟩,
   ⟨.mgmt0, 0, rplDev.setFld RPL_CTRL_MODE 2, (by unfold State.reaches; decide +kernel)⟩,
   ⟨.mgmt0, 0, rplDev.setFld RPL_CTRL_MODE 1, (by unfold State.reaches; decide +kernel)⟩,
   ⟨.mgmt0, 3, rplDev, (by unfold State.reaches; decide +kernel)⟩⟩

/-- The hypotheses of `Obligations.RegisterFields`, clause by clause. -/
theorem witness_RegisterFields :
    (∃ (r : RegSpec), r ∈ regTable) ∧
    (∃ (r : RegSpec) (f : FieldSpec), r ∈ regTable ∧ f ∈ r.fields) ∧
    (∃ (fields : List FieldSpec) (old : Nat) (f : FieldSpec), old < 2 ^ 64 ∧ List.Pairwise (fun (f g : FieldSpec) => f.hi <
      g.lo ∨ g.hi < f.lo) fields ∧ (∀ (f : FieldSpec), f ∈ fields → f.lo ≤ f.hi ∧ f.hi < 64) ∧ f ∈ fields) ∧
    (∃ (fields : List FieldSpec) (old : Nat) (i : Nat), old < 2 ^ 64 ∧ List.Pairwise (fun (f g : FieldSpec) => f.hi < g.lo ∨
      g.hi < f.lo) fields ∧ (∀ (f : FieldSpec), f ∈ fields → f.lo ≤ f.hi ∧ f.hi < 64) ∧ ∀ (f : FieldSpec), f ∈ fields → i <
      f.lo ∨ f.hi < i) ∧
    (∃ (fields : List FieldSpec) (old : Nat), old < 2 ^ 64 ∧ List.Pairwise (fun (f g : FieldSpec) => f.hi < g.lo ∨ g.hi <
      f.lo) fields ∧ ∀ (f : FieldSpec), f ∈ fields → f.lo ≤ f.hi ∧ f.hi < 64) ∧
    (∃ (s : State) (a : Auth) (off : Nat) (v : Word) (locked : Bool), off ≠ LID_JOURNAL ∧ (off ≠ LID_STATUS ∨ (judge
      (regFields off) (BitVec.toNat (s.reg off)) (BitVec.toNat v) fun (f : FieldSpec) => !locked && ownAllows f.own a
      off).attempted = false)) ∧
    (∃ (s : State) (a : Auth) (off : Nat) (v : Word) (locked : Bool) (o : Nat), o ≠ off ∧ o ≠ LID_JOURNAL ∧ (o ≠ LID_STATUS ∨
      (judge (regFields off) (BitVec.toNat (s.reg off)) (BitVec.toNat v) fun (f : FieldSpec) => !locked && ownAllows f.own a
      off).attempted = false)) ∧
    (∃ (s : State) (a : Auth) (off : Nat) (v : Word) (locked : Bool), (judge (regFields off) (BitVec.toNat (s.reg off))
      (BitVec.toNat v) fun (f : FieldSpec) => !locked && ownAllows f.own a off).attempted = true) ∧
    (∃ (s : State) (a : Auth) (off : Nat) (v : Word) (locked : Bool), s.lid.journal.length < 1024 ∧ (judge (regFields off)
      (BitVec.toNat (s.reg off)) (BitVec.toNat v) fun (f : FieldSpec) => !locked && ownAllows f.own a off).landed = false ∧
      (judge (regFields off) (BitVec.toNat (s.reg off)) (BitVec.toNat v) fun (f : FieldSpec) => !locked && ownAllows f.own a
      off).attempted = false) ∧
    (∃ (s : State) (a : Auth) (off : Nat) (v : Word) (locked : Bool), s.lid.journal.length < 1024 ∧ (judge (regFields off)
      (BitVec.toNat (s.reg off)) (BitVec.toNat v) fun (f : FieldSpec) => !locked && ownAllows f.own a off).landed = true ∧
      (judge (regFields off) (BitVec.toNat (s.reg off)) (BitVec.toNat v) fun (f : FieldSpec) => !locked && ownAllows f.own a
      off).attempted = false) ∧
    (∃ (s : State) (a : Auth) (off : Nat) (v : Word) (locked : Bool), s.lid.journal.length < 1024 ∧ (judge (regFields off)
      (BitVec.toNat (s.reg off)) (BitVec.toNat v) fun (f : FieldSpec) => !locked && ownAllows f.own a off).landed = false ∧
      (judge (regFields off) (BitVec.toNat (s.reg off)) (BitVec.toNat v) fun (f : FieldSpec) => !locked && ownAllows f.own a
      off).attempted = true) :=
  ⟨⟨regTable.head (by decide), (by decide +kernel)⟩,
   ⟨regTable.head (by decide), ((regTable.head (by decide)).fields.head (by decide)), (by decide +kernel)⟩,
   ⟨epochReg.1.fields, 0, epochReg.1.fields.head (by decide +kernel), (by decide +kernel), (by decide +kernel),
     (by decide +kernel), (List.head_mem _)⟩,
   ⟨epochReg.1.fields, 2 ^ 64 - 1, 63, (by decide +kernel)⟩,
   ⟨[], 2 ^ 64 - 1, (by decide +kernel)⟩,
   ⟨dev, .driver, PTB_CTRL, 1, false, (by decide +kernel)⟩,
   ⟨dev, .driver, PTB_CTRL, 1, false, 8, (by decide +kernel)⟩,
   ⟨dev, .driver, PTB_CTRL, 1, false, (by decide +kernel)⟩,
   ⟨dev, .driver, DIM_ID, 0, false, (by decide +kernel)⟩,
   ⟨dev, .debug, PTB_CTRL, 1, false, (by decide +kernel)⟩,
   ⟨dev, .driver, PTB_CTRL, 1, false, (by decide +kernel)⟩⟩

/-- The hypotheses of `Obligations.RegisterPaths`, clause by clause. -/
theorem witness_RegisterPaths :
    (∃ (a : Auth) (p : Path) (off : Nat) (s : State), s.reaches a p off ∧ findReg regTable off = none) ∧
    (∃ (a : Auth) (p : Path) (off : Nat) (s : State) (r : RegSpec) (ix : List Nat), s.reaches a p off ∧ findReg regTable off =
      some (r, ix) ∧ (List.find? (fun (x : Action) => x.base == r.base) regActions).isNone = true) ∧
    (∃ (a : Auth) (p : Path) (off : Nat) (s : State) (r : RegSpec) (ix : List Nat) (x : Action), s.reaches a p off ∧ findReg
      regTable off = some (r, ix) ∧ List.find? (fun (x : Action) => x.base == r.base) regActions = some x) ∧
    (∃ (p : Path) (b : Nat) (v : Word) (s : State), s.reaches Auth.debug p (BLK_CORE_CTRL b) ∧ bitOf (BitVec.toNat v) 1 =
      true) ∧
    (∃ (h : JHdr) (s : State) (s1 : State) (m : JMsg), s.powered = true ∧ h.opc = 1 ∧ (s.takeMsg fun (m : JMsg) => m.hdr == h)
      = (some m, s1) ∧ s.apertureStatus h ≠ 0) ∧
    (∃ (h : JHdr) (s : State) (s1 : State) (m : JMsg), s.powered = true ∧ h.opc = 1 ∧ (s.takeMsg fun (m : JMsg) => m.hdr == h)
      = (some m, s1) ∧ s.apertureStatus h = 0 ∧ s.accessWaits h = true) ∧
    (∃ (h : JHdr) (s : State) (s1 : State) (m : JMsg), s.powered = true ∧ h.opc = 1 ∧ (s.takeMsg fun (m : JMsg) => m.hdr == h)
      = (some m, s1) ∧ s.apertureStatus h = 0 ∧ s.accessWaits h = false ∧ bits h.addr 55 52 = 0) ∧
    (∃ (h : JHdr) (s : State) (s1 : State) (m : JMsg), s.powered = true ∧ h.opc = 1 ∧ (s.takeMsg fun (m : JMsg) => m.hdr == h)
      = (some m, s1) ∧ s.apertureStatus h = 0 ∧ s.accessWaits h = false ∧ bits h.addr 55 52 ≠ 0 ∧ s.quiet) ∧
    (∃ (h : JHdr) (data : List Byte) (s : State) (s1 : State) (m : JMsg), s.powered = true ∧ h.opc = 2 ∧ (s.takeMsg fun (m :
      JMsg) => m.hdr == h && m.data == data) = (some m, s1) ∧ s.apertureStatus h ≠ 0) ∧
    (∃ (h : JHdr) (data : List Byte) (s : State) (s1 : State) (m : JMsg), s.powered = true ∧ h.opc = 2 ∧ (s.takeMsg fun (m :
      JMsg) => m.hdr == h && m.data == data) = (some m, s1) ∧ s.apertureStatus h = 0 ∧ s.accessWaits h = true) ∧
    (∃ (h : JHdr) (data : List Byte) (s : State) (s1 : State) (m : JMsg), s.powered = true ∧ h.opc = 2 ∧ (s.takeMsg fun (m :
      JMsg) => m.hdr == h && m.data == data) = (some m, s1) ∧ s.apertureStatus h = 0 ∧ s.accessWaits h = false ∧ bits h.addr
      55 52 = 0) ∧
    (∃ (h : JHdr) (data : List Byte) (s : State) (s1 : State) (m : JMsg), s.powered = true ∧ h.opc = 2 ∧ (s.takeMsg fun (m :
      JMsg) => m.hdr == h && m.data == data) = (some m, s1) ∧ s.apertureStatus h = 0 ∧ s.accessWaits h = false ∧ bits h.addr
      55 52 ≠ 0 ∧ s.writeHeld (h.addr % 2 ^ 39) data.length = true) ∧
    (∃ (h : JHdr) (data : List Byte) (s : State) (s1 : State) (m : JMsg), s.powered = true ∧ h.opc = 2 ∧ (s.takeMsg fun (m :
      JMsg) => m.hdr == h && m.data == data) = (some m, s1) ∧ s.apertureStatus h = 0 ∧ s.accessWaits h = false ∧ bits h.addr
      55 52 ≠ 0 ∧ s.writeHeld (h.addr % 2 ^ 39) data.length = false ∧ ∀ (u : Upset), u ∈ s.upsets → u.site ≠ Site.hbmWrite) ∧
    (∃ (off : Nat) (s : State), s.powered = true ∧ s.lid.key ≠ none ∧ off < 2 ^ 32) ∧
    (∃ (off : Nat) (s : State), s.powered = true ∧ s.lid.key ≠ none ∧ off < 2 ^ 32 ∧ s.regStatus off = 0) ∧
    (∃ (off : Nat) (s : State), s.powered = true ∧ s.lid.key ≠ none ∧ off < 2 ^ 32 ∧ s.regStatus off ≠ 0) ∧
    (∃ (off : Nat) (s : State), s.powered = true ∧ s.lid.key ≠ none ∧ off < 2 ^ 32 ∧ s.flag LID_AUTH_DEBUG_EN = true ∧
      s.regStatus off = 0) ∧
    (∃ (off : Nat) (s : State), s.powered = true ∧ s.lid.key ≠ none ∧ off < 2 ^ 32 ∧ s.flag LID_AUTH_DEBUG_EN = false) ∧
    (∃ (s : State), s.powered = true ∧ s.flag LID_AUTH_DEBUG_EN = false) ∧
    (∃ (s : State), s.powered = true ∧ s.flag LID_AUTH_DEBUG_EN = true) ∧
    (∃ (off : Nat) (s : State), s.powered = true ∧ s.flag LID_AUTH_DEBUG_EN = true ∧ s.served off = true) ∧
    (∃ (body : List Byte) (s : State) (s1 : State) (m : JMsg), s.powered = true ∧ s.flag RST_STATUS_LID_WEDGED = false ∧
      (s.takeMsg fun (m : JMsg) => m.hdr.opc == 32 && List.drop 8 m.data == body) = (some m, s1)) :=
  ⟨⟨.driver, .josil, 0x3FFFFF8, dev, (by unfold State.reaches; decide +kernel)⟩,
   ⟨.driver, .josil, DIM_ID, dev, idReg.1, idReg.2, (by unfold State.reaches; decide +kernel), ((Option.some_get
     (by decide +kernel)).symm), (by decide +kernel)⟩,
   ⟨.operator, .mgmt0, FTU_EPOCH, dev, epochReg.1, epochReg.2, (List.find? (fun (x : Action) => x.base == epochReg.1.base)
     regActions).get (by decide +kernel), (by unfold State.reaches; decide +kernel), ((Option.some_get
     (by decide +kernel)).symm), (Option.some_get _).symm⟩,
   ⟨.debugPort, 127, 2, debugDev, (by unfold State.reaches; decide +kernel)⟩,
   ⟨(accessOne 1 (2 ^ 26)).hdr, apDev (accessOne 1 (2 ^ 26)), (((apDev (accessOne 1 (2 ^ 26))).takeMsg fun (m : JMsg) => m.hdr
     == ((accessOne 1 (2 ^ 26)).hdr))).2, accessOne 1 (2 ^ 26), (by decide +kernel), (by decide +kernel), (pair_eq
     (by decide +kernel)), (by decide +kernel)⟩,
   ⟨(accessOne 1 8).hdr, { apDev (accessOne 1 8) with heldWrites := [(0, [0], [], some (hdrOne 2 0))] },
     ((({ apDev (accessOne 1 8) with heldWrites := [(0, [0], [], some (hdrOne 2 0))] }).takeMsg fun (m : JMsg) => m.hdr ==
     ((accessOne 1 8).hdr))).2, accessOne 1 8, (by decide +kernel), (by decide +kernel), (pair_eq (by decide +kernel)),
     (by decide +kernel), (by decide +kernel)⟩,
   ⟨(accessOne 1 8).hdr, apDev (accessOne 1 8), (((apDev (accessOne 1 8)).takeMsg fun (m : JMsg) => m.hdr == ((accessOne 1
     8).hdr))).2, accessOne 1 8, (by decide +kernel), (by decide +kernel), (pair_eq (by decide +kernel)), (by decide +kernel),
     (by decide +kernel), (by decide +kernel)⟩,
   ⟨(accessOne 1 (2 ^ 52)).hdr, apDev (accessOne 1 (2 ^ 52)), (((apDev (accessOne 1 (2 ^ 52))).takeMsg fun (m : JMsg) => m.hdr
     == ((accessOne 1 (2 ^ 52)).hdr))).2, accessOne 1 (2 ^ 52), (by decide +kernel), (by decide +kernel), (pair_eq
     (by decide +kernel)), (by decide +kernel), (by decide +kernel), (by decide +kernel),
     (by unfold State.quiet; decide +kernel)⟩,
   ⟨(accessOne 2 (2 ^ 39)).hdr, List.replicate 8 0, apDev (accessOne 2 (2 ^ 39)), (((apDev (accessOne 2 (2 ^ 39))).takeMsg fun
     (m : JMsg) => m.hdr == ((accessOne 2 (2 ^ 39)).hdr) && m.data == (List.replicate 8 0))).2, accessOne 2 (2 ^ 39),
     (by decide +kernel), (by decide +kernel), (pair_eq (by decide +kernel)), (by decide +kernel)⟩,
   ⟨(accessOne 2 (2 ^ 52)).hdr, List.replicate 8 0, {
       apDev (accessOne 2 (2 ^ 52)) with frameTests := [⟨(dev.frameOf 0).1, (dev.frameOf 0).2, false, true⟩] }, ((({
       apDev (accessOne 2 (2 ^ 52)) with frameTests := [⟨(dev.frameOf 0).1, (dev.frameOf 0).2, false, true⟩] }).takeMsg fun (m
       : JMsg) => m.hdr == ((accessOne 2 (2 ^ 52)).hdr) && m.data == (List.replicate 8 0))).2, accessOne 2 (2 ^ 52),
       (by decide +kernel), (by decide +kernel), (pair_eq (by decide +kernel)), (by decide +kernel), (by decide +kernel)⟩,
   ⟨(accessOne 2 0x3FFFFF8).hdr, List.replicate 8 0, apDev (accessOne 2 0x3FFFFF8), (((apDev (accessOne 2 0x3FFFFF8)).takeMsg
     fun (m : JMsg) => m.hdr == ((accessOne 2 0x3FFFFF8).hdr) && m.data == (List.replicate 8 0))).2, accessOne 2 0x3FFFFF8,
     (by decide +kernel), (by decide +kernel), (pair_eq (by decide +kernel)), (by decide +kernel), (by decide +kernel),
     (by decide +kernel)⟩,
   ⟨(accessOne 2 0x10000000200000).hdr, List.replicate 8 0, heldAp (accessOne 2 0x10000000200000), (((heldAp (accessOne 2
     0x10000000200000)).takeMsg fun (m : JMsg) => m.hdr == ((accessOne 2 0x10000000200000).hdr) && m.data == (List.replicate 8
     0))).2, accessOne 2 0x10000000200000, (by decide +kernel), (by decide +kernel), (pair_eq (by decide +kernel)),
     (by decide +kernel), (by decide +kernel), (by decide +kernel), (by decide +kernel)⟩,
   ⟨(accessOne 2 0x10000000200000).hdr, List.replicate 8 0, apDev (accessOne 2 0x10000000200000), (((apDev (accessOne 2
     0x10000000200000)).takeMsg fun (m : JMsg) => m.hdr == ((accessOne 2 0x10000000200000).hdr) && m.data == (List.replicate 8
     0))).2, accessOne 2 0x10000000200000, (by decide +kernel), (by decide +kernel), (pair_eq (by decide +kernel)),
     (by decide +kernel), (by decide +kernel), (by decide +kernel), (by decide +kernel), (by decide +kernel)⟩,
   ⟨2 ^ 32 - 1, devKey, (by decide +kernel)⟩,
   ⟨0x3FFFFF8, devKey, (by decide +kernel)⟩,
   ⟨0x4000000, devKey, (by decide +kernel)⟩,
   ⟨8, devKey.setFlag LID_AUTH_DEBUG_EN true, (by decide +kernel)⟩,
   ⟨8, devKey, (by decide +kernel)⟩,
   ⟨dev, (by decide +kernel)⟩,
   ⟨debugDev, (by decide +kernel)⟩,
   ⟨8, debugDev, (by decide +kernel)⟩,
   ⟨[1], dev.modJosil (fun j => { j with inbox := [⟨2, hdrOne 32 0, 0, List.replicate 8 0 ++ [1]⟩] }), (((dev.modJosil (fun j
     => { j with inbox := [⟨2, hdrOne 32 0, 0, List.replicate 8 0 ++ [1]⟩] })).takeMsg fun (m : JMsg) => m.hdr.opc == 32 &&
     List.drop 8 m.data == [1])).2, ⟨2, hdrOne 32 0, 0, List.replicate 8 0 ++ [1]⟩, (by decide +kernel), (by decide +kernel),
     (pair_eq (by decide +kernel))⟩⟩

/-- The hypotheses of `Obligations.ReservedFieldsFault`, clause by clause. -/
theorem witness_ReservedFieldsFault :
    (∃ (b : Nat) (f : Bool) (w : Word) (s : State) (c : Nat → Bool → Word → Instr), s.issues b f ∧ wImm w ≠ 0 ∧ c ∈
      [Instr.add, Instr.sub, Instr.and, Instr.or, Instr.xor, Instr.sll, Instr.srl, Instr.sra, Instr.slt, Instr.sltu,
      Instr.mul, Instr.mulh, Instr.mulhu, Instr.div, Instr.divu, Instr.rem, Instr.remu, Instr.min, Instr.max, Instr.minu,
      Instr.maxu, Instr.clz, Instr.ctz, Instr.popc, Instr.ftnow, Instr.ftwait, Instr.ftstat, Instr.exit, Instr.fence,
      Instr.nop, Instr.brk]) ∧
    (∃ (b : Nat) (f : Bool) (w : Word) (s : State) (c : Nat → Bool → Word → Instr), s.issues b f ∧ wSb w ≠ 0 ∧ c ∈ [Instr.clz,
      Instr.ctz, Instr.popc, Instr.addi, Instr.andi, Instr.ori, Instr.xori, Instr.slli, Instr.srli, Instr.srai, Instr.slti,
      Instr.sltiu, Instr.movi, Instr.movhi, Instr.wait, Instr.waitany, Instr.tkst, Instr.ftnow, Instr.ftwait, Instr.ftstat,
      Instr.exit, Instr.fence, Instr.csrr, Instr.csrw, Instr.nop, Instr.brk]) ∧
    (∃ (b : Nat) (f : Bool) (w : Word) (s : State) (c : Nat → Bool → Word → Instr), s.issues b f ∧ wSa w ≠ 0 ∧ c ∈
      [Instr.movi, Instr.tkst, Instr.ftnow, Instr.ftstat, Instr.fence, Instr.csrr, Instr.nop, Instr.brk]) ∧
    (∃ (b : Nat) (f : Bool) (w : Word) (s : State) (c : Nat → Bool → Word → Instr), s.issues b f ∧ wDst w ≠ 0 ∧ c ∈
      [Instr.stlB, Instr.stlH, Instr.stlW, Instr.stlD, Instr.beq, Instr.bne, Instr.blt, Instr.bge, Instr.bltu, Instr.bgeu,
      Instr.wait, Instr.exit, Instr.fence, Instr.csrw, Instr.nop, Instr.brk]) ∧
    (∃ (b : Nat) (f : Bool) (w : Word) (s : State) (c : Nat → Bool → Word → Instr), s.issues b f ∧ wBits w 36 1 ≠ 0 ∧ c ∈
      [Instr.fadd, Instr.fsub, Instr.fmul, Instr.fdiv, Instr.fsqrt, Instr.fmin, Instr.fmax, Instr.fma, Instr.fcmpEq,
      Instr.fcmpLt, Instr.fcmpLe, Instr.fcvtI, Instr.fcvtF, Instr.fcvtP]) ∧
    (∃ (b : Nat) (f : Bool) (w : Word) (s : State), s.issues b f ∧ wBits w 36 27 ≠ 0) ∧
    (∃ (b : Nat) (f : Bool) (w : Word) (s : State) (c : Nat → Bool → Word → Instr), s.issues b f ∧ wBits w 36 33 ≠ 0 ∧ c ∈
      [Instr.wait, Instr.waitany, Instr.waitT]) ∧
    (∃ (b : Nat) (f : Bool) (w : Word) (s : State), s.issues b f ∧ wBits w 36 5 ≠ 0) ∧
    (∃ (b : Nat) (f : Bool) (w : Word) (s : State) (c : Nat → Bool → Word → Instr), s.issues b f ∧ wBits w 36 8 ≠ 0 ∧ c ∈
      [Instr.csrr, Instr.csrw]) :=
  ⟨⟨0, false, 1, onBlock, Instr.add, (by unfold State.issues State.quiet; decide +kernel), (by decide +kernel), (List.Mem.head
  _)⟩,
   ⟨0, true, BitVec.ofNat 64 (2 ^ 41), onFill, Instr.clz, (by unfold State.issues State.quiet; decide +kernel),
     (by decide +kernel), (List.Mem.head _)⟩,
   ⟨0, false, BitVec.ofNat 64 (2 ^ 42), onBlock, Instr.movi, (by unfold State.issues State.quiet; decide +kernel),
     (by decide +kernel), (List.Mem.head _)⟩,
   ⟨0, false, BitVec.ofNat 64 (2 ^ 51), onBlock, Instr.stlB, (by unfold State.issues State.quiet; decide +kernel),
     (by decide +kernel), (List.Mem.head _)⟩,
   ⟨0, false, 2, onBlock, Instr.fadd, (by unfold State.issues State.quiet; decide +kernel), (by decide +kernel),
     (List.Mem.head _)⟩,
   ⟨0, false, BitVec.ofNat 64 (2 ^ 27), onBlock, (by unfold State.issues State.quiet; decide +kernel)⟩,
   ⟨0, false, BitVec.ofNat 64 (2 ^ 33), onBlock, Instr.wait, (by unfold State.issues State.quiet; decide +kernel),
     (by decide +kernel), (List.Mem.head _)⟩,
   ⟨0, false, BitVec.ofNat 64 (2 ^ 36), onBlock, (by unfold State.issues State.quiet; decide +kernel)⟩,
   ⟨0, false, BitVec.ofNat 64 (2 ^ 8), onBlock, Instr.csrr, (by unfold State.issues State.quiet; decide +kernel),
     (by decide +kernel), (List.Mem.head _)⟩⟩

/-- The hypotheses of `Obligations.ResetState`, clause by clause. -/
theorem witness_ResetState :
    (∃ (p : Fld × Nat), p ∈ [(DIM_ID_PART, 25600), (DIM_ID_ISA_LEVEL, 2), (DIM_ARRAY_LANES, 32), (DIM_ARRAY_SPARE_COLS, 2),
      (DIM_ARRAY_COL_ROWS, 16), (DIM_ARRAY_COLUMNS, 128), (DIM_ARRAY_TILE_K, 512), (DIM_ARRAY_TILE_M_MAX, 256),
      (DIM_ARRAY_STAKE_SLOTS, 128), (DIM_MEMORY_HBM_STACKS, 8), (DIM_MEMORY_HBM_STACK_GB, 64), (DIM_COMPUTE_VLMAX, 1024),
      (DIM_SCHED_QUEUES, 32768), (DIM_SCHED_CONTEXTS, 4096), (DIM_UNITS_VALID, 0), (FTU_STATUS_ERR_BOUND, 65535),
      (FTU_STATUS_HOPS, 15), (FTU_STATUS_LOCKED, 0), (FTU_CTRL_HOLD_LIMIT_NS, 1000), (FTU_CTRL_OUTLIER_NS, 200),
      (FTU_CTRL_BEACON_US, 10), (FTU_SERVO_SLEW_PPM, 50), (FTU_SERVO_STEP_NS, 10000), (FTU_SERVO_BANDWIDTH, 4),
      (HBM_SCRUB_CTRL_DONE, 1), (HBM_TLBI_CTRL_DONE, 1), (SCH_CTRL_BLOCKED_NS, 20000), (SCH_CTRL_FILL_EN, 1), (SCH_CMD_DONE,
      1), (RIM_GLOBAL_RTT_MAX_US, 36), (RPT_GLOBAL_HOP_LIMIT, 8), (PLT_CTRL_GRACE_NS, 50000), (PLT_CTRL_EARLY_US, 1000),
      (RST_CTRL_ALIVE_MS, 100), (RST_CTRL_STOP_US, 100), (RST_CTRL_ESCALATE_EN, 1), (RST_WD_BLOCK_STRIKES, 4),
      (RST_WD_SCHED_STRIKES, 3), (RST_WD_COMP_STRIKES, 5), (RST_WD_OVERRUN_LIMIT, 64), (HLT_RTS_DONE, 1),
      (JSL_CTRL_REQ_TIMEOUT_US, 10000), (JSL_CTRL_REPLAY_LIMIT, 8), (JSL_CTRL_RETRAIN_LIMIT, 4), (LID_STATUS_STEP, 1),
      (LID_STATUS_READY, 0), (LID_CMD_DONE, 1), (PWR_CTRL_HYST_W, 20), (PWR_CTRL_STEP_UP, 4), (PWR_CTRL_EXT_LEVEL, 32),
      (PWR_CTRL_TH_START_C, 95), (MGT_CTRL_UDP_PORT, 7462), (MGT_CTRL_TELEM_MS, 1000), (SMB_CTRL_TARGET_ADDR, 76),
      (SMB_CTRL_POLL_MS, 1), (PTB_CTRL_EN, 0), (PTB_INJ_COLUMN, 255), (PTB_GEN_SRC, 65535)]) ∧
    (∃ (b : Nat), b < 128) ∧
    (∃ (b : Nat) (a : Nat), b < 128 ∧ a < 21) ∧
    (∃ (a : Nat), a < 17) ∧
    (∃ (k : Nat), k < 36) ∧
    (∃ (i : Nat), i < 9) :=
  ⟨⟨(DIM_ID_PART, 25600), (by decide +kernel)⟩,
   ⟨127, (by decide +kernel)⟩,
   ⟨127, 20, (by decide +kernel)⟩,
   ⟨16, (by decide +kernel)⟩,
   ⟨35, (by decide +kernel)⟩,
   ⟨8, (by decide +kernel)⟩⟩

/-- The hypotheses of `Obligations.ResetsAndRecovery`, clause by clause. -/
theorem witness_ResetsAndRecovery :
    (∃ (p : Nat) (s : State), s.partExists p = true ∧ (s.partOf p).resetAt = none) ∧
    (∃ (p : Nat) (s : State) (b : Nat), s.partExists p = true ∧ (s.partOf p).resetAt = none ∧ b ∈ s.partBlocks p) ∧
    (∃ (p : Nat) (s : State) (c : Nat), s.partExists p = true ∧ (s.partOf p).resetAt = none ∧ c ∈ s.partCtxs p ∧ (s.ctxOf
      c).st ≠ CtxState.quarantine ∧ (s.ctxOf c).tearing = false) ∧
    (∃ (p : Path) (part : Nat) (s : State), s.powered = true ∧ s.lid.key ≠ none ∧ (p = Path.mgmt0 ∨ p = Path.mgmt1) ∧
      s.partExists part = true) ∧
    (∃ (p : Path) (part : Nat) (s : State), s.powered = true ∧ s.lid.key ≠ none ∧ (p = Path.mgmt0 ∨ p = Path.mgmt1) ∧
      s.partExists part = false) ∧
    (∃ (part : Nat) (s : State), part < 16 ∧ s.reaches Auth.driver Path.josil RST_PART_CMD ∧ s.partExists part = true) ∧
    (∃ (part : Nat) (s : State), part < 16 ∧ s.reaches Auth.driver Path.josil RST_PART_CMD ∧ s.partExists part = false) ∧
    (∃ (part : Nat) (at_ : Nat) (s : State), s.powered = true ∧ (s.partOf part).resetAt = some at_) ∧
    (∃ (c : Nat) (s : State), s.powered = true ∧ (s.ctxOf c).st = CtxState.quarantine ∧ (s.ctxOf c).drainAt ≤ s.now) ∧
    (∃ (s : State) (part : Nat), s.powered = true ∧ s.lid.key ≠ none ∧ s.partExists part = true) ∧
    (∃ (s : State) (part : Nat), s.powered = true ∧ s.lid.key ≠ none ∧ s.partExists part = false) ∧
    (∃ (s : State) (addr : Nat), s.powered = true ∧ s.lid.key ≠ none ∧ addr < 65536 ∧ addr = s.fld RPT_GLOBAL_SELF) ∧
    (∃ (s : State) (addr : Nat), s.powered = true ∧ s.lid.key ≠ none ∧ addr < 65536 ∧ addr ≠ s.fld RPT_GLOBAL_SELF) ∧
    (∃ (s : State) (addr : Nat), s.powered = true ∧ s.lid.key ≠ none ∧ addr < 65536) ∧
    (∃ (s : State), s.powered = true ∧ s.lid.key ≠ none) ∧
    (∃ (s : State) (k : Nat), s.linkPresent k = true) ∧
    (∃ (p : Path) (s : State), s.reaches Auth.operator p RST_PEER_DATA) ∧
    (∃ (p : Path) (s : State), s.powered = true ∧ s.lid.key ≠ none ∧ (p = Path.mgmt0 ∨ p = Path.mgmt1) ∧ s.rtsAllowed = true) ∧
    (∃ (p : Path) (s : State), s.powered = true ∧ s.lid.key ≠ none ∧ (p = Path.mgmt0 ∨ p = Path.mgmt1) ∧ s.rtsAllowed = false) ∧
    (∃ (a : Auth) (p : Path) (s : State), a ≠ Auth.operator ∧ s.reaches a p HLT_RTS) ∧
    (∃ (s : State), s.powered = true ∧ s.lid.rtsRunning = true) ∧
    (∃ (s : State), s.driven = true) :=
  ⟨⟨0, devPart, (by decide +kernel)⟩,
   ⟨0, devPart, 7, (by decide +kernel)⟩,
   ⟨0, onBlock, 1, (by decide +kernel)⟩,
   ⟨.mgmt1, 0, devKey, (by decide +kernel)⟩,
   ⟨.mgmt0, 15, devKey, (by decide +kernel)⟩,
   ⟨0, devPart, (by unfold State.reaches; decide +kernel)⟩,
   ⟨0, dev, (by unfold State.reaches; decide +kernel)⟩,
   ⟨0, 5, devPart.modPart 0 (fun x => { x with resetAt := some 5 }), (by decide +kernel)⟩,
   ⟨1, locked { onBlock with ctxs := [(1, { ctxOne with st := .quarantine, drainAt := 10 ^ 9 })] }, (by decide +kernel)⟩,
   ⟨devKey, 0, (by decide +kernel)⟩,
   ⟨devKey, 15, (by decide +kernel)⟩,
   ⟨devKey, 0, (by decide +kernel)⟩,
   ⟨devKey, 65535, (by decide +kernel)⟩,
   ⟨devKey, 65535, (by decide +kernel)⟩,
   ⟨devKey, (by decide +kernel)⟩,
   ⟨dev, 35, (by decide +kernel)⟩,
   ⟨.mgmt0, dev, (by unfold State.reaches; decide +kernel)⟩,
   ⟨.mgmt0, dev.modLid (fun l => { l with key := some 1 }), (by decide +kernel)⟩,
   ⟨.mgmt1, devKey, (by decide +kernel)⟩,
   ⟨.driver, .josil, dev, (by unfold State.reaches; decide +kernel)⟩,
   ⟨dev.modLid (fun l => { l with rtsRunning := true }), (by decide +kernel)⟩,
   ⟨dev, (by decide +kernel)⟩⟩

/-- The hypotheses of `Obligations.RimFrames`, clause by clause. -/
theorem witness_RimFrames :
    (∃ (k : Nat) (s : State) (fr : Frame), s.receives k = true ∧ s.quiet ∧ s.linkState k = 5 ∧ fr.nak = false) ∧
    (∃ (k : Nat) (s : State) (fr : Frame), s.receives k = true ∧ s.quiet ∧ s.linkState k = 5 ∧ fr.nak = false ∧ fr.seq =
      (s.link k).rxNext) ∧
    (∃ (k : Nat) (s : State) (fr : Frame), s.receives k = true ∧ s.quiet ∧ s.linkState k = 5 ∧ fr.nak = false ∧ fr.seq ≠
      (s.link k).rxNext ∧ below24 (s.link k).rxNext fr.seq = true) ∧
    (∃ (k : Nat) (s : State) (fr : Frame), s.receives k = true ∧ s.quiet ∧ s.linkState k = 5 ∧ fr.nak = false ∧ fr.seq ≠
      (s.link k).rxNext ∧ below24 (s.link k).rxNext fr.seq = true ∧ (s.link k).gap = false) ∧
    (∃ (k : Nat) (s : State) (fr : Frame), s.receives k = true ∧ s.quiet ∧ s.linkState k = 5 ∧ fr.nak = false ∧ fr.seq ≠
      (s.link k).rxNext ∧ below24 (s.link k).rxNext fr.seq = false) ∧
    (∃ (k : Nat) (s : State) (fr : Frame), s.receives k = true ∧ s.quiet ∧ s.linkState k = 5 ∧ fr.nak = false ∧ below24
      (s.link k).rxNext fr.seq = true) ∧
    (∃ (k : Nat) (s : State) (fr : Frame), s.receives k = true ∧ s.quiet ∧ s.linkState k = 5 ∧ fr.nak = false ∧ below24
      (s.link k).rxNext fr.seq = false) ∧
    (∃ (k : Nat) (s : State) (fr : Frame) (f : Frame) (rest : List Frame), s.receives k = true ∧ s.quiet ∧ s.linkState k = 5 ∧
      fr.nak = true ∧ below24 (s.link k).rxNext fr.seq = false ∧ ((((s.frameIn k).modLink k fun (l : Link) =>
      { l with consec := 0 }).release k fr.ack).link k).window = f :: rest ∧ ((((s.frameIn k).modLink k fun (l : Link) =>
      { l with consec := 0 }).release k fr.ack).link k).replayAt = none ∧ ∀ (g : Frame), g ∈ f :: rest → ((((s.frameIn
      k).modLink k fun (l : Link) => { l with consec := 0 }).release k fr.ack).link k).triesOf g < s.replayLimit k) ∧
    (∃ (k : Nat) (s : State) (fr : Frame) (start : Nat) (at_ : Nat), s.receives k = true ∧ s.quiet ∧ s.linkState k = 5 ∧
      fr.nak = true ∧ below24 (s.link k).rxNext fr.seq = false ∧ ((((s.frameIn k).modLink k fun (l : Link) =>
      { l with consec := 0 }).release k fr.ack).link k).replayAt = some (start, at_) ∧ below24 start fr.ack = false ∧ s.local
      < at_ + s.nakGuard k) ∧
    (∃ (k : Nat) (s : State), s.receives k = true ∧ s.quiet ∧ s.linkState k = 10) ∧
    (∃ (k : Nat) (s : State), s.receives k = true ∧ s.quiet ∧ s.linkState k ≠ 5 ∧ s.linkState k ≠ 10) ∧
    (∃ (k : Nat) (s : State), s.receives k = true ∧ s.quiet ∧ s.linkState k ≠ 5) ∧
    (∃ (k : Nat) (s : State), s.receives k = true ∧ s.quiet) ∧
    (∃ (k : Nat) (s : State) (c : Nat), s.receives k = true ∧ s.quiet ∧ (c = 0 ∨ 4 < c) ∧ s.linkState k ≠ 10) ∧
    (∃ (k : Nat) (s : State), s.receives k = true ∧ s.quiet ∧ (s.linkState k ≠ 5 ∨ (s.link k).discarded + 1 ≤ s.fld
      (RIM_CTRL_ERR_LIMIT k))) ∧
    (∃ (k : Nat) (s : State), s.receives k = true ∧ s.quiet ∧ 64 ≤ (s.link k).consec ∧ s.linkState k ≠ 10) :=
  ⟨⟨3, rimDev 5, frameOne 0 false, (by unfold State.quiet; decide +kernel)⟩,
   ⟨3, rimDev 5, frameOne 0 false, (by unfold State.quiet; decide +kernel)⟩,
   ⟨3, rimDev 5, frameOne (2 ^ 23) false, (by unfold State.quiet; decide +kernel)⟩,
   ⟨3, rimDev 5, frameOne 1 false, (by unfold State.quiet; decide +kernel)⟩,
   ⟨3, rimDev 5, frameOne (2 ^ 23 + 1) false, (by unfold State.quiet; decide +kernel)⟩,
   ⟨3, rimDev 5, frameOne 1 false, (by unfold State.quiet; decide +kernel)⟩,
   ⟨3, rimDev 5, frameOne 0 false, (by unfold State.quiet; decide +kernel)⟩,
   ⟨3, rimWith 5 (fun l => { l with window := [frameOne 5 false], txSeq := 6 }), frameOne 0 true, frameOne 5 false, [],
     (by unfold State.quiet; decide +kernel)⟩,
   ⟨3, rimWith 5 (fun l => { l with window := [frameOne 5 false], txSeq := 6, replayAt := some (5, 0) }), frameOne 0 true, 5,
     0, (by unfold State.quiet; decide +kernel)⟩,
   ⟨3, rimDev 10, (by unfold State.quiet; decide +kernel)⟩,
   ⟨3, rimDev 6, (by unfold State.quiet; decide +kernel)⟩,
   ⟨3, rimDev 4, (by unfold State.quiet; decide +kernel)⟩,
   ⟨3, rimDev 5, (by unfold State.quiet; decide +kernel)⟩,
   ⟨3, rimDev 5, 5, (by unfold State.quiet; decide +kernel)⟩,
   ⟨3, rimDev 3, (by unfold State.quiet; decide +kernel)⟩,
   ⟨3, rimWith 5 (fun l => { l with consec := 64 }), (by unfold State.quiet; decide +kernel)⟩⟩

/-- The hypotheses of `Obligations.RimRegisters`, clause by clause. -/
theorem witness_RimRegisters :
    (∃ (p : Path) (k : Nat) (v : Word) (s : State), k < 36 ∧ s.reaches Auth.operator p (RIM_CTRL k) ∧ bitOf (BitVec.toNat v) 0
      = true) ∧
    (∃ (p : Path) (k : Nat) (v : Word) (s : State), k < 36 ∧ s.reaches Auth.operator p (RIM_CTRL k) ∧ bitOf (BitVec.toNat v) 0
      = false) ∧
    (∃ (p : Path) (k : Nat) (v : Word) (s : State), k < 36 ∧ s.reaches Auth.operator p (RIM_CTRL k) ∧ bitOf (BitVec.toNat v) 5
      = true) ∧
    (∃ (p : Path) (k : Nat) (v : Word) (s : State), k < 36 ∧ s.reaches Auth.operator p (RIM_CTRL k) ∧ bitOf (BitVec.toNat v) 6
      = true) ∧
    (∃ (p : Path) (k : Nat) (v : Word) (s : State), k < 36 ∧ s.reaches Auth.operator p (RIM_CTRL k) ∧ bitOf (BitVec.toNat v) 4
      = true) ∧
    (∃ (p : Path) (k : Nat) (s : State), k < 36 ∧ s.reaches Auth.operator p (RIM_CTRL k)) ∧
    (∃ (k : Nat) (s : State), k < 36 ∧ s.linkState k ≠ 10) ∧
    (∃ (k : Nat) (s : State), k < 36 ∧ s.linkState k ≠ 10 ∧ s.linkState k ≠ 0) ∧
    (∃ (a : Auth) (p : Path) (k : Nat) (s : State), a ≠ Auth.operator ∧ a ≠ Auth.firmware ∧ s.reaches a p (RIM_CTRL k) ∧ k <
      36) ∧
    (∃ (a : Auth) (p : Path) (k : Nat) (v : Word) (s : State), s.reaches a p (RIM_WIRE k) ∧ (s.store a p (RIM_WIRE k)
      v).linkState k = 4 ∧ ((s.store a p (RIM_WIRE k) v).link k).wire = none ∧ ((s.store a p (RIM_WIRE k) v).wireEntry
      k).isSome = true) ∧
    (∃ (a : Auth) (p : Path) (k : Nat) (v : Word) (s : State), s.reaches a p (RIM_WIRE k) ∧ ((s.store a p (RIM_WIRE k)
      v).linkState k ≠ 4 ∨ ((s.store a p (RIM_WIRE k) v).link k).wire ≠ none ∨ (s.store a p (RIM_WIRE k) v).wireEntry k =
      none)) :=
  ⟨⟨.mgmt0, 35, 1, dev, (by unfold State.reaches; decide +kernel)⟩,
   ⟨.mgmt0, 35, 0, dev, (by unfold State.reaches; decide +kernel)⟩,
   ⟨.mgmt0, 3, 32, rimDev 5, (by unfold State.reaches; decide +kernel)⟩,
   ⟨.mgmt0, 3, 64, rimDev 5, (by unfold State.reaches; decide +kernel)⟩,
   ⟨.mgmt0, 3, 16, rimDev 5, (by unfold State.reaches; decide +kernel)⟩,
   ⟨.mgmt1, 0, dev, (by unfold State.reaches; decide +kernel)⟩,
   ⟨3, rimDev 0, (by decide +kernel)⟩,
   ⟨3, rimDev 5, (by decide +kernel)⟩,
   ⟨.driver, .josil, 35, dev, (by unfold State.reaches; decide +kernel)⟩,
   ⟨.operator, .mgmt0, 3, BitVec.ofNat 64 (2 ^ 63 + 5), rimDev 4, (by unfold State.reaches; decide +kernel)⟩,
   ⟨.operator, .mgmt0, 3, BitVec.ofNat 64 (2 ^ 63 + 5), rimDev 5, (by unfold State.reaches; decide +kernel)⟩⟩

/-- The hypotheses of `Obligations.RimTimersAndSlots`, clause by clause. -/
theorem witness_RimTimersAndSlots :
    (∃ (k : Nat) (s : State), s.powered = true ∧ s.linkPresent k = true ∧ s.linkState k = 5 ∧ (s.link k).window ≠ []) ∧
    (∃ (k : Nat) (s : State) (f : Frame) (rest : List Frame), s.powered = true ∧ s.linkPresent k = true ∧ s.linkState k = 5 ∧
      (s.link k).window = f :: rest ∧ ∀ (g : Frame), g ∈ f :: rest → (s.link k).triesOf g < s.replayLimit k) ∧
    (∃ (k : Nat) (s : State) (f : Frame) (rest : List Frame), s.powered = true ∧ s.linkPresent k = true ∧ s.linkState k = 5 ∧
      (s.link k).window = f :: rest ∧ ∃ (g : Frame), g ∈ f :: rest ∧ s.replayLimit k ≤ (s.link k).triesOf g) ∧
    (∃ (k : Nat) (s : State), s.powered = true ∧ s.linkPresent k = true ∧ s.linkState k = 5) ∧
    (∃ (k : Nat) (s : State) (c : Ctrl), s.powered = true ∧ s.linkPresent k = true ∧ s.linkState k = 5 ∧ s.flag (RIM_CTRL_EN
      k) = true ∧ 63 ≤ (s.link k).sinceCtrl ∧ firstCtrl (s.link k).ctrl = some c) ∧
    (∃ (k : Nat) (s : State) (f : Frame) (rest : List Frame), s.powered = true ∧ s.linkPresent k = true ∧ s.linkState k = 5 ∧
      s.flag (RIM_CTRL_EN k) = true ∧ ((s.link k).sinceCtrl < 63 ∨ (s.link k).ctrl = []) ∧ (s.link k).replay = f :: rest) ∧
    (∃ (k : Nat) (s : State), s.powered = true ∧ s.linkPresent k = true ∧ s.linkState k = 5 ∧ s.flag (RIM_CTRL_EN k) = true ∧
      ((s.link k).sinceCtrl < 63 ∨ (s.link k).ctrl = []) ∧ (s.link k).replay = [] ∧ ((s.link k).windowSize ≤ (s.link
      k).window.length ∨ ((s.modLink k fun (l : Link) => { l with sinceCtrl := Nat.min 64 (l.sinceCtrl + 1) }).nextPackets
      k).fst = [])) ∧
    (∃ (k : Nat) (s : State) (qs : List QPkt) (s2 : State), s.powered = true ∧ s.linkPresent k = true ∧ s.linkState k = 5 ∧
      s.flag (RIM_CTRL_EN k) = true ∧ ((s.link k).sinceCtrl < 63 ∨ (s.link k).ctrl = []) ∧ (s.link k).replay = [] ∧ (s.link
      k).window.length < (s.link k).windowSize ∧ (s.modLink k fun (l : Link) =>
      { l with sinceCtrl := Nat.min 64 (l.sinceCtrl + 1) }).nextPackets k = (qs, s2) ∧ qs ≠ []) ∧
    (∃ (k : Nat) (s : State), s.powered = true ∧ s.linkPresent k = true ∧ s.linkState k = 5 ∧ 0 < (s.link k).owed) ∧
    (∃ (k : Nat) (s : State) (pk : Pkt) (e : Pkt × Nat) (s1 : State), s.powered = true ∧ s.linkPresent k = true ∧ s.linkState
      k = 5 ∧ pk.ptype = 3 ∧ s.takeIngress k pk = (some e, s1) ∧ s.ptb.flag PTB_CTRL_EN = false) :=
  ⟨⟨3, rimWith 5 (fun l => { l with window := [frameOne 5 false] }), (by decide +kernel)⟩,
   ⟨3, rimWith 5 (fun l => { l with window := [frameOne 5 false] }), frameOne 5 false, [], (by decide +kernel)⟩,
   ⟨3, rimWith 5 (fun l => { l with window := [frameOne 5 false], tries := [(5, 256)] }), frameOne 5 false, [],
     (by decide +kernel), (by decide +kernel), (by decide +kernel), (by decide +kernel), (⟨frameOne 5 false, by
     decide +kernel⟩)⟩,
   ⟨3, rimDev 5, (by decide +kernel)⟩,
   ⟨3, rimWith 5 (fun l => { l with sinceCtrl := 63, ctrl := [.probe, .beacon] }), .beacon, (by decide +kernel)⟩,
   ⟨3, rimWith 5 (fun l => { l with replay := [frameOne 5 false], sinceCtrl := 64 }), frameOne 5 false, [],
     (by decide +kernel)⟩,
   ⟨3, rimDev 5, (by decide +kernel)⟩,
   ⟨3, creditDev, [⟨pktOne 8 0 0, 0, none, none, false⟩], ((creditDev.modLink 3 fun (l : Link) =>
     { l with sinceCtrl := Nat.min 64 (l.sinceCtrl + 1) }).nextPackets 3).2, (by decide +kernel), (by decide +kernel),
     (by decide +kernel), (by decide +kernel), (by decide +kernel), (by decide +kernel), (by decide +kernel), (pair_eq
     (by decide +kernel)), (by decide +kernel)⟩,
   ⟨3, rimWith 5 (fun l => { l with owed := 1 }), (by decide +kernel)⟩,
   ⟨3, rimWith 5 (fun l => { l with ingress := [(pktOne 3 256 7, 7)] }), pktOne 3 256 7, (pktOne 3 256 7, 7), ((rimWith 5 (fun
     l => { l with ingress := [(pktOne 3 256 7, 7)] })).takeIngress 3 (pktOne 3 256 7)).2, (by decide +kernel),
     (by decide +kernel), (by decide +kernel), (by decide +kernel), (pair_eq (by decide +kernel)), (by decide +kernel)⟩⟩

/-- The hypotheses of `Obligations.RimTrainingAndMessages`, clause by clause. -/
theorem witness_RimTrainingAndMessages :
    (∃ (k : Nat) (s : State), s.powered = true ∧ s.linkPresent k = true ∧ s.linkState k ∈ [3, 4, 5, 6, 7, 9]) ∧
    (∃ (k : Nat) (s : State), s.powered = true ∧ s.linkPresent k = true ∧ s.linkState k = 4 ∧ (s.link k).probes < 64) ∧
    (∃ (k : Nat) (s : State), s.powered = true ∧ s.linkPresent k = true ∧ s.linkState k = 5) ∧
    (∃ (k : Nat) (s : State), s.powered = true ∧ s.linkPresent k = true) ∧
    (∃ (k : Nat) (s : State) (c : Ctrl) (d : Ctrl), s.powered = true ∧ s.linkPresent k = true ∧ d ≠ c) ∧
    (∃ (k : Nat) (s : State), s.receives k = true ∧ s.quiet ∧ s.linkState k = 10) ∧
    (∃ (k : Nat) (hd : CtrlHdr) (s : State), s.receives k = true ∧ s.quiet ∧ ((((s.frameIn k).modLink k fun (l : Link) =>
      { l with consec := 0 }).rxAck k hd.ack hd.nak).linkState k = 4 ∨ (((s.frameIn k).modLink k fun (l : Link) =>
      { l with consec := 0 }).rxAck k hd.ack hd.nak).linkState k = 5)) ∧
    (∃ (k : Nat) (hd : CtrlHdr) (s : State), s.receives k = true ∧ s.quiet ∧ (((s.frameIn k).modLink k fun (l : Link) =>
      { l with consec := 0 }).rxAck k hd.ack hd.nak).linkState k = 4 ∧ (s.link k).rttDone = false) ∧
    (∃ (k : Nat) (hd : CtrlHdr) (s : State) (hops : Nat) (locked : Bool) (epoch : Nat), s.receives k = true ∧ s.quiet ∧
      (((s.frameIn k).modLink k fun (l : Link) => { l with consec := 0 }).rxAck k hd.ack hd.nak).linkState k = 5 ∧ s.fld
      FTU_EPOCH_EPOCH_ID ≠ 0 ∧ epoch = s.fld FTU_EPOCH_EPOCH_ID ∧ locked = true ∧ hops < 15) ∧
    (∃ (k : Nat) (hd : CtrlHdr) (s : State) (hops : Nat) (locked : Bool) (epoch : Nat), s.receives k = true ∧ s.quiet ∧
      (((s.frameIn k).modLink k fun (l : Link) => { l with consec := 0 }).rxAck k hd.ack hd.nak).linkState k = 5 ∧ ¬(s.fld
      FTU_EPOCH_EPOCH_ID ≠ 0 ∧ epoch = s.fld FTU_EPOCH_EPOCH_ID ∧ locked = true ∧ hops < 15)) ∧
    (∃ (k : Nat) (hd : CtrlHdr) (s : State), s.receives k = true ∧ s.quiet ∧ (((s.frameIn k).modLink k fun (l : Link) =>
      { l with consec := 0 }).rxAck k hd.ack hd.nak).linkState k < 3) ∧
    (∃ (k : Nat) (hd : CtrlHdr) (s : State), s.receives k = true ∧ s.quiet ∧ s.linkState k ≠ 10 ∧ 3 ≤ (((s.frameIn k).modLink
      k fun (l : Link) => { l with consec := 0 }).rxAck k hd.ack hd.nak).linkState k) :=
  ⟨⟨3, rimDev 9, (by decide +kernel)⟩,
   ⟨3, rimWith 4 (fun l => { l with probes := 63 }), (by decide +kernel)⟩,
   ⟨3, rimDev 5, (by decide +kernel)⟩,
   ⟨3, rimDev 5, (by decide +kernel)⟩,
   ⟨3, rimDev 5, .beacon, .probe, (by decide +kernel)⟩,
   ⟨3, rimDev 10, (by unfold State.quiet; decide +kernel)⟩,
   ⟨3, ⟨0, false⟩, rimDev 4, (by decide +kernel), (by unfold State.quiet; decide +kernel), (Or.inl ((acked_linkState _ 3
     0).trans (by decide +kernel)))⟩,
   ⟨3, ⟨0, false⟩, rimDev 4, (by decide +kernel), (by unfold State.quiet; decide +kernel), ((acked_linkState _ 3 0).trans
     (by decide +kernel)), (by decide +kernel)⟩,
   ⟨3, ⟨0, false⟩, (rimDev 5).setFld FTU_EPOCH_EPOCH_ID 7, 14, true, 7, (by decide +kernel),
     (by unfold State.quiet; decide +kernel), ((acked_linkState _ 3 0).trans (by decide +kernel)), (by decide +kernel),
     (by decide +kernel), (by decide +kernel), (by decide +kernel)⟩,
   ⟨3, ⟨0, false⟩, (rimDev 5).setFld FTU_EPOCH_EPOCH_ID 7, 15, true, 7, (by decide +kernel),
     (by unfold State.quiet; decide +kernel), ((acked_linkState _ 3 0).trans (by decide +kernel)), (by decide +kernel)⟩,
   ⟨3, ⟨0, false⟩, rimDev 2, (by decide +kernel), (by unfold State.quiet; decide +kernel), (lt_of_eq_of_lt (acked_linkState _
     3 0) (by decide +kernel))⟩,
   ⟨3, ⟨0, false⟩, rimDev 3, (by decide +kernel), (by unfold State.quiet; decide +kernel), (by decide +kernel),
     (le_of_le_of_eq (by decide +kernel) (acked_linkState _ 3 0).symm)⟩⟩
/-- The hypotheses of `Obligations.RimTrainingAndMessages`, clause by clause. -/
theorem witness_RimTrainingAndMessages_from_clause_13 :
    (∃ (k : Nat) (s : State), k < 36 ∧ s.powered = true ∧ s.linkPresent k = true ∧ s.linkState k = 0 ∧ s.flag (RIM_CTRL_EN k)
      = true) ∧
    (∃ (k : Nat) (s : State), k < 36 ∧ s.powered = true ∧ s.linkPresent k = true ∧ s.linkState k = 1) ∧
    (∃ (k : Nat) (s : State), k < 36 ∧ s.powered = true ∧ s.linkPresent k = true ∧ s.linkState k = 8) ∧
    (∃ (k : Nat) (s : State), k < 36 ∧ s.powered = true ∧ s.linkPresent k = true ∧ s.linkState k = 2) ∧
    (∃ (k : Nat) (s : State), k < 36 ∧ s.powered = true ∧ s.linkPresent k = true ∧ s.linkState k = 3) ∧
    (∃ (k : Nat) (s : State), k < 36 ∧ s.powered = true ∧ s.linkPresent k = true ∧ s.linkState k = 4 ∧ (s.link k).rttDone =
      false ∧ (s.link k).replies < 16) ∧
    (∃ (k : Nat) (s : State), k < 36 ∧ s.powered = true ∧ s.linkPresent k = true ∧ s.linkState k = 4 ∧ (s.link k).rttDone =
      false ∧ 16 ≤ (s.link k).replies) ∧
    (∃ (k : Nat) (s : State), k < 36 ∧ s.powered = true ∧ s.linkPresent k = true ∧ s.linkState k = 4 ∧ s.flag
      (RIM_STATUS_CHECKED k) = true) ∧
    (∃ (k : Nat) (s : State), k < 36 ∧ s.powered = true ∧ s.linkPresent k = true ∧ s.linkState k ∈ [1, 2, 3, 4, 5, 6, 7, 9]) ∧
    (∃ (k : Nat) (s : State), k < 36 ∧ s.powered = true ∧ s.linkPresent k = true ∧ s.linkState k ≠ 5) :=
  ⟨⟨3, rimDev 0, (by decide +kernel)⟩,
   ⟨3, rimDev 1, (by decide +kernel)⟩,
   ⟨3, rimDev 8, (by decide +kernel)⟩,
   ⟨3, rimDev 2, (by decide +kernel)⟩,
   ⟨3, rimDev 3, (by decide +kernel)⟩,
   ⟨3, rimWith 4 (fun l => { l with replies := 15 }), (by decide +kernel)⟩,
   ⟨3, rimWith 4 (fun l => { l with replies := 16 }), (by decide +kernel)⟩,
   ⟨3, (rimDev 4).setFlag (RIM_STATUS_CHECKED 3) true, (by decide +kernel)⟩,
   ⟨3, rimDev 7, (by decide +kernel)⟩,
   ⟨3, rimDev 3, (by decide +kernel)⟩⟩

/-- The hypotheses of `Obligations.ScalarFloatingPoint`, clause by clause. -/
theorem witness_ScalarFloatingPoint :
    (∃ (p : (Nat → Bool → Word → Instr) × (Fmt → Nat → Nat → Nat → Nat)) (b : Nat) (f : Bool) (w : Word) (s : State), p ∈
      [(Instr.fadd, fun (k : Fmt) (x y x_1 : Nat) => k.encode ((k.decode x).add (k.decode y))), (Instr.fsub, fun (k : Fmt) (x
      y x_1 : Nat) => k.encode ((k.decode x).add (k.decode y).neg)), (Instr.fmul, fun (k : Fmt) (x y x_1 : Nat) => k.encode
      ((k.decode x).mul (k.decode y))), (Instr.fdiv, fun (k : Fmt) (x y x_1 : Nat) => k.div (k.decode x) (k.decode y)),
      (Instr.fsqrt, fun (k : Fmt) (x x_1 x_2 : Nat) => k.sqrt (k.decode x)), (Instr.fmin, fun (k : Fmt) (x y x_1 : Nat) =>
      k.encode ((k.decode x).minimum (k.decode y))), (Instr.fmax, fun (k : Fmt) (x y x_1 : Nat) => k.encode ((k.decode
      x).maximum (k.decode y))), (Instr.fma, fun (k : Fmt) (x y z : Nat) => k.encode ((k.decode x).fma (k.decode y) (k.decode
      z))), (Instr.fcmpEq, fun (k : Fmt) (x y x_1 : Nat) => b2n ((k.decode x).eq (k.decode y))), (Instr.fcmpLt, fun (k : Fmt)
      (x y x_1 : Nat) => b2n ((k.decode x).lt (k.decode y))), (Instr.fcmpLe, fun (k : Fmt) (x y x_1 : Nat) => b2n ((k.decode
      x).lt (k.decode y) || (k.decode x).eq (k.decode y))), (Instr.fcvtI, fun (k : Fmt) (x x_1 x_2 : Nat) => FVal.toInt 64
      (k.decode x))] ∧ s.issues b f ∧ wBits w 36 1 = 0) ∧
    (∃ (b : Nat) (f : Bool) (w : Word) (s : State), s.issues b f ∧ wBits w 36 1 = 0) :=
  ⟨⟨(Instr.fadd, fun k x y _ => k.encode ((k.decode x).add (k.decode y))), 0, false, 0x0C00886000000001, onBlock, (List.Mem.head
  _), (by unfold State.issues State.quiet; decide +kernel), (by decide +kernel)⟩,
   ⟨0, true, 0x0C00886000000000, onFill, (by unfold State.issues State.quiet; decide +kernel)⟩⟩

/-- The hypotheses of `Obligations.ScalarFrame`, clause by clause. -/
theorem witness_ScalarFrame :
    (∃ (c : Nat → Bool → Word → Instr) (b : Nat) (f : Bool) (s : State), c ∈ [Instr.add, Instr.sub, Instr.and, Instr.or,
      Instr.xor, Instr.sll, Instr.srl, Instr.sra, Instr.slt, Instr.sltu, Instr.mul, Instr.mulh, Instr.mulhu, Instr.div,
      Instr.divu, Instr.rem, Instr.remu, Instr.min, Instr.max, Instr.minu, Instr.maxu, Instr.clz, Instr.ctz, Instr.popc,
      Instr.addi, Instr.andi, Instr.ori, Instr.xori, Instr.slli, Instr.srli, Instr.srai, Instr.slti, Instr.sltiu, Instr.movi,
      Instr.movhi, Instr.fadd, Instr.fsub, Instr.fmul, Instr.fdiv, Instr.fsqrt, Instr.fmin, Instr.fmax, Instr.fma,
      Instr.fcmpEq, Instr.fcmpLt, Instr.fcmpLe, Instr.fcvtI, Instr.fcvtF, Instr.fcvtP, Instr.ldlB, Instr.ldlBu, Instr.ldlH,
      Instr.ldlHu, Instr.ldlW, Instr.ldlWu, Instr.ldlD, Instr.beq, Instr.bne, Instr.blt, Instr.bge, Instr.bltu, Instr.bgeu,
      Instr.jal, Instr.jalr, Instr.tkst, Instr.ftnow, Instr.ftstat, Instr.fence, Instr.csrr, Instr.nop] ∧ s.issues b f) :=
  ⟨Instr.add, 0, false, onBlock, (List.Mem.head _), (by unfold State.issues State.quiet; decide +kernel)⟩

/-- The hypotheses of `Obligations.SchedulerChoices`, clause by clause. -/
theorem witness_SchedulerChoices :
    (∃ (l : List Nat) (free : List Nat) (s : State) (c : Nat), c ∈ s.keep l free) ∧
    (∃ (l : List Nat) (free : List Nat) (s : State) (c : Nat) (g : Nat), c ∈ s.keep l free ∧ g ∈ s.homeGroups c) ∧
    (∃ (p : Nat) (s : State), s.powered = true ∧ s.partExists p = true) ∧
    (∃ (p : Nat) (c : Nat) (s : State), s.longestBlocked p = some c) ∧
    (∃ (c : Nat) (s : State), s.isBlocked c = true) ∧
    (∃ (c : Nat) (s : State), s.powered = true ∧ s.isBlocked c = true) ∧
    (∃ (c : Nat) (s : State), s.powered = true ∧ (s.settle c).admitted c = true ∧ ((s.settle c).ctxOf c).debt ≠ 0 ∧ 16 ≤
      ((s.settle c).ctxOf c).debtAge) :=
  ⟨⟨[1], [0, 1], onBlock, 1, (by decide +kernel)⟩,
   ⟨[1], [0], onBlock, 1, 0, (by decide +kernel)⟩,
   ⟨0, devPart, (by decide +kernel)⟩,
   ⟨0, 1, blockedDev, (by decide +kernel)⟩,
   ⟨1, blockedDev, (by decide +kernel)⟩,
   ⟨1, blockedDev, (by decide +kernel)⟩,
   ⟨1, { devPart with ctxs := [(1, { ctxOne with debt := 5, debtAge := 16 })] }, (by decide +kernel)⟩⟩

/-- The hypotheses of `Obligations.SchedulerCommandsAndTables`, clause by clause. -/
theorem witness_SchedulerCommandsAndTables :
    (∃ (r : (Auth → Path → Word → Instr) × Auth × Nat × (State → Nat → Nat → Nat → Option State)) (a : Auth) (p : Path) (v :
      Word) (s : State) (t : State), r ∈ [(Instr.makePart, Auth.operator, 1, fun (s : State) (p x x_1 : Nat) => s.makePart p),
      (Instr.freePart, Auth.operator, 2, fun (s : State) (p x x_1 : Nat) => s.freePart p), (Instr.admitCtx, Auth.driver, 3,
      fun (s : State) (x x_1 c : Nat) => s.admitCtx c), (Instr.release, Auth.driver, 4, fun (s : State) (x x_1 c : Nat) =>
      some (if s.admitted c = true then s.teardown c else s)), (Instr.bindQ, Auth.driver, 5, fun (s : State) (x q x_1 : Nat)
      => s.bindQ q), (Instr.unbindQ, Auth.driver, 6, fun (s : State) (x q x_1 : Nat) => s.unbindQ q), (Instr.stopQ,
      Auth.driver, 7, fun (s : State) (x q x_1 : Nat) => s.runQ q QState.stopped), (Instr.startQ, Auth.driver, 8, fun (s :
      State) (x q x_1 : Nat) => s.runQ q QState.run)] ∧ s.reaches a p SCH_CMD ∧ bitOf (BitVec.toNat v) 62 = true ∧ bits
      (BitVec.toNat v) 57 54 = r.snd.snd.fst ∧ (s.store a p SCH_CMD v).flag SCH_CMD_DONE = true ∧ (s.store a p SCH_CMD
      v).schWaits {
        off := SCH_CMD, auth := a, path := p, old := s.reg SCH_CMD,
        new := BitVec.ofNat 64 (BitVec.toNat ((s.store a p SCH_CMD v).reg SCH_CMD) ||| 2 ^ 62) } = false ∧ a = r.snd.fst ∧
        r.snd.snd.snd ((((s.store a p SCH_CMD v).setFlag SCH_CMD_DONE true).checkHbmRead ((s.store a p SCH_CMD v).schRecord
        (BitVec.ofNat 64 (BitVec.toNat ((s.store a p SCH_CMD v).reg SCH_CMD) ||| 2 ^ 62))).fst ((s.store a p SCH_CMD
        v).schRecord (BitVec.ofNat 64 (BitVec.toNat ((s.store a p SCH_CMD v).reg SCH_CMD) ||| 2 ^ 62))).snd).commandRecord a p
        SCH_CMD (s.reg SCH_CMD) (BitVec.ofNat 64 (BitVec.toNat ((s.store a p SCH_CMD v).reg SCH_CMD) ||| 2 ^ 62))) (schField
        (BitVec.ofNat 64 (BitVec.toNat ((s.store a p SCH_CMD v).reg SCH_CMD) ||| 2 ^ 62)) SCH_CMD_PART) (schField
        (BitVec.ofNat 64 (BitVec.toNat ((s.store a p SCH_CMD v).reg SCH_CMD) ||| 2 ^ 62)) SCH_CMD_QUEUE) (schField
        (BitVec.ofNat 64 (BitVec.toNat ((s.store a p SCH_CMD v).reg SCH_CMD) ||| 2 ^ 62)) SCH_CMD_CONTEXT) = some t) ∧
    (∃ (r : (Auth → Path → Word → Instr) × Auth × Nat × (State → Nat → Nat → Nat → Option State)) (a : Auth) (p : Path) (v :
      Word) (s : State), r ∈ [(Instr.makePart, Auth.operator, 1, fun (s : State) (p x x_1 : Nat) => s.makePart p),
      (Instr.freePart, Auth.operator, 2, fun (s : State) (p x x_1 : Nat) => s.freePart p), (Instr.admitCtx, Auth.driver, 3,
      fun (s : State) (x x_1 c : Nat) => s.admitCtx c), (Instr.release, Auth.driver, 4, fun (s : State) (x x_1 c : Nat) =>
      some (if s.admitted c = true then s.teardown c else s)), (Instr.bindQ, Auth.driver, 5, fun (s : State) (x q x_1 : Nat)
      => s.bindQ q), (Instr.unbindQ, Auth.driver, 6, fun (s : State) (x q x_1 : Nat) => s.unbindQ q), (Instr.stopQ,
      Auth.driver, 7, fun (s : State) (x q x_1 : Nat) => s.runQ q QState.stopped), (Instr.startQ, Auth.driver, 8, fun (s :
      State) (x q x_1 : Nat) => s.runQ q QState.run)] ∧ s.reaches a p SCH_CMD ∧ bitOf (BitVec.toNat v) 62 = true ∧ bits
      (BitVec.toNat v) 57 54 = r.snd.snd.fst ∧ (s.store a p SCH_CMD v).flag SCH_CMD_DONE = true ∧ (s.store a p SCH_CMD
      v).schWaits {
        off := SCH_CMD, auth := a, path := p, old := s.reg SCH_CMD,
        new := BitVec.ofNat 64 (BitVec.toNat ((s.store a p SCH_CMD v).reg SCH_CMD) ||| 2 ^ 62) } = false ∧ (a ≠ r.snd.fst ∨
        r.snd.snd.snd ((((s.store a p SCH_CMD v).setFlag SCH_CMD_DONE true).checkHbmRead ((s.store a p SCH_CMD v).schRecord
        (BitVec.ofNat 64 (BitVec.toNat ((s.store a p SCH_CMD v).reg SCH_CMD) ||| 2 ^ 62))).fst ((s.store a p SCH_CMD
        v).schRecord (BitVec.ofNat 64 (BitVec.toNat ((s.store a p SCH_CMD v).reg SCH_CMD) ||| 2 ^ 62))).snd).commandRecord a p
        SCH_CMD (s.reg SCH_CMD) (BitVec.ofNat 64 (BitVec.toNat ((s.store a p SCH_CMD v).reg SCH_CMD) ||| 2 ^ 62))) (schField
        (BitVec.ofNat 64 (BitVec.toNat ((s.store a p SCH_CMD v).reg SCH_CMD) ||| 2 ^ 62)) SCH_CMD_PART) (schField
        (BitVec.ofNat 64 (BitVec.toNat ((s.store a p SCH_CMD v).reg SCH_CMD) ||| 2 ^ 62)) SCH_CMD_QUEUE) (schField
        (BitVec.ofNat 64 (BitVec.toNat ((s.store a p SCH_CMD v).reg SCH_CMD) ||| 2 ^ 62)) SCH_CMD_CONTEXT) = none)) ∧
    (∃ (r : (Auth → Path → Word → Instr) × Auth × Nat × (State → Nat → Nat → Nat → Option State)) (a : Auth) (p : Path) (v :
      Word) (s : State), r ∈ [(Instr.makePart, Auth.operator, 1, fun (s : State) (p x x_1 : Nat) => s.makePart p),
      (Instr.freePart, Auth.operator, 2, fun (s : State) (p x x_1 : Nat) => s.freePart p), (Instr.admitCtx, Auth.driver, 3,
      fun (s : State) (x x_1 c : Nat) => s.admitCtx c), (Instr.release, Auth.driver, 4, fun (s : State) (x x_1 c : Nat) =>
      some (if s.admitted c = true then s.teardown c else s)), (Instr.bindQ, Auth.driver, 5, fun (s : State) (x q x_1 : Nat)
      => s.bindQ q), (Instr.unbindQ, Auth.driver, 6, fun (s : State) (x q x_1 : Nat) => s.unbindQ q), (Instr.stopQ,
      Auth.driver, 7, fun (s : State) (x q x_1 : Nat) => s.runQ q QState.stopped), (Instr.startQ, Auth.driver, 8, fun (s :
      State) (x q x_1 : Nat) => s.runQ q QState.run)] ∧ s.reaches a p SCH_CMD ∧ bitOf (BitVec.toNat v) 62 = true ∧ bits
      (BitVec.toNat v) 57 54 = r.snd.snd.fst ∧ (s.store a p SCH_CMD v).flag SCH_CMD_DONE = true ∧ (s.store a p SCH_CMD
      v).schWaits {
        off := SCH_CMD, auth := a, path := p, old := s.reg SCH_CMD,
        new := BitVec.ofNat 64 (BitVec.toNat ((s.store a p SCH_CMD v).reg SCH_CMD) ||| 2 ^ 62) } = true) ∧
    (∃ (r : (Auth → Path → Word → Instr) × Auth × Nat × (State → Nat → Nat → Nat → Option State)) (a : Auth) (p : Path) (v :
      Word) (s : State), r ∈ [(Instr.makePart, Auth.operator, 1, fun (s : State) (p x x_1 : Nat) => s.makePart p),
      (Instr.freePart, Auth.operator, 2, fun (s : State) (p x x_1 : Nat) => s.freePart p), (Instr.admitCtx, Auth.driver, 3,
      fun (s : State) (x x_1 c : Nat) => s.admitCtx c), (Instr.release, Auth.driver, 4, fun (s : State) (x x_1 c : Nat) =>
      some (if s.admitted c = true then s.teardown c else s)), (Instr.bindQ, Auth.driver, 5, fun (s : State) (x q x_1 : Nat)
      => s.bindQ q), (Instr.unbindQ, Auth.driver, 6, fun (s : State) (x q x_1 : Nat) => s.unbindQ q), (Instr.stopQ,
      Auth.driver, 7, fun (s : State) (x q x_1 : Nat) => s.runQ q QState.stopped), (Instr.startQ, Auth.driver, 8, fun (s :
      State) (x q x_1 : Nat) => s.runQ q QState.run)] ∧ s.reaches a p SCH_CMD ∧ bitOf (BitVec.toNat v) 62 = true ∧ bits
      (BitVec.toNat v) 57 54 = r.snd.snd.fst ∧ (s.store a p SCH_CMD v).flag SCH_CMD_DONE = false) ∧
    (∃ (p : Nat), p < 16) ∧
    (∃ (s : State) (p : Nat) (t : State), p < 16 ∧ s.makePart p = some t) ∧
    (∃ (s : State) (p : Nat) (t : State) (q : Nat), p < 16 ∧ s.makePart p = some t ∧ q ≠ p) ∧
    (∃ (s : State) (p : Nat) (t : State), s.freePart p = some t) ∧
    (∃ (s : State) (p : Nat) (t : State) (q : Nat), s.freePart p = some t ∧ q ≠ p) ∧
    (∃ (s : State) (c : Nat) (t : State), s.admitCtx c = some t) ∧
    (∃ (s : State) (q : Nat) (t : State), s.bindQ q = some t) ∧
    (∃ (s : State) (q : Nat) (t : State), s.unbindQ q = some t) ∧
    (∃ (s : State) (q : Nat) (st : QState) (t : State), s.runQ q st = some t ∧ (s.queueOf q).st ≠ QState.unbound) :=
  ⟨⟨(Instr.unbindQ, Auth.driver, 6, fun (s : State) (x q x_1 : Nat) => s.unbindQ q), .driver, .josil, BitVec.ofNat 64 (2 ^ 62 + 6
  * 2 ^ 54), dev, (((Instr.unbindQ, Auth.driver, 6, fun (s : State) (x q x_1 : Nat) => s.unbindQ q)).snd.snd.snd ((((dev.store
  .driver .josil SCH_CMD (BitVec.ofNat 64 (2 ^ 62 + 6 * 2 ^ 54))).setFlag SCH_CMD_DONE true).checkHbmRead ((dev.store .driver
  .josil SCH_CMD (BitVec.ofNat 64 (2 ^ 62 + 6 * 2 ^ 54))).schRecord (BitVec.ofNat 64 (BitVec.toNat ((dev.store .driver .josil
  SCH_CMD (BitVec.ofNat 64 (2 ^ 62 + 6 * 2 ^ 54))).reg SCH_CMD) ||| 2 ^ 62))).fst ((dev.store .driver .josil SCH_CMD
  (BitVec.ofNat 64 (2 ^ 62 + 6 * 2 ^ 54))).schRecord (BitVec.ofNat 64 (BitVec.toNat ((dev.store .driver .josil SCH_CMD
  (BitVec.ofNat 64 (2 ^ 62 + 6 * 2 ^ 54))).reg SCH_CMD) ||| 2 ^ 62))).snd).commandRecord .driver .josil SCH_CMD (dev.reg
  SCH_CMD) (BitVec.ofNat 64 (BitVec.toNat ((dev.store .driver .josil SCH_CMD (BitVec.ofNat 64 (2 ^ 62 + 6 * 2 ^ 54))).reg
  SCH_CMD) ||| 2 ^ 62))) (schField (BitVec.ofNat 64 (BitVec.toNat ((dev.store .driver .josil SCH_CMD (BitVec.ofNat 64 (2 ^ 62
  + 6 * 2 ^ 54))).reg SCH_CMD) ||| 2 ^ 62)) SCH_CMD_PART) (schField (BitVec.ofNat 64 (BitVec.toNat ((dev.store .driver .josil
  SCH_CMD (BitVec.ofNat 64 (2 ^ 62 + 6 * 2 ^ 54))).reg SCH_CMD) ||| 2 ^ 62)) SCH_CMD_QUEUE) (schField (BitVec.ofNat 64
  (BitVec.toNat ((dev.store .driver .josil SCH_CMD (BitVec.ofNat 64 (2 ^ 62 + 6 * 2 ^ 54))).reg SCH_CMD) ||| 2 ^ 62))
  SCH_CMD_CONTEXT)).get (by decide +kernel), (by repeat (first | exact List.Mem.head _ | apply List.Mem.tail)),
  (by unfold State.reaches; decide +kernel), (by decide +kernel), (by decide +kernel), (by decide +kernel),
  (by decide +kernel), (by decide +kernel), (Option.some_get _).symm⟩,
   ⟨(Instr.makePart, Auth.operator, 1, fun (s : State) (p x x_1 : Nat) => s.makePart p), .tenant, .internal, BitVec.ofNat 64
     (2 ^ 62 + 1 * 2 ^ 54), dev, (by repeat (first | exact List.Mem.head _ | apply List.Mem.tail)),
     (by unfold State.reaches; decide +kernel), (by decide +kernel), (by decide +kernel), (by decide +kernel),
     (by decide +kernel), (Or.inl (by decide))⟩,
   ⟨(Instr.bindQ, Auth.driver, 5, fun (s : State) (x q x_1 : Nat) => s.bindQ q), .driver, .josil, BitVec.ofNat 64 (2 ^ 62 + 5
     * 2 ^ 54), testing 0 dev, (by repeat (first | exact List.Mem.head _ | apply List.Mem.tail)),
     (by unfold State.reaches; decide +kernel), (by decide +kernel), (by decide +kernel), (by decide +kernel),
     (by decide +kernel)⟩,
   ⟨(Instr.makePart, Auth.operator, 1, fun (s : State) (p x x_1 : Nat) => s.makePart p), .operator, .mgmt0, BitVec.ofNat 64 (2
     ^ 62 + 1 * 2 ^ 54), dev.setFlag SCH_CMD_DONE false, (by repeat (first | exact List.Mem.head _ | apply List.Mem.tail)),
     (by unfold State.reaches; decide +kernel), (by decide +kernel), (by decide +kernel), (by decide +kernel)⟩,
   ⟨15, (by decide +kernel)⟩,
   ⟨(devPart.setFlag (SCH_PART_CTRL_VALID 0) false).setFld DIM_UNITS_PARTITIONS_MAX 1, 0, (((devPart.setFlag
     (SCH_PART_CTRL_VALID 0) false).setFld DIM_UNITS_PARTITIONS_MAX 1).makePart 0).get (by decide +kernel),
     (by decide +kernel), (Option.some_get _).symm⟩,
   ⟨(devPart.setFlag (SCH_PART_CTRL_VALID 0) false).setFld DIM_UNITS_PARTITIONS_MAX 1, 0, (((devPart.setFlag
     (SCH_PART_CTRL_VALID 0) false).setFld DIM_UNITS_PARTITIONS_MAX 1).makePart 0).get (by decide +kernel), 15,
     (by decide +kernel), (Option.some_get _).symm, (by decide +kernel)⟩,
   ⟨devPart, 0, (devPart.freePart 0).get (by decide +kernel), (Option.some_get _).symm⟩,
   ⟨devPart, 0, (devPart.freePart 0).get (by decide +kernel), 15, (Option.some_get _).symm, (by decide +kernel)⟩,
   ⟨{ devPart with hbm := [(518, 1)] }, 2, (({ devPart with hbm := [(518, 1)] }).admitCtx 2).get (by decide +kernel),
     (Option.some_get _).symm⟩,
   ⟨{ onBlock with hbm := [(328, 1), (330, 4)] }, 5, (({ onBlock with hbm := [(328, 1), (330, 4)] }).bindQ 5).get
     (by decide +kernel), (Option.some_get _).symm⟩,
   ⟨dev, 5, (dev.unbindQ 5).get (by decide +kernel), (Option.some_get _).symm⟩,
   ⟨withQueue queueFive, 5, .stopped, ((withQueue queueFive).runQ 5 .stopped).get (by decide +kernel), (Option.some_get
     _).symm, (by decide +kernel)⟩⟩

/-- The hypotheses of `Obligations.StakesAtIssueAndInTheQueue`, clause by clause. -/
theorem witness_StakesAtIssueAndInTheQueue :
    (∃ (b : Nat) (f : Bool) (w : Word) (s : State), s.issues b f ∧ stakeChecks w (BitVec.toNat (s.sreg b f (wSb w))) {
        load := true, f := f, ticket := wBits w 36 32, slot := wBits w 31 25,
        count := if wBits w 24 20 = 6 then 2 else if wBits w 24 20 = 7 then 3 else 1, fmt := wBits w 24 20,
        space := BitVec.getLsbD w 19, sig := BitVec.toNat (s.sreg b f (wBits w 46 42)),
        exp := BitVec.toNat (s.sreg b f (wBits w 51 47)), stride := bits (BitVec.toNat (s.sreg b f (wSb w))) 31 0,
        nc := bits (BitVec.toNat (s.sreg b f (wSb w))) 38 32 + 1, kg := bits (BitVec.toNat (s.sreg b f (wSb w))) 43 40 + 1,
        order := (s.bst b).order, started := false } = none ∧ (s.bst b).sq.length < 4 ∧ s.ticketBusy b f (wBits w 36 32) =
        false) ∧
    (∃ (b : Nat) (f : Bool) (w : Word) (s : State), s.issues b f ∧ stakeChecks w (BitVec.toNat (s.sreg b f (wSb w))) {
        load := true, f := f, ticket := wBits w 36 32, slot := wBits w 31 25,
        count := if wBits w 24 20 = 6 then 2 else if wBits w 24 20 = 7 then 3 else 1, fmt := wBits w 24 20,
        space := BitVec.getLsbD w 19, sig := BitVec.toNat (s.sreg b f (wBits w 46 42)),
        exp := BitVec.toNat (s.sreg b f (wBits w 51 47)), stride := bits (BitVec.toNat (s.sreg b f (wSb w))) 31 0,
        nc := bits (BitVec.toNat (s.sreg b f (wSb w))) 38 32 + 1, kg := bits (BitVec.toNat (s.sreg b f (wSb w))) 43 40 + 1,
        order := (s.bst b).order, started := false } = none ∧ (4 ≤ (s.bst b).sq.length ∨ s.ticketBusy b f (wBits w 36 32) =
        true)) ∧
    (∃ (b : Nat) (f : Bool) (w : Word) (s : State) (e : Nat), s.issues b f ∧ stakeChecks w (BitVec.toNat (s.sreg b f (wSb w)))
      {
        load := true, f := f, ticket := wBits w 36 32, slot := wBits w 31 25,
        count := if wBits w 24 20 = 6 then 2 else if wBits w 24 20 = 7 then 3 else 1, fmt := wBits w 24 20,
        space := BitVec.getLsbD w 19, sig := BitVec.toNat (s.sreg b f (wBits w 46 42)),
        exp := BitVec.toNat (s.sreg b f (wBits w 51 47)), stride := bits (BitVec.toNat (s.sreg b f (wSb w))) 31 0,
        nc := bits (BitVec.toNat (s.sreg b f (wSb w))) 38 32 + 1, kg := bits (BitVec.toNat (s.sreg b f (wSb w))) 43 40 + 1,
        order := (s.bst b).order, started := false } = some e) ∧
    (∃ (b : Nat) (f : Bool) (w : Word) (s : State), s.issues b f ∧ wDst w = 0 ∧ wSa w = 0 ∧ wSb w = 0 ∧ wTicket w = 0 ∧ wBits
      w 17 0 = 0 ∧ wBits w 31 25 + wBits w 24 18 ≤ 127 ∧ (s.bst b).sq.length < 4) ∧
    (∃ (b : Nat) (f : Bool) (w : Word) (s : State), s.issues b f ∧ wSa w = 0 ∧ wSb w = 0 ∧ wTicket w = 0 ∧ wBits w 24 0 = 0 ∧
      (s.bst b).sq = []) ∧
    (∃ (b : Nat) (f : Bool) (w : Word) (s : State), s.issues b f ∧ wSa w = 0 ∧ wSb w = 0 ∧ wTicket w = 0 ∧ wBits w 24 0 = 0 ∧
      4 ≤ (s.bst b).sq.length) ∧
    (∃ (b : Nat) (f : Bool) (w : Word) (s : State), s.issues b f ∧ wSa w = 0 ∧ wSb w = 0 ∧ wTicket w = 0 ∧ wBits w 24 0 = 0 ∧
      (s.bst b).sq ≠ [] ∧ (s.bst b).sq.length < 4) ∧
    (∃ (b : Nat) (s : State) (o : StakeOp) (rest : List StakeOp), s.stakeRuns b = true ∧ (s.bst b).sq = o :: rest ∧
      s.unitsHalt b = false ∧ o.started = false ∧ (s.bst b).stakeHeld o = false ∧ o.load = true) ∧
    (∃ (b : Nat) (s : State) (o : StakeOp) (rest : List StakeOp), s.stakeRuns b = true ∧ (s.bst b).sq = o :: rest ∧
      s.unitsHalt b = false ∧ o.started = false ∧ (s.bst b).stakeHeld o = false ∧ o.load = false) ∧
    (∃ (b : Nat) (s : State) (o : StakeOp) (rest : List StakeOp) (c : Nat) (cols : List (List Group)) (s' : State),
      s.stakeRuns b = true ∧ (s.bst b).sq = o :: rest ∧ (s.blk b).ctx = some c ∧ o.load = true ∧ o.started = true ∧
      s.readColumns b c { o with st := OriginState.valid, part := 0, crc := 0 } o.nc 0 = (Res.ok cols, s')) :=
  ⟨⟨0, false, 0x4400044000200000, onBlock, (by unfold State.issues State.quiet; decide +kernel)⟩,
   ⟨0, false, 0x4400044000200000, onBlockWith (fun x => { x with sq := List.replicate 4 (stakeOne true false) }),
     (by unfold State.issues State.quiet; decide +kernel)⟩,
   ⟨0, true, 0x4400044000000001, onFill, FIELD_INVALID, (by unfold State.issues State.quiet; decide +kernel)⟩,
   ⟨0, false, BitVec.ofNat 64 (127 * 2 ^ 25), onBlock, (by unfold State.issues State.quiet; decide +kernel)⟩,
   ⟨0, false, BitVec.ofNat 64 (127 * 2 ^ 25), onBlock, (by unfold State.issues State.quiet; decide +kernel)⟩,
   ⟨0, false, BitVec.ofNat 64 (127 * 2 ^ 25), onBlockWith (fun x => { x with sq := List.replicate 4 (stakeOne true false) }),
     (by unfold State.issues State.quiet; decide +kernel)⟩,
   ⟨0, false, BitVec.ofNat 64 (127 * 2 ^ 25), onBlockWith (fun x => { x with sq := [stakeOne true false] }),
     (by unfold State.issues State.quiet; decide +kernel)⟩,
   ⟨0, onBlockWith (fun x => { x with sq := [stakeOne true false] }), stakeOne true false, [], (by decide +kernel)⟩,
   ⟨0, onBlockWith (fun x => { x with sq := [stakeOne false false] }), stakeOne false false, [], (by decide +kernel)⟩,
   ⟨0, onBlockWith (fun x => { x with sq := [stakeOne true true] }), stakeOne true true, [], 1, [], ((onBlockWith (fun x =>
     { x with sq := [stakeOne true true] })).readColumns 0 1
     { (stakeOne true true) with st := OriginState.valid, part := 0, crc := 0 } (stakeOne true true).nc 0).2,
     (by decide +kernel), (by decide +kernel), (by decide +kernel), (by decide +kernel), (by decide +kernel), (rfl)⟩⟩

/-- The hypotheses of `Obligations.StepKeepsCanonicalForm`, clause by clause. -/
theorem witness_StepKeepsCanonicalForm :
    (∃ (s : State) (t : State), s.hbmOk ∧ s.regsOk ∧ step s = Host.Outcome.next t) :=
  ⟨State.reset, State.reset, (by unfold State.hbmOk; decide +kernel), (by unfold State.regsOk; decide +kernel), (rfl)⟩

/-- The hypotheses of `Obligations.StepRunsTheFrontCommand`, clause by clause. -/
theorem witness_StepRunsTheFrontCommand :
    (∃ (c : Instr) (rest : List Instr) (s : State), s.pending = c :: rest) ∧
    (∃ (s : State), s.pending = [] ∧ s.powered = false) ∧
    (∃ (s : State), s.pending = [] ∧ s.powered = true) :=
  ⟨⟨Instr.nop 0 false 0, [], { dev with pending := [Instr.nop 0 false 0] }, (by decide +kernel)⟩,
   ⟨State.reset, (by decide +kernel)⟩,
   ⟨dev, (by decide +kernel)⟩⟩

/-- The hypotheses of `Obligations.SystemInstructions`, clause by clause. -/
theorem witness_SystemInstructions :
    (∃ (b : Nat) (f : Bool) (w : Word) (s : State), s.issues b f ∧ wSb w = 0 ∧ wDst w = 0 ∧ wImm w = 0 ∧ (∀ (i : Nat), i < 32
      → ((s.cset b f).ticket i).st ≠ TkState.busy) ∧ (s.bst b).queued f = false) ∧
    (∃ (b : Nat) (f : Bool) (w : Word) (s : State), s.issues b f ∧ wSb w = 0 ∧ wDst w = 0 ∧ wImm w = 0 ∧ ((∃ (i : Nat), i < 32
      ∧ ((s.cset b f).ticket i).st = TkState.busy) ∨ (s.bst b).queued f = true)) ∧
    (∃ (b : Nat) (f : Bool) (w : Word) (s : State), s.issues b f ∧ wSb w = 0 ∧ wDst w = 0 ∧ wSa w = 0 ∧ wImm w = 0) ∧
    (∃ (b : Nat) (f : Bool) (w : Word) (s : State), s.issues b f ∧ wSb w = 0 ∧ wDst w = 0 ∧ wSa w = 0 ∧ wImm w = 0 ∧ s.flag
      (BLK_CORE_CTRL_DEBUG_ATTACH b) = true) ∧
    (∃ (b : Nat) (f : Bool) (w : Word) (s : State), s.issues b f ∧ wSb w = 0 ∧ wDst w = 0 ∧ wSa w = 0 ∧ wImm w = 0 ∧ s.flag
      (BLK_CORE_CTRL_DEBUG_ATTACH b) = false) ∧
    (∃ (b : Nat) (f : Bool) (w : Word) (s : State) (v : BitVec 64), s.issues b f ∧ wSb w = 0 ∧ wBits w 36 8 = 0 ∧ wSa w = 0 ∧
      (wBits w 7 0, v) ∈ [(0, BitVec.ofNat 64 b), (1, BitVec.ofNat 64 ((Option.map (fun (p : Nat) => List.findIdx (fun (x :
      Nat) => x == b) (s.partBlocks p)) (s.blockPart b)).getD 0)), (2, BitVec.ofNat 64 ((s.blockPart b).getD 0)), (3,
      BitVec.ofNat 64 ((s.blk b).ctx.getD 0)), (4, BitVec.ofNat 64 (s.cset b f).queue), (5, if f = true then 1 else 0), (6,
      (s.cset b f).cycles + (s.cset b f).issueClk), (7, (s.cset b f).retired), (8, (s.cset b f).taskPc)]) ∧
    (∃ (b : Nat) (f : Bool) (w : Word) (s : State) (i : Nat), s.issues b f ∧ wSb w = 0 ∧ wBits w 36 8 = 0 ∧ wSa w = 0 ∧ i < 8
      ∧ wBits w 7 0 = 16 + i) ∧
    (∃ (b : Nat) (f : Bool) (w : Word) (s : State), s.issues b f ∧ wSb w = 0 ∧ wBits w 36 8 = 0 ∧ wSa w = 0 ∧ 8 < wBits w 7 0
      ∧ (wBits w 7 0 < 16 ∨ 23 < wBits w 7 0)) ∧
    (∃ (b : Nat) (f : Bool) (w : Word) (s : State) (i : Nat), s.issues b f ∧ wSb w = 0 ∧ wBits w 36 8 = 0 ∧ wDst w = 0 ∧ i < 8
      ∧ wBits w 7 0 = 16 + i) ∧
    (∃ (b : Nat) (f : Bool) (w : Word) (s : State), s.issues b f ∧ wSb w = 0 ∧ wBits w 36 8 = 0 ∧ wDst w = 0 ∧ (wBits w 7 0 <
      16 ∨ 23 < wBits w 7 0)) :=
  ⟨⟨0, false, 0xE000040000000000, onBlock, (by unfold State.issues State.quiet; decide +kernel)⟩,
   ⟨0, false, 0xE000040000000000, onBlockWith (fun x => { x with sq := [stakeOne true false] }),
     (by unfold State.issues State.quiet; decide +kernel)⟩,
   ⟨0, true, 0xE010000000000000, onFill, (by unfold State.issues State.quiet; decide +kernel)⟩,
   ⟨0, false, 0xE050000000000000, onBlock.setFlag (BLK_CORE_CTRL_DEBUG_ATTACH 0) true,
     (by unfold State.issues State.quiet; decide +kernel)⟩,
   ⟨0, false, 0xE050000000000000, onBlock, (by unfold State.issues State.quiet; decide +kernel)⟩,
   ⟨0, false, 0xE020800000000003, onBlock, 1, (by unfold State.issues State.quiet; decide +kernel)⟩,
   ⟨0, false, 0xE020800000000017, onBlock, 7, (by unfold State.issues State.quiet; decide +kernel)⟩,
   ⟨0, false, 0xE020800000000009, onBlock, (by unfold State.issues State.quiet; decide +kernel)⟩,
   ⟨0, false, 0xE030040000000010, onBlock, 0, (by unfold State.issues State.quiet; decide +kernel)⟩,
   ⟨0, false, 0xE0300400000000FF, onBlock, (by unfold State.issues State.quiet; decide +kernel)⟩⟩

/-- The hypotheses of `Obligations.UnpoweredDeviceIsInert`, clause by clause. -/
theorem witness_UnpoweredDeviceIsInert :
    (∃ (s : State), s.powered = false) :=
  ⟨State.reset, (by decide +kernel)⟩

/-- The hypotheses of `Obligations.UpsettSteps`, clause by clause. -/
theorem witness_UpsettSteps :
    (∃ (s : State), s.power.resetN = false ∧ s.power.held = false) ∧
    (∃ (s : State), s.power.resetN = false ∧ s.power.held = true ∧ s.power.faultCause % 16 = 2 ∧ s.power.pwrGood = false) ∧
    (∃ (s : State), s.powered = true ∧ s.lid.upsett = true ∧ s.flag DIM_UNITS_VALID = false ∧ s.power.pwrGood = true) ∧
    (∃ (refA : Bool) (refB : Bool) (s : State), s.powered = true ∧ s.lid.upsett = true ∧ s.flag DIM_UNITS_VALID = false ∧
      (refA = true ∨ refB = true)) ∧
    (∃ (f : Fuses), f.grade = 1) ∧
    (∃ (f : Fuses) (r : Nat), f.grade ≠ 1 ∧ r < 4) ∧
    (∃ (f : Fuses) (r : Nat), f.grade ≠ 1 ∧ r < 4 ∧ ones 32 (f.blocks / 2 ^ (32 * r)) = 28) ∧
    (∃ (f : Fuses) (e : Nat), f.grade ≠ 1 ∧ e < 6) ∧
    (∃ (f : Fuses) (e : Nat), f.grade ≠ 1 ∧ e < 6 ∧ ones 6 (f.links / 2 ^ (6 * e)) = 4) ∧
    (∃ (s : State) (n : Nat), s.powered = true ∧ s.lid.upsett = true ∧ n ≠ s.fld LID_STATUS_STEP) ∧
    (∃ (s : State), s.powered = true ∧ s.lid.upsett = true ∧ s.fld LID_STATUS_STEP = 1 ∧ s.flag DIM_UNITS_VALID = true) ∧
    (∃ (s : State), s.powered = true ∧ s.lid.upsett = true ∧ s.fld LID_STATUS_STEP = 2 ∧ s.jslState = 4) ∧
    (∃ (s : State), s.powered = true ∧ s.lid.upsett = true ∧ s.fld LID_STATUS_STEP = 3 ∧ s.lid.imageOk = true ∧ s.flag
      LID_CMD_DONE = true) ∧
    (∃ (s : State), s.powered = true ∧ s.lid.upsett = true ∧ s.fld LID_STATUS_STEP = 4 ∧ s.lid.repairOk = true ∧
      s.lid.trainFailed = false) ∧
    (∃ (s : State), s.powered = true ∧ s.lid.upsett = true ∧ s.fld LID_STATUS_STEP = 4 ∧ (s.lid.repairOk = false ∨
      s.lid.trainFailed = true)) ∧
    (∃ (s : State), s.powered = true ∧ s.lid.upsett = true ∧ s.fld LID_STATUS_STEP = 5) ∧
    (∃ (s : State), s.powered = true ∧ s.lid.upsett = true ∧ s.fld LID_STATUS_STEP = 6 ∧ s.linkList.all s.linkSettled = true ∧
      s.flag FTU_STATUS_LOCKED = true) ∧
    (∃ (s : State), s.powered = true ∧ s.lid.upsett = true ∧ s.fld LID_STATUS_STEP = 7) ∧
    (∃ (n : Nat), n < 8) ∧
    (∃ (s : State), s.powered = true ∧ s.lid.upsett = true ∧ s.fld LID_STATUS_STEP = 6 ∧ (s.lid.step6Due = none →
      s.lid.step6At + 900000000 ≤ s.local) ∧ ∀ (at_ : Nat), s.lid.step6Due = some at_ → at_ ≤ s.now) ∧
    (∃ (k : Nat) (s : State), s.powered = true ∧ s.lid.upsett = true ∧ s.fld LID_STATUS_STEP = 4 ∧ k < 8) :=
  ⟨⟨State.reset, (by decide +kernel)⟩,
   ⟨{ State.reset with power := { Power.reset with held := true, faultCause := 2 } }, (by decide +kernel)⟩,
   ⟨(upDev 1).setFlag DIM_UNITS_VALID false, (by decide +kernel)⟩,
   ⟨true, false, (upDev 1).setFlag DIM_UNITS_VALID false, (by decide +kernel)⟩,
   ⟨Fuses.reset, (by decide +kernel)⟩,
   ⟨{ Fuses.reset with grade := 2 }, 3, (by decide +kernel)⟩,
   ⟨{ Fuses.reset with grade := 2, blocks := 2 ^ 28 - 1 }, 0, (by decide +kernel)⟩,
   ⟨{ Fuses.reset with grade := 2 }, 5, (by decide +kernel)⟩,
   ⟨{ Fuses.reset with grade := 2, links := 15 * 2 ^ 30 }, 5, (by decide +kernel)⟩,
   ⟨upDev 1, 2, (by decide +kernel)⟩,
   ⟨upDev 1, (by decide +kernel)⟩,
   ⟨(upDev 2).setFld JSL_STATUS_STATE 4, (by decide +kernel)⟩,
   ⟨(upDev 3).modLid (fun l => { l with imageOk := true }), (by decide +kernel)⟩,
   ⟨(upDev 4).modLid (fun l => { l with repairOk := true }), (by decide +kernel)⟩,
   ⟨upDev 4, (by decide +kernel)⟩,
   ⟨upDev 5, (by decide +kernel)⟩,
   ⟨((upDev 6).setReg DIM_RIM_MASK 0).setFlag FTU_STATUS_LOCKED true, (by decide +kernel)⟩,
   ⟨upDev 7, (by decide +kernel)⟩,
   ⟨7, (by decide +kernel)⟩,
   ⟨(upDev 6).modLid (fun l => { l with step6Due := some 0 }), (by decide +kernel), (by decide +kernel), (by decide +kernel),
     (by decide +kernel), (by intro a h; cases h; decide)⟩,
   ⟨7, upDev 4, (by decide +kernel)⟩⟩

/-- The hypotheses of `Obligations.VectorArithmetic`, clause by clause. -/
theorem witness_VectorArithmetic :
    (∃ (p : (Nat → Bool → Word → Instr) × Nat × Nat × (Fmt → Nat → Nat → Nat → Nat)) (b : Nat) (f : Bool) (w : Word) (s :
      State), p ∈ [(Instr.vadd, bitMask 23 23, 2, fun (k : Fmt) (x y x_1 : Nat) => k.encode ((k.decode x).add (k.decode y))),
      (Instr.vsub, bitMask 23 23, 2, fun (k : Fmt) (x y x_1 : Nat) => k.encode ((k.decode x).add (k.decode y).neg)),
      (Instr.vmul, bitMask 23 23, 2, fun (k : Fmt) (x y x_1 : Nat) => k.encode ((k.decode x).mul (k.decode y))), (Instr.vdiv,
      bitMask 23 23, 2, fun (k : Fmt) (x y x_1 : Nat) => k.div (k.decode x) (k.decode y)), (Instr.vmin, bitMask 23 23, 2, fun
      (k : Fmt) (x y x_1 : Nat) => k.encode ((k.decode x).minimum (k.decode y))), (Instr.vmax, bitMask 23 23, 2, fun (k : Fmt)
      (x y x_1 : Nat) => k.encode ((k.decode x).maximum (k.decode y))), (Instr.vfma, bitMask 23 23, 3, fun (k : Fmt) (x y z :
      Nat) => k.encode ((k.decode x).fma (k.decode y) (k.decode z))), (Instr.vfms, bitMask 23 23, 3, fun (k : Fmt) (x y z :
      Nat) => k.encode ((k.decode x).fma (k.decode y) (k.decode z).neg)), (Instr.vfnma, bitMask 23 23, 3, fun (k : Fmt) (x y z
      : Nat) => k.encode ((k.decode x).neg.fma (k.decode y) (k.decode z))), (Instr.vexp, 0, 1, fun (k : Fmt) (x x_1 x_2 : Nat)
      => k.fn Fn.exp (k.decode x)), (Instr.vexp2, 0, 1, fun (k : Fmt) (x x_1 x_2 : Nat) => k.fn Fn.exp2 (k.decode x)),
      (Instr.vlog, 0, 1, fun (k : Fmt) (x x_1 x_2 : Nat) => k.fn Fn.log (k.decode x)), (Instr.vlog2, 0, 1, fun (k : Fmt) (x
      x_1 x_2 : Nat) => k.fn Fn.log2 (k.decode x)), (Instr.vrcp, 0, 1, fun (k : Fmt) (x x_1 x_2 : Nat) => k.rcp (k.decode x)),
      (Instr.vsqrt, 0, 1, fun (k : Fmt) (x x_1 x_2 : Nat) => k.sqrt (k.decode x)), (Instr.vrsqrt, 0, 1, fun (k : Fmt) (x x_1
      x_2 : Nat) => k.rsqrt (k.decode x)), (Instr.vtanh, 0, 1, fun (k : Fmt) (x x_1 x_2 : Nat) => k.fn Fn.tanh (k.decode x)),
      (Instr.vsigmoid, 0, 1, fun (k : Fmt) (x x_1 x_2 : Nat) => k.fn Fn.sigmoid (k.decode x)), (Instr.verf, 0, 1, fun (k :
      Fmt) (x x_1 x_2 : Nat) => k.fn Fn.erf (k.decode x)), (Instr.vsin, 0, 1, fun (k : Fmt) (x x_1 x_2 : Nat) => k.fn Fn.sin
      (k.decode x)), (Instr.vcos, 0, 1, fun (k : Fmt) (x x_1 x_2 : Nat) => k.fn Fn.cos (k.decode x))] ∧ s.vecReady b f w
      (vecCheck w p.snd.fst [0, 1, 2, 3] (s.bst b).vl none)) ∧
    (∃ (p : (Nat → Bool → Word → Instr) × (Bool → Bool)) (b : Nat) (f : Bool) (w : Word) (s : State), p ∈ [(Instr.vabs, fun (x
      : Bool) => false), (Instr.vneg, fun (n : Bool) => !n)] ∧ s.vecReady b f w (vecCheck w (bitMask 23 23) [0, 1, 2, 3]
      (s.bst b).vl none)) ∧
    (∃ (p : (Nat → Bool → Word → Instr) × (Nat → Nat → Nat → Nat)) (b : Nat) (f : Bool) (w : Word) (s : State), p ∈
      [(Instr.viadd, fun (x x_1 y : Nat) => x_1 + y), (Instr.visub, fun (n x y : Nat) => x + (2 ^ n - y)), (Instr.vimul, fun
      (x x_1 y : Nat) => x_1 * y), (Instr.vand, fun (x x_1 y : Nat) => x_1 &&& y), (Instr.vor, fun (x x_1 y : Nat) => x_1 |||
      y), (Instr.vxor, fun (x x_1 y : Nat) => x_1 ^^^ y), (Instr.vsll, fun (n x y : Nat) => x * 2 ^ (y % n)), (Instr.vsrl, fun
      (n x y : Nat) => x / 2 ^ (y % n)), (Instr.vsra, fun (n x y : Nat) => wrap n (signed n x / ↑(2 ^ (y % n))))] ∧ s.vecReady
      b f w (vecCheck w (bitMask 23 23) [4, 5, 6] (s.bst b).vl none)) ∧
    (∃ (b : Nat) (f : Bool) (w : Word) (s : State), wBits w 23 21 ≠ 7 ∧ (s.bst b).vl ≤ vlMax (wBits w 23 21) ∧ s.vecReady b f
      w (vecCheck w (bitMask 23 21) [0, 1, 2, 3, 4, 5, 6] (s.bst b).vl none)) ∧
    (∃ (b : Nat) (f : Bool) (w : Word) (s : State), s.vecReady b f w (vecCheck w 0 [0] (s.bst b).vl none)) ∧
    (∃ (b : Nat) (f : Bool) (w : Word) (s : State), s.vecReady b f w (vecCheck w 0 [2] (s.bst b).vl none)) ∧
    (∃ (h : Nat) (m : Nat) (e : Int) (n : Bool), bf16.decode h = FVal.fin n m e) ∧
    (∃ (b : Nat) (f : Bool) (w : Word) (s : State), s.vecReady b f w (vecCheck w (bitMask 22 18) [5] (s.bst b).vl none)) ∧
    (∃ (b : Nat) (f : Bool) (w : Word) (s : State), s.vecReady b f w (vecCheck w (bitMask 22 18) [2] (s.bst b).vl none)) ∧
    (∃ (b : Nat) (f : Bool) (w : Word) (s : State), wDst w < 8 ∧ s.vecReady b f w (vecCheck w (bitMask 22 18) [] (s.bst b).vl
      none)) :=
  ⟨⟨(Instr.vadd, bitMask 23 23, 2, fun k x y _ => k.encode ((k.decode x).add (k.decode y))), 0, false, 0x6400000000000000, onVec,
  (List.Mem.head _), (by unfold State.vecReady State.vecRoom State.issues State.quiet; decide +kernel)⟩,
   ⟨(Instr.vabs, fun _ => false), 0, false, 0x6460000003000000, onVec, (List.Mem.head _),
     (by unfold State.vecReady State.vecRoom State.issues State.quiet; decide +kernel)⟩,
   ⟨(Instr.viadd, fun _ x y => x + y), 0, false, 0x7000000004800000, onVec, (List.Mem.head _),
     (by unfold State.vecReady State.vecRoom State.issues State.quiet; decide +kernel)⟩,
   ⟨0, false, 0x7400000000C00000, onVec, (by unfold State.vecReady State.vecRoom State.issues State.quiet; decide +kernel)⟩,
   ⟨0, false, 0, onVec, (by unfold State.vecReady State.vecRoom State.issues State.quiet; decide +kernel)⟩,
   ⟨0, false, 0x2000000, onVec, (by unfold State.vecReady State.vecRoom State.issues State.quiet; decide +kernel)⟩,
   ⟨0x3F80, 128, -7, false, (by decide +kernel)⟩,
   ⟨0, false, 0x5000000, onVec, (by unfold State.vecReady State.vecRoom State.issues State.quiet; decide +kernel)⟩,
   ⟨0, false, 0x2000000, onVec, (by unfold State.vecReady State.vecRoom State.issues State.quiet; decide +kernel)⟩,
   ⟨0, false, 0, onVec, (by unfold State.vecReady State.vecRoom State.issues State.quiet; decide +kernel)⟩⟩

/-- The hypotheses of `Obligations.VectorComparesMasksAndPermutes`, clause by clause. -/
theorem witness_VectorComparesMasksAndPermutes :
    (∃ (p : (Nat → Bool → Word → Instr) × (FVal → FVal → Bool)) (b : Nat) (f : Bool) (w : Word) (s : State), p ∈
      [(Instr.vcmpEq, fun (x y : FVal) => x.eq y), (Instr.vcmpLt, fun (x y : FVal) => x.lt y), (Instr.vcmpLe, fun (x y : FVal)
      => x.lt y || x.eq y), (Instr.vcmpUn, fun (x y : FVal) => x.isNan || y.isNan)] ∧ wDst w < 8 ∧ s.vecReady b f w (vecCheck
      w (bitMask 23 23) [0, 1, 2, 3, 4, 5, 6] (s.bst b).vl none)) ∧
    (∃ (p : (Nat → Bool → Word → Instr) × Bool × (Bool → Bool → Bool)) (b : Nat) (f : Bool) (w : Word) (s : State), p ∈
      [(Instr.mand, false, fun (x y : Bool) => x && y), (Instr.mor, false, fun (x y : Bool) => x || y), (Instr.mxor, false,
      fun (x y : Bool) => x != y), (Instr.mnot, true, fun (x x_1 : Bool) => !x)] ∧ wDst w < 8 ∧ wSa w < 8 ∧ (p.snd.fst = true
      ∨ wSb w < 8) ∧ s.vecReady b f w (vecCheck w (bitMask 23 23) [] (s.bst b).vl none)) ∧
    (∃ (i : Nat), i < 1024) ∧
    (∃ (r : Nat) (r' : Nat), r' ≠ r) ∧
    (∃ (p : (Nat → Bool → Word → Instr) × (State → Nat → Bool → Word → BlkState → Nat → Nat)) (b : Nat) (f : Bool) (w : Word)
      (s : State), p ∈ [(Instr.vslidedn, fun (s : State) (b : Nat) (f : Bool) (w : Word) (x : BlkState) (i : Nat) => x.source
      w (wSa w) (i + BitVec.toNat (s.sreg b f (wSb w)))), (Instr.vslideup, fun (s : State) (b : Nat) (f : Bool) (w : Word) (x
      : BlkState) (i : Nat) => if i < BitVec.toNat (s.sreg b f (wSb w)) then x.velem (wDst w) (typeBytes (wType w)) i else
      x.source w (wSa w) (i - BitVec.toNat (s.sreg b f (wSb w)))), (Instr.vperm, fun (x : State) (x_1 : Nat) (x_2 : Bool) (w :
      Word) (x_3 : BlkState) (i : Nat) => x_3.source w (wSa w) (x_3.velem (wSb w) (typeBytes (wType w)) i)), (Instr.vmvV, fun
      (s : State) (b : Nat) (f : Bool) (w : Word) (x : BlkState) (x_1 : Nat) => BitVec.toNat (s.sreg b f (wSa w)) % 2 ^ (8 *
      typeBytes (wType w)))] ∧ s.vecReady b f w (vecCheck w 0 [0, 1, 2, 3, 4, 5, 6] (s.bst b).vl none)) ∧
    (∃ (b : Nat) (f : Bool) (w : Word) (s : State), wMen w = true ∧ s.vecReady b f w (vecCheck w 0 [0, 1, 2, 3, 4, 5, 6]
      (s.bst b).vl none)) :=
  ⟨⟨(Instr.vcmpEq, fun x y => x.eq y), 0, false, 0x6C03800000000000, onVec, (List.Mem.head _), (by decide +kernel),
  (by unfold State.vecReady State.vecRoom State.issues State.quiet; decide +kernel)⟩,
   ⟨(Instr.mand, false, fun x y => x && y), 0, false, 0x6C43800000000000, onVec, (List.Mem.head _), (by decide +kernel),
     (by decide +kernel), (by decide +kernel),
     (by unfold State.vecReady State.vecRoom State.issues State.quiet; decide +kernel)⟩,
   ⟨1023, (by decide +kernel)⟩,
   ⟨7, 6, (by decide +kernel)⟩,
   ⟨(Instr.vslidedn, fun s b f w x i => x.source w (wSa w) (i + (s.sreg b f (wSb w)).toNat)), 0, false, 0x7C00000000000000,
     onVec, (List.Mem.head _), (by unfold State.vecReady State.vecRoom State.issues State.quiet; decide +kernel)⟩,
   ⟨0, false, 0x7C30000040000000, onVec, (by unfold State.vecReady State.vecRoom State.issues State.quiet; decide +kernel)⟩⟩

/-- The hypotheses of `Obligations.VectorConfiguration`, clause by clause. -/
theorem witness_VectorConfiguration :
    (∃ (b : Nat) (f : Bool) (w : Word) (s : State), s.issues b f ∧ wTk w = false ∧ wTicket w = 0 ∧ vecCheck w 0 [0, 1, 2, 3,
      4, 5, 6] 0 none = none) ∧
    (∃ (b : Nat) (f : Bool) (w : Word) (s : State), s.issues b f ∧ wTk w = false ∧ wBits w 7 0 ≤ 4 ∧ vecCheck w (bitMask 7 0)
      [] 0 none = none ∧ (s.bst b).vq.length < 8 ∧ (s.blk b).vregTest = false ∧ (s.bst b).vl = 0 ∧ wBits w 7 0 = 4) ∧
    (∃ (b : Nat) (f : Bool) (w : Word) (s : State), s.issues b f ∧ wTk w = false ∧ wBits w 7 0 ≤ 4 ∧ vecCheck w (bitMask 7 0)
      [] 0 none = none ∧ (s.bst b).vq.length < 8 ∧ (s.blk b).vregTest = false ∧ ((s.bst b).vl ≠ 0 ∨ wBits w 7 0 ≠ 4) ∧ s.fld
      RPL_CTRL_MODE = 0) ∧
    (∃ (b : Nat) (f : Bool) (w : Word) (s : State), s.issues b f ∧ wTk w = false ∧ wTicket w = 0 ∧ (s.bst b).vq = [] ∧ (s.blk
      b).vregTest = false ∧ wBits w 7 0 ≤ 4 ∧ vecCheck w (bitMask 7 0) [] (s.bst b).vl none = none) ∧
    (∃ (b : Nat) (f : Bool) (w : Word) (s : State), s.issues b f ∧ wTk w = false ∧ wTicket w = 0 ∧ (s.bst b).vq = [] ∧ (s.blk
      b).vregTest = false ∧ wSa w < 8 ∧ vecCheck w 0 [] (s.bst b).vl none = none) ∧
    (∃ (b : Nat) (f : Bool) (w : Word) (s : State), s.issues b f ∧ wTk w = false ∧ wTicket w = 0 ∧ (s.bst b).vq = [] ∧ (s.blk
      b).vregTest = false ∧ wBits w 9 0 < vlMax (wType w) ∧ vecCheck w (bitMask 9 0) [0, 1, 2, 3, 4, 5, 6] (s.bst b).vl none =
      none) :=
  ⟨⟨0, false, 0x6000000002000000, onBlock, (by unfold State.issues State.quiet; decide +kernel)⟩,
   ⟨0, true, 0x6020000000000004, onFill, (by unfold State.issues State.quiet; decide +kernel)⟩,
   ⟨0, false, 0x6020000000000004, onVec, (by unfold State.issues State.quiet; decide +kernel)⟩,
   ⟨0, false, 0x6030000000000004, onBlock, (by unfold State.issues State.quiet; decide +kernel)⟩,
   ⟨0, false, 0x60401C0000000000, onBlock, (by unfold State.issues State.quiet; decide +kernel)⟩,
   ⟨0, false, 0x60100000000003FF, onBlock, (by unfold State.issues State.quiet; decide +kernel)⟩⟩

/-- The hypotheses of `Obligations.VectorConversionsAndTwine`, clause by clause. -/
theorem witness_VectorConversionsAndTwine :
    (∃ (b : Nat) (f : Bool) (w : Word) (s : State), s.vecReady b f w (vecCheck w (bitMask 22 8) [0, 1, 2, 3] (s.bst b).vl (if
      7 < wBits w 17 13 then some VEC_FORMAT_INVALID else none)) ∧ BitVec.toNat (s.sreg b f (wSb w)) % 256 = 0 ∧ BitVec.toNat
      (s.sreg b f (wDst w)) % 16 = 0 ∧ BitVec.toNat (s.sreg b f (wSb w)) + 4 * splintWidth (wBits w 17 13) * (((s.bst b).vl +
      31) / 32) ≤ 4194304 ∧ BitVec.toNat (s.sreg b f (wDst w)) + ((s.bst b).vl + 31) / 32 ≤ 4194304) ∧
    (∃ (b : Nat) (f : Bool) (w : Word) (s : State), s.vecReady b f w (vecCheck w (bitMask 17 13) [2, 3] (s.bst b).vl (if 7 <
      wBits w 17 13 then some VEC_FORMAT_INVALID else none)) ∧ BitVec.toNat (s.sreg b f (wSb w)) % 256 = 0 ∧ BitVec.toNat
      (s.sreg b f (wSa w)) % 16 = 0 ∧ BitVec.toNat (s.sreg b f (wSb w)) + 4 * splintWidth (wBits w 17 13) * (((s.bst b).vl +
      31) / 32) ≤ 4194304 ∧ BitVec.toNat (s.sreg b f (wSa w)) + ((s.bst b).vl + 31) / 32 ≤ 4194304 ∧ s.localPoisoned b
      (BitVec.toNat (s.sreg b f (wSb w))) (4 * splintWidth (wBits w 17 13) * (((s.bst b).vl + 31) / 32)) = false ∧
      s.localPoisoned b (BitVec.toNat (s.sreg b f (wSa w))) (((s.bst b).vl + 31) / 32) = false) ∧
    (∃ (b : Nat) (f : Bool) (w : Word) (s : State), s.vecReady b f w (vecCheck w (bitMask 22 3) [] (s.bst b).vl none) ∧ wMen w
      = false ∧ wMsk w = 0 ∧ wBits w 12 8 ≤ 19 ∧ wBits w 17 13 ≤ 7 ∧ (16 ≤ wBits w 12 8 → wBits w 22 18 = 0) ∧ BitVec.toNat
      (s.sreg b f (wSa w)) % 256 = 0 ∧ BitVec.toNat (s.sreg b f (wSb w)) % 256 = 0 ∧ BitVec.toNat (s.sreg b f (wDst w)) % 16 =
      0 ∧ BitVec.toNat (s.sreg b f (wSa w)) + (((s.bst b).vl * if wBits w 12 8 < 8 then splintWidth (wBits w 12 8) else
      importBits (wBits w 12 8)) + 7) / 8 ≤ 4194304 ∧ BitVec.toNat (s.sreg b f (wSb w)) + 4 * splintWidth (wBits w 17 13) *
      (((s.bst b).vl + 31) / 32) ≤ 4194304 ∧ BitVec.toNat (s.sreg b f (wDst w)) + ((s.bst b).vl + 31) / 32 ≤ 4194304 ∧
      s.localPoisoned b (BitVec.toNat (s.sreg b f (wSa w))) ((((s.bst b).vl * if wBits w 12 8 < 8 then splintWidth (wBits w 12
      8) else importBits (wBits w 12 8)) + 7) / 8) = false ∧ (wBits w 12 8 ≤ 13 → BitVec.toNat (s.sreg b f (wBits w 22 18)) %
      16 = 0 ∧ BitVec.toNat (s.sreg b f (wBits w 22 18)) + ((s.bst b).vl + 31) / 32 ≤ 4194304 ∧ s.localPoisoned b
      (BitVec.toNat (s.sreg b f (wBits w 22 18))) (((s.bst b).vl + 31) / 32) = false)) ∧
    (∃ (b : Nat) (f : Bool) (w : Word) (s : State), s.vecReady b f w (vecCheck w (bitMask 23 17) [0, 1, 2, 3, 4, 5, 6] (s.bst
      b).vl (twineCheck w true false (s.bst b).vl)) ∧ (BitVec.getLsbD w 18 = false ∨ bits (BitVec.toNat ((s.bst b).cfgItem 3))
      4 0 = 0)) ∧
    (∃ (b : Nat) (f : Bool) (w : Word) (s : State) (c : Nat) (s2 : State), s.vecReady b f w (vecCheck w (bitMask 23 17) [0, 1,
      2, 3, 4, 5, 6] (s.bst b).vl (twineCheck w true false (s.bst b).vl)) ∧ BitVec.getLsbD w 18 = true ∧ bits (BitVec.toNat
      ((s.bst b).cfgItem 3)) 4 0 ≠ 0 ∧ (s.blk b).ctx = some c ∧ ((s.clocked b f).modBst b fun (x : BlkState) => x.reduce w
      (sumSeg w true)).vwrite c ((BitVec.toNat ((s.bst b).cfgItem 2) + 32 * (bits (BitVec.toNat ((s.bst b).cfgItem 3)) 63 32 %
      2 ^ bits (BitVec.toNat ((s.bst b).cfgItem 3)) 4 0)) % 2 ^ 64) (s.statRecord b f w ((((s.clocked b f).modBst b fun (x :
      BlkState) => x.reduce w (sumSeg w true)).bst b).velem (wDst w) 8 0)) = (Res.ok (), s2)) ∧
    (∃ (p : (Nat → Bool → Word → Instr) × (Word → Nat × Nat → List (Nat × FVal) → Nat → Nat × Bool × Bool)) (b : Nat) (f :
      Bool) (w : Word) (s : State), p ∈ [(Instr.twSum, fun (w : Word) (bd : Nat × Nat) (l : List (Nat × FVal)) (prior : Nat)
      => (f64.encode (twineSum (perBeat (wType w)) (wBits w 22 19) bd.fst bd.snd (leafOf l) (if wVs w = true then f64.decode
      prior else FVal.fin false 0 0)), resultFlags ((if wVs w = true then f64.decode prior else FVal.fin false 0 0) ::
      List.map (fun (x : Nat × FVal) => x.snd) l) (twineSum (perBeat (wType w)) (wBits w 22 19) bd.fst bd.snd (leafOf l) (if
      wVs w = true then f64.decode prior else FVal.fin false 0 0)))), (Instr.twMax, fun (w : Word) (x : Nat × Nat) (l : List
      (Nat × FVal)) (prior : Nat) => (f64.encode (if wVs w = true then (f64.decode prior).maximum (List.foldl (fun (m : FVal)
      (x : Nat × FVal) => m.maximum x.snd) (FVal.inf true) l) else List.foldl (fun (m : FVal) (x : Nat × FVal) => m.maximum
      x.snd) (FVal.inf true) l), false, false)), (Instr.twMin, fun (w : Word) (x : Nat × Nat) (l : List (Nat × FVal)) (prior :
      Nat) => (f64.encode (if wVs w = true then (f64.decode prior).minimum (List.foldl (fun (m : FVal) (x : Nat × FVal) =>
      m.minimum x.snd) (FVal.inf false) l) else List.foldl (fun (m : FVal) (x : Nat × FVal) => m.minimum x.snd) (FVal.inf
      false) l), false, false)), (Instr.twAmax, fun (w : Word) (x : Nat × Nat) (l : List (Nat × FVal)) (prior : Nat) =>
      (f64.encode (if wVs w = true then (f64.decode prior).maximum (List.foldl (fun (m : FVal) (x : Nat × FVal) => m.maximum
      x.snd.abs) (FVal.fin false 0 0) (List.filter (fun (x : Nat × FVal) => !x.snd.isNan) l)) else List.foldl (fun (m : FVal)
      (x : Nat × FVal) => m.maximum x.snd.abs) (FVal.fin false 0 0) (List.filter (fun (x : Nat × FVal) => !x.snd.isNan) l)),
      false, false)), (Instr.twCountNonfinite, fun (w : Word) (x : Nat × Nat) (l : List (Nat × FVal)) (prior : Nat) =>
      ((List.filter (fun (x : Nat × FVal) => !x.snd.isFin) l).length + if wVs w = true then prior else 0, false, false))] ∧
      s.vecReady b f w (vecCheck w (bitMask 23 17) [0, 1, 2, 3, 4, 5, 6] (s.bst b).vl (twineCheck w false false (s.bst
      b).vl))) ∧
    (∃ (b : Nat) (f : Bool) (w : Word) (s : State), s.vecReady b f w (vecCheck w (bitMask 23 17) [0, 1, 2, 3, 4, 5, 6] (s.bst
      b).vl (twineCheck w false true (s.bst b).vl))) ∧
    (∃ (l : List (Nat × FVal)) (p : Nat × FVal), (∀ (q : Nat × FVal), q ∈ l → q.snd.isNan = false) ∧ p.snd.isNan = true) ∧
    (∃ (l : List (Nat × FVal)) (r : List (Nat × FVal)) (p : Nat × FVal), (∀ (q : Nat × FVal), q ∈ l ++ p :: r → q.snd.isNan =
      false) ∧ (∀ (q : Nat × FVal), q ∈ l → aboveVal p.snd q.snd = true) ∧ ∀ (q : Nat × FVal), q ∈ r → aboveVal q.snd p.snd =
      false) ∧
    (∃ (n : Nat) (l : List FVal) (r : List FVal), n < 10 ∧ l.length = 2 ^ n ∧ r.length = 2 ^ n) ∧
    (∃ (b : Nat) (f : Bool) (w : Word) (s : State), s.vecReady b f w (vecCheck w (bitMask 2 0) [] (s.bst b).vl none)) ∧
    (∃ (b : Nat) (f : Bool) (w : Word) (s : State), s.vecReady b f w (vecCheck w (bitMask 7 0) [] (s.bst b).vl none)) ∧
    (∃ (b : Nat) (f : Bool) (w : Word) (s : State), s.vecReady b f w (vecCheck w (bitMask 23 19) [0, 2] (s.bst b).vl (smxCheck
      w (s.bst b).vl))) ∧
    (∃ (b : Nat) (f : Bool) (w : Word) (s : State), wBits w 23 22 ≠ 3 ∧ (s.bst b).vl ≤ 32 ∧ s.vecReady b f w (vecCheck w
      (bitMask 23 22) [0, 2] (s.bst b).vl none)) ∧
    (∃ (p : (Nat → Bool → Word → Instr) × Nat × Bool) (b : Nat) (f : Bool) (w : Word) (s : State), p ∈ [(Instr.vsmxWgt,
      bitMask 22 19, false), (Instr.vsmxNorm, bitMask 22 15, true)] ∧ s.vecReady b f w (vecCheck w p.snd.fst [0, 2] (s.bst
      b).vl (smxCheck w (s.bst b).vl))) ∧
    (∃ (l : List (Nat × FVal)) (p : Nat × FVal), p ∈ l ∧ p.snd.isNan = true) ∧
    (∃ (l : List (Nat × FVal)), (∀ (p : Nat × FVal), p ∈ l → p.snd.isNan = false) ∧ 0 < (List.filter (fun (p : Nat × FVal) =>
      p.snd == FVal.inf false) l).length) ∧
    (∃ (l : List (Nat × FVal)), (∀ (p : Nat × FVal), p ∈ l → p.snd.isNan = false) ∧ l = []) ∧
    (∃ (l : List (Nat × FVal)), (∀ (p : Nat × FVal), p ∈ l → p.snd.isNan = false) ∧ (List.filter (fun (p : Nat × FVal) =>
      p.snd == FVal.inf false) l).length = 0 ∧ l ≠ []) ∧
    (∃ (x : RowState) (y : RowState), x.m.isNan = true ∨ y.m.isNan = true) ∧
    (∃ (x : RowState) (y : RowState), x.m.isNan = false ∧ y.m.isNan = false ∧ (x.k + y.k).min (2 ^ 32 - 1) ≠ 0) ∧
    (∃ (x : RowState) (y : RowState), x.m.isNan = false ∧ y.m.isNan = false ∧ (x.k + y.k).min (2 ^ 32 - 1) = 0 ∧ x.m.maximum
      y.m = FVal.inf true) ∧
    (∃ (x : RowState) (y : RowState), x.m.isNan = false ∧ y.m.isNan = false ∧ (x.k + y.k).min (2 ^ 32 - 1) = 0 ∧ x.m.maximum
      y.m ≠ FVal.inf true) :=
  ⟨⟨0, false, 0x7410000000000000, onVec, (by unfold State.vecReady State.vecRoom State.issues State.quiet; decide +kernel)⟩,
   ⟨0, false, 0x7420000002000000, onVec, (by unfold State.vecReady State.vecRoom State.issues State.quiet; decide +kernel)⟩,
   ⟨0, false, 0x7430000000000000, onVec, (by unfold State.vecReady State.vecRoom State.issues State.quiet; decide +kernel)⟩,
   ⟨0, false, 0xA010000000000000, onVec, (by unfold State.vecReady State.vecRoom State.issues State.quiet; decide +kernel)⟩,
   ⟨0, false, 0xA010000000040000, onBlockWith (fun x => { x with vl := 1, cfg := [(2, 0x3000), (3, 5)] }), 1, ((((onBlockWith
     (fun x => { x with vl := 1, cfg := [(2, 0x3000), (3, 5)] })).clocked 0 false).modBst 0 fun (x : BlkState) => x.reduce
     0xA010000000040000 (sumSeg 0xA010000000040000 true)).vwrite 1 ((BitVec.toNat (((onBlockWith (fun x =>
     { x with vl := 1, cfg := [(2, 0x3000), (3, 5)] })).bst 0).cfgItem 2) + 32 * (bits (BitVec.toNat (((onBlockWith (fun x =>
     { x with vl := 1, cfg := [(2, 0x3000), (3, 5)] })).bst 0).cfgItem 3)) 63 32 % 2 ^ bits (BitVec.toNat (((onBlockWith (fun
     x => { x with vl := 1, cfg := [(2, 0x3000), (3, 5)] })).bst 0).cfgItem 3)) 4 0)) % 2 ^ 64) ((onBlockWith (fun x =>
     { x with vl := 1, cfg := [(2, 0x3000), (3, 5)] })).statRecord 0 false 0xA010000000040000 (((((onBlockWith (fun x =>
     { x with vl := 1, cfg := [(2, 0x3000), (3, 5)] })).clocked 0 false).modBst 0 fun (x : BlkState) => x.reduce
     0xA010000000040000 (sumSeg 0xA010000000040000 true)).bst 0).velem (wDst 0xA010000000040000) 8 0))).2,
     (by unfold State.vecReady State.vecRoom State.issues State.quiet; decide +kernel), (by decide +kernel),
     (by decide +kernel), (by decide +kernel), (pair_eq (ok_eq (by decide +kernel)))⟩,
   ⟨(Instr.twMax, fun (w : Word) (x : Nat × Nat) (l : List (Nat × FVal)) (prior : Nat) => (f64.encode (if wVs w = true then
     (f64.decode prior).maximum (List.foldl (fun (m : FVal) (x : Nat × FVal) => m.maximum x.snd) (FVal.inf true) l) else
     List.foldl (fun (m : FVal) (x : Nat × FVal) => m.maximum x.snd) (FVal.inf true) l), false, false)), 0, false, 0, onVec,
     (by repeat (first | exact List.Mem.head _ | apply List.Mem.tail)),
     (by unfold State.vecReady State.vecRoom State.issues State.quiet; decide +kernel)⟩,
   ⟨0, false, 0, onVec, (by unfold State.vecReady State.vecRoom State.issues State.quiet; decide +kernel)⟩,
   ⟨[], (0, .nan), (by decide +kernel)⟩,
   ⟨[], [], (0, .fin false 1 0), (by decide +kernel)⟩,
   ⟨9, List.replicate 512 (.fin false 1 0), List.replicate 512 (.fin false 1 0), (by decide +kernel)⟩,
   ⟨0, false, 0, onVec, (by unfold State.vecReady State.vecRoom State.issues State.quiet; decide +kernel)⟩,
   ⟨0, false, 0, onVec, (by unfold State.vecReady State.vecRoom State.issues State.quiet; decide +kernel)⟩,
   ⟨0, false, 0, onVec, (by unfold State.vecReady State.vecRoom State.issues State.quiet; decide +kernel)⟩,
   ⟨0, false, 0, onVec, (by unfold State.vecReady State.vecRoom State.issues State.quiet; decide +kernel)⟩,
   ⟨(Instr.vsmxWgt, bitMask 22 19, false), 0, false, 0, onVec,
     (by repeat (first | exact List.Mem.head _ | apply List.Mem.tail)),
     (by unfold State.vecReady State.vecRoom State.issues State.quiet; decide +kernel)⟩,
   ⟨[(0, .nan)], (0, .nan), (by decide +kernel)⟩,
   ⟨[(0, .inf false)], (by decide +kernel)⟩,
   ⟨[], (by decide +kernel)⟩,
   ⟨[(0, .fin false 1 0)], (by decide +kernel)⟩,
   ⟨⟨.nan, 0, .fin false 0 0⟩, ⟨.fin false 1 0, 0, .fin false 0 0⟩, (by decide +kernel)⟩,
   ⟨⟨.fin false 1 0, 1, .fin false 0 0⟩, ⟨.fin false 1 0, 0, .fin false 0 0⟩, (by decide +kernel)⟩,
   ⟨⟨.inf true, 0, .fin false 0 0⟩, ⟨.inf true, 0, .fin false 0 0⟩, (by decide +kernel)⟩,
   ⟨⟨.fin false 1 0, 0, .fin false 1 0⟩, ⟨.inf true, 0, .fin false 0 0⟩, (by decide +kernel)⟩⟩

/-- The hypotheses of `Obligations.VectorElementFrame`, clause by clause. -/
theorem witness_VectorElementFrame :
    (∃ (x : BlkState) (wd : Nat) (i : Nat), 0 < wd ∧ x.vl * wd ≤ 4096 ∧ (i + 1) * wd ≤ 4096) ∧
    (∃ (x : BlkState) (w : Word) (wd : Nat) (r : Nat), 0 < wd ∧ x.vl * wd ≤ 4096 ∧ r ≠ wDst w) ∧
    (∃ (x : BlkState) (wd : Nat), 0 < wd ∧ x.vl * wd ≤ 4096) ∧
    (∃ (p : (Nat → Bool → Word → Instr) × Nat × List Nat × (Word → Nat → Option Nat) × Bool × VecDest) (b : Nat) (f : Bool) (w
      : Word) (s : State), p ∈ vecForms ∧ s.vecRoom b f w (vecCheck w p.snd.fst p.snd.snd.fst (s.bst b).vl (p.snd.snd.snd.fst
      w (s.bst b).vl))) :=
  ⟨⟨{ BlkState.reset with vl := 1024 }, 4, 1023, (by decide +kernel)⟩,
   ⟨{ BlkState.reset with vl := 1024 }, 0, 4, 31, (by decide +kernel)⟩,
   ⟨{ BlkState.reset with vl := 1024 }, 4, (by decide +kernel)⟩,
   ⟨(Instr.vadd, bitMask 23 23, floatTypes, fun _ _ => none, false, destElems [0, 1]), 0, false, 0x6400000000000000, onVec,
     (List.Mem.head _), (by unfold State.vecRoom State.issues State.quiet; decide +kernel)⟩⟩

/-- The hypotheses of `Obligations.VectorEvents`, clause by clause. -/
theorem witness_VectorEvents :
    (∃ (b : Nat) (s : State) (e : VEntry) (rest : List VEntry) (t : Nat), s.powered = true ∧ (s.blk b).discard = false ∧
      (s.bst b).vq = e :: rest ∧ e.ticket = some t) ∧
    (∃ (b : Nat) (s : State) (e : VEntry) (rest : List VEntry), s.powered = true ∧ (s.blk b).discard = false ∧ (s.bst b).vq =
      e :: rest ∧ e.ticket = none ∧ e.code = 0) ∧
    (∃ (b : Nat) (s : State) (e : VEntry) (rest : List VEntry), s.powered = true ∧ (s.blk b).discard = false ∧ (s.bst b).vq =
      e :: rest ∧ e.ticket = none ∧ e.code ≠ 0) ∧
    (∃ (b : Nat) (s : State), s.powered = true ∧ (s.blk b).vregTest = true ∧ (s.blk b).vregTestInjected = true) ∧
    (∃ (b : Nat) (s : State), s.powered = true ∧ (s.blk b).vregTest = true ∧ (s.blk b).vregTestInjected = false) ∧
    (∃ (b : Nat) (s : State), s.powered = true ∧ (s.blk b).vregTest = true) :=
  ⟨⟨0, onBlockWith (fun x => { x with vq := [entryOne (some 31) 0] }), entryOne (some 31) 0, [], 31, (by decide +kernel)⟩,
   ⟨0, onBlockWith (fun x => { x with vq := [entryOne none 0] }), entryOne none 0, [], (by decide +kernel)⟩,
   ⟨0, onBlockWith (fun x => { x with vq := [entryOne none 5] }), entryOne none 5, [], (by decide +kernel)⟩,
   ⟨0, onBlk (fun k => { k with vregTest := true, vregTestInjected := true }), (by decide +kernel)⟩,
   ⟨0, onBlk (fun k => { k with vregTest := true }), (by decide +kernel)⟩,
   ⟨0, onBlk (fun k => { k with vregTest := true }), (by decide +kernel)⟩⟩

/-- The hypotheses of `Obligations.VectorIssueChecks`, clause by clause. -/
theorem witness_VectorIssueChecks :
    (∃ (p : (Nat → Bool → Word → Instr) × Nat × List Nat × (Word → Nat → Option Nat) × Bool × VecDest) (b : Nat) (f : Bool) (w
      : Word) (s : State) (e : Nat), p ∈ vecForms ∧ s.issues b f ∧ vecCheck w p.snd.fst p.snd.snd.fst (s.bst b).vl
      (p.snd.snd.snd.fst w (s.bst b).vl) = some e) ∧
    (∃ (p : (Nat → Bool → Word → Instr) × Nat × List Nat × (Word → Nat → Option Nat) × Bool × VecDest) (b : Nat) (f : Bool) (w
      : Word) (s : State), p ∈ vecForms ∧ s.issues b f ∧ vecCheck w p.snd.fst p.snd.snd.fst (s.bst b).vl (p.snd.snd.snd.fst w
      (s.bst b).vl) = none ∧ (8 ≤ (s.bst b).vq.length ∨ (s.blk b).vregTest = true ∨ wTk w = true ∧ s.ticketBusy b f (wTicket
      w) = true)) :=
  ⟨⟨(Instr.vadd, bitMask 23 23, floatTypes, fun _ _ => none, false, destElems [0, 1]), 0, false, 0x6400000000000001, onVec,
  VEC_FIELD_INVALID, (List.Mem.head _), (by unfold State.issues State.quiet; decide +kernel), (by decide +kernel)⟩,
   ⟨(Instr.vadd, bitMask 23 23, floatTypes, fun _ _ => none, false, destElems [0, 1]), 0, false, 0x6400000000000000,
     onBlockWith (fun x => { x with vl := 1, vq := List.replicate 8 (entryOne none 0) }), (List.Mem.head _),
     (by unfold State.issues State.quiet; decide +kernel), (by decide +kernel), (by decide +kernel)⟩⟩

/-- The hypotheses of `Obligations.VectorMemory`, clause by clause. -/
theorem witness_VectorMemory :
    (∃ (b : Nat) (f : Bool) (w : Word) (s : State), s.vecReady b f w (vecCheck w (bitMask 23 18) [0, 1, 2, 3, 4, 5, 6] (s.bst
      b).vl (ldstCheck w true)) ∧ ∀ (i : Nat), i < (s.bst b).vl ∧ (wMen w = false ∨ (s.bst b).mbit (wMsk w) i = true) →
      (BitVec.toNat (s.sreg b f (wSa w)) + i * if wVs w = true then BitVec.toNat (s.sreg b f (wSb w)) else typeBytes (wType
      w)) % 2 ^ 64 % typeBytes (wType w) = 0 ∧ (BitVec.toNat (s.sreg b f (wSa w)) + i * if wVs w = true then BitVec.toNat
      (s.sreg b f (wSb w)) else typeBytes (wType w)) % 2 ^ 64 + typeBytes (wType w) ≤ 4456448 ∧ s.localPoisoned b
      ((BitVec.toNat (s.sreg b f (wSa w)) + i * if wVs w = true then BitVec.toNat (s.sreg b f (wSb w)) else typeBytes (wType
      w)) % 2 ^ 64) (typeBytes (wType w)) = false) ∧
    (∃ (b : Nat) (f : Bool) (w : Word) (s : State), s.vecReady b f w (vecCheck w (bitMask 23 18) [0, 1, 2, 3, 4, 5, 6] (s.bst
      b).vl (ldstCheck w false)) ∧ ∀ (i : Nat), i < (s.bst b).vl ∧ (wMen w = false ∨ (s.bst b).mbit (wMsk w) i = true) →
      (BitVec.toNat (s.sreg b f (wSa w)) + i * if wVs w = true then BitVec.toNat (s.sreg b f (wSb w)) else typeBytes (wType
      w)) % 2 ^ 64 % typeBytes (wType w) = 0 ∧ (BitVec.toNat (s.sreg b f (wSa w)) + i * if wVs w = true then BitVec.toNat
      (s.sreg b f (wSb w)) else typeBytes (wType w)) % 2 ^ 64 + typeBytes (wType w) ≤ 4456448) :=
  ⟨⟨0, false, 0x8000040000000000, onVecRegs [(1, 0x43FFFC)],
  (by unfold State.vecReady State.vecRoom State.issues State.quiet; decide +kernel),
  (by intro i h; have h2 : i < 1 := h.1; cases i with | zero => decide +kernel | succ n => omega)⟩,
   ⟨0, false, 0x8010040000000000, onVecRegs [(1, 0x43FFFC)],
     (by unfold State.vecReady State.vecRoom State.issues State.quiet; decide +kernel),
     (by intro i h; have h2 : i < 1 := h.1; cases i with | zero => decide +kernel | succ n => omega)⟩⟩

/-- The hypotheses of `Obligations.VirtualAccesses`, clause by clause. -/
theorem witness_VirtualAccesses :
    (∃ (b : Nat) (c : Nat) (f : Bool) (w : Word) (s : State), s.issues b f ∧ (s.blk b).ctx = some c ∧ BitVec.toNat (s.sreg b f
      (wSa w) + BitVec.ofInt 64 (signed 37 (BitVec.toNat w))) % 8 ≠ 0) ∧
    (∃ (b : Nat) (c : Nat) (pa : Nat) (f : Bool) (w : Word) (s : State), s.issues b f ∧ (s.blk b).ctx = some c ∧ BitVec.toNat
      (s.sreg b f (wSa w) + BitVec.ofInt 64 (signed 37 (BitVec.toNat w))) % 8 = 0 ∧ s.walkWaits c (BitVec.toNat (s.sreg b f
      (wSa w) + BitVec.ofInt 64 (signed 37 (BitVec.toNat w)))) = false ∧ s.translate c (BitVec.toNat (s.sreg b f (wSa w) +
      BitVec.ofInt 64 (signed 37 (BitVec.toNat w)))) Access.read = Except.ok (0, pa) ∧ s.frameBusy pa = false ∧
      s.hbmPoisonedRange pa 8 = false) ∧
    (∃ (b : Nat) (c : Nat) (pa : Nat) (f : Bool) (w : Word) (s : State), s.issues b f ∧ (s.blk b).ctx = some c ∧ BitVec.toNat
      (s.sreg b f (wSa w) + BitVec.ofInt 64 (signed 37 (BitVec.toNat w))) % 8 = 0 ∧ s.walkWaits c (BitVec.toNat (s.sreg b f
      (wSa w) + BitVec.ofInt 64 (signed 37 (BitVec.toNat w)))) = false ∧ s.translate c (BitVec.toNat (s.sreg b f (wSa w) +
      BitVec.ofInt 64 (signed 37 (BitVec.toNat w)))) Access.write = Except.ok (0, pa) ∧ s.writeHeld pa 8 = false) ∧
    (∃ (p : (Nat → Bool → Word → Instr) × (Word → Word → Word → Word)) (b : Nat) (c : Nat) (pa : Nat) (f : Bool) (w : Word) (s
      : State), p ∈ [(Instr.amoadd, fun (old src x : Word) => old + src), (Instr.amoswap, fun (x src x_1 : Word) => src),
      (Instr.amocas, fun (old src dst : Word) => if old = dst then src else old)] ∧ s.issues b f ∧ (s.blk b).ctx = some c ∧
      BitVec.toNat (s.sreg b f (wSa w) + BitVec.ofInt 64 (signed 37 (BitVec.toNat w))) % 8 = 0 ∧ s.walkWaits c (BitVec.toNat
      (s.sreg b f (wSa w) + BitVec.ofInt 64 (signed 37 (BitVec.toNat w)))) = false ∧ s.translate c (BitVec.toNat (s.sreg b f
      (wSa w) + BitVec.ofInt 64 (signed 37 (BitVec.toNat w)))) Access.read = Except.ok (0, pa) ∧ s.translate c (BitVec.toNat
      (s.sreg b f (wSa w) + BitVec.ofInt 64 (signed 37 (BitVec.toNat w)))) Access.write = Except.ok (0, pa) ∧ s.frameBusy pa =
      false ∧ s.hbmPoisonedRange pa 8 = false ∧ s.writeHeld pa 8 = false) :=
  ⟨⟨0, 1, false, 0x1400800000000001, onBlock, (by unfold State.issues State.quiet; decide +kernel)⟩,
   ⟨0, 1, 2 ^ 22 - 8, false, 0x1400800000000000 + 0x1FFFF8, onBlock, (by unfold State.issues State.quiet; decide +kernel),
     (by decide +kernel), (by decide +kernel), (by decide +kernel), (xok_eq (by decide +kernel)), (by decide +kernel),
     (by decide +kernel)⟩,
   ⟨0, 1, 2 ^ 22 - 8, false, 0x1400800000000000 + 0x1FFFF8, onBlock, (by unfold State.issues State.quiet; decide +kernel),
     (by decide +kernel), (by decide +kernel), (by decide +kernel), (xok_eq (by decide +kernel)), (by decide +kernel)⟩,
   ⟨(Instr.amoadd, fun old src _ => old + src), 0, 1, 2 ^ 21, false, 0x1420800000000000, onBlock, (List.Mem.head _),
     (by unfold State.issues State.quiet; decide +kernel), (by decide +kernel), (by decide +kernel), (by decide +kernel),
     (xok_eq (by decide +kernel)), (xok_eq (by decide +kernel)), (by decide +kernel), (by decide +kernel),
     (by decide +kernel)⟩⟩

/-- The hypotheses of `Obligations.WaitFamily`, clause by clause. -/
theorem witness_WaitFamily :
    (∃ (b : Nat) (f : Bool) (w : Word) (s : State), s.issues b f ∧ wDst w = 0 ∧ wSb w = 0 ∧ wBits w 36 33 = 0 ∧ ∀ (i : Nat), i
      < 32 → ¬((BitVec.ofNat 32 (BitVec.toNat w) ||| BitVec.ofNat 32 (BitVec.toNat (s.sreg b f (wSa w)))).getLsbD i = true ∧
      ((s.cset b f).ticket i).st = TkState.busy)) ∧
    (∃ (b : Nat) (f : Bool) (w : Word) (s : State), s.issues b f ∧ wDst w = 0 ∧ wSb w = 0 ∧ wBits w 36 33 = 0 ∧ ∃ (i : Nat), i
      < 32 ∧ (BitVec.ofNat 32 (BitVec.toNat w) ||| BitVec.ofNat 32 (BitVec.toNat (s.sreg b f (wSa w)))).getLsbD i = true ∧
      ((s.cset b f).ticket i).st = TkState.busy) ∧
    (∃ (b : Nat) (f : Bool) (w : Word) (s : State), s.issues b f ∧ wSb w = 0 ∧ wBits w 36 33 = 0 ∧ BitVec.ofNat 32
      (BitVec.toNat w) ||| BitVec.ofNat 32 (BitVec.toNat (s.sreg b f (wSa w))) = 0) ∧
    (∃ (b : Nat) (f : Bool) (w : Word) (s : State) (i : Nat), s.issues b f ∧ wSb w = 0 ∧ wBits w 36 33 = 0 ∧ i < 32 ∧
      (BitVec.ofNat 32 (BitVec.toNat w) ||| BitVec.ofNat 32 (BitVec.toNat (s.sreg b f (wSa w)))).getLsbD i = true ∧
      ¬((BitVec.ofNat 32 (BitVec.toNat w) ||| BitVec.ofNat 32 (BitVec.toNat (s.sreg b f (wSa w)))).getLsbD i = true ∧ ((s.cset
      b f).ticket i).st = TkState.busy) ∧ ∀ (j : Nat), j < i → (BitVec.ofNat 32 (BitVec.toNat w) ||| BitVec.ofNat 32
      (BitVec.toNat (s.sreg b f (wSa w)))).getLsbD j = true → (BitVec.ofNat 32 (BitVec.toNat w) ||| BitVec.ofNat 32
      (BitVec.toNat (s.sreg b f (wSa w)))).getLsbD j = true ∧ ((s.cset b f).ticket j).st = TkState.busy) ∧
    (∃ (b : Nat) (f : Bool) (w : Word) (s : State), s.issues b f ∧ wSb w = 0 ∧ wBits w 36 33 = 0 ∧ BitVec.ofNat 32
      (BitVec.toNat w) ||| BitVec.ofNat 32 (BitVec.toNat (s.sreg b f (wSa w))) ≠ 0 ∧ ∀ (i : Nat), i < 32 → (BitVec.ofNat 32
      (BitVec.toNat w) ||| BitVec.ofNat 32 (BitVec.toNat (s.sreg b f (wSa w)))).getLsbD i = true → (BitVec.ofNat 32
      (BitVec.toNat w) ||| BitVec.ofNat 32 (BitVec.toNat (s.sreg b f (wSa w)))).getLsbD i = true ∧ ((s.cset b f).ticket i).st
      = TkState.busy) ∧
    (∃ (b : Nat) (f : Bool) (w : Word) (s : State), s.issues b f ∧ wBits w 36 33 = 0 ∧ ∀ (i : Nat), i < 32 → ¬((BitVec.ofNat
      32 (BitVec.toNat w) ||| BitVec.ofNat 32 (BitVec.toNat (s.sreg b f (wSa w)))).getLsbD i = true ∧ ((s.cset b f).ticket
      i).st = TkState.busy)) ∧
    (∃ (b : Nat) (f : Bool) (w : Word) (s : State), s.issues b f ∧ wBits w 36 33 = 0 ∧ (∃ (i : Nat), i < 32 ∧ (BitVec.ofNat 32
      (BitVec.toNat w) ||| BitVec.ofNat 32 (BitVec.toNat (s.sreg b f (wSa w)))).getLsbD i = true ∧ ((s.cset b f).ticket i).st
      = TkState.busy) ∧ BitVec.toNat (s.sreg b f (wSb w)) ≤ s.blockNow b) ∧
    (∃ (b : Nat) (f : Bool) (w : Word) (s : State), s.issues b f ∧ wBits w 36 33 = 0 ∧ (∃ (i : Nat), i < 32 ∧ (BitVec.ofNat 32
      (BitVec.toNat w) ||| BitVec.ofNat 32 (BitVec.toNat (s.sreg b f (wSa w)))).getLsbD i = true ∧ ((s.cset b f).ticket i).st
      = TkState.busy) ∧ s.blockNow b < BitVec.toNat (s.sreg b f (wSb w))) ∧
    (∃ (b : Nat) (f : Bool) (w : Word) (s : State), s.issues b f ∧ wSa w = 0 ∧ wSb w = 0 ∧ wBits w 36 5 = 0) :=
  ⟨⟨0, false, 0xD000000100000028, onBlock, (by unfold State.issues State.quiet; decide +kernel)⟩,
   ⟨0, false, 0xD000000080000000, withBusy [31], (by unfold State.issues State.quiet; decide +kernel)⟩,
   ⟨0, false, 0xD010000000000000, onBlock, (by unfold State.issues State.quiet; decide +kernel)⟩,
   ⟨0, false, 0xD010000000000028, withBusy [3], 5, (by unfold State.issues State.quiet; decide +kernel)⟩,
   ⟨0, false, 0xD010000000000028, withBusy [3, 5], (by unfold State.issues State.quiet; decide +kernel)⟩,
   ⟨0, true, 0xD020000000000028, onFill, (by unfold State.issues State.quiet; decide +kernel)⟩,
   ⟨0, false, 0xD020000000000028, withBusy [5], (by unfold State.issues State.quiet; decide +kernel), (by decide +kernel),
     (by decide +kernel), (Nat.zero_le _)⟩,
   ⟨0, false, 0xD020002000000028, (withBusy [5]).modSet 0 false (fun x => { x with s := [(1, 1)] }),
     (by unfold State.issues State.quiet; decide +kernel), (by decide +kernel), (by decide +kernel), (Nat.lt_of_le_of_lt
     (blockNow_le _ _) (by decide +kernel))⟩,
   ⟨0, false, 0xD03000000000001F, onBlock, (by unfold State.issues State.quiet; decide +kernel)⟩⟩

/-- The hypotheses of `Obligations.Watchdogs`, clause by clause. -/
theorem witness_Watchdogs :
    (∃ (key : Nat) (progress : Nat) (s : State), (SMap.get (fun (x : Nat) => Wd.reset) s.wds key).latched ≠ some progress) ∧
    (∃ (key : Nat) (progress : Nat) (limit : Nat) (watched : Bool) (s : State), (SMap.get (fun (x : Nat) => Wd.reset) s.wds
      key).latched = some progress ∧ watched = false ∧ (SMap.get (fun (x : Nat) => Wd.reset) s.wds key).strikes < limit.max 2) ∧
    (∃ (key : Nat) (progress : Nat) (limit : Nat) (watched : Bool) (s : State), (SMap.get (fun (x : Nat) => Wd.reset) s.wds
      key).latched = some progress ∧ watched = true ∧ (SMap.get (fun (x : Nat) => Wd.reset) s.wds key).strikes + 1 < limit.max
      2) ∧
    (∃ (key : Nat) (progress : Nat) (limit : Nat) (watched : Bool) (s : State), (SMap.get (fun (x : Nat) => Wd.reset) s.wds
      key).latched = some progress ∧ watched = true ∧ limit.max 2 ≤ (SMap.get (fun (x : Nat) => Wd.reset) s.wds key).strikes +
      1) ∧
    (∃ (s : State) (s1 : State) (target : Nat) (at_ : Nat) (b : Nat) (c : Nat), s.powered = true ∧ s.takeExpiry (Watched.block
      b) = (some (target, at_), s1) ∧ (s1.blk b).ctx = some c ∧ ((s1.ctxOf c).st = CtxState.swapped ∨ (s1.ctxOf c).st =
      CtxState.resident) ∧ (s1.ctxOf c).tearing = false) ∧
    (∃ (s : State) (s1 : State) (target : Nat) (at_ : Nat) (r : Nat), s.powered = true ∧ s.takeExpiry (Watched.sched r) =
      (some (target, at_), s1)) ∧
    (∃ (s : State) (s1 : State) (target : Nat) (at_ : Nat), s.powered = true ∧ s.takeExpiry Watched.overrun = (some (target,
      at_), s1)) ∧
    (∃ (s : State) (s1 : State) (target : Nat) (at_ : Nat), s.powered = true ∧ s.takeExpiry Watched.companion = (some (target,
      at_), s1)) ∧
    (∃ (s : State), s.powered = true ∧ s.ready = true ∧ s.flag RST_STATUS_LID_WEDGED = false) ∧
    (∃ (a : Auth) (p : Path) (v : Word) (s : State), s.reaches a p RST_HEARTBEAT ∧ (s.store a p RST_HEARTBEAT v).fld
      RST_HEARTBEAT_SEQ = s.fld RST_HEARTBEAT_SEQ) ∧
    (∃ (a : Auth) (p : Path) (v : Word) (s : State), s.reaches a p RST_HEARTBEAT ∧ (s.store a p RST_HEARTBEAT v).fld
      RST_HEARTBEAT_SEQ ≠ s.fld RST_HEARTBEAT_SEQ ∧ s.flag RST_STATUS_COMPANION_LOST = false) ∧
    (∃ (a : Auth) (p : Path) (v : Word) (s : State), s.reaches a p RST_HEARTBEAT ∧ (s.store a p RST_HEARTBEAT v).fld
      RST_HEARTBEAT_SEQ ≠ s.fld RST_HEARTBEAT_SEQ ∧ s.flag RST_STATUS_COMPANION_LOST = true) ∧
    (∃ (b : Nat) (p : Nat) (s : State), s.powered = true ∧ (s.blk b).phase = SwPhase.stopping ∧ (s.blk b).discard = true ∧
      (s.blk b).stopAt + s.fld RST_CTRL_STOP_US * 1000 < s.now ∧ s.flag RST_CTRL_ESCALATE_EN = true ∧ s.blockPart b = some p) ∧
    (∃ (p : Nat) (at_ : Nat) (s : State), s.powered = true ∧ (s.partOf p).resetAt = some at_ ∧ at_ + 3000000 < s.now) ∧
    (∃ (c : Nat) (s : State), (s.ctxOf c).st = CtxState.free ∨ (s.ctxOf c).st = CtxState.quarantine ∨ (s.ctxOf c).tearing =
      true) ∧
    (∃ (c : Nat) (s : State), ((s.ctxOf c).st = CtxState.swapped ∨ (s.ctxOf c).st = CtxState.resident) ∧ (s.ctxOf c).tearing =
      false) ∧
    (∃ (c : Nat) (s : State), c < 4096 ∧ (s.ctxOf c).gen < 256 ∧ ((s.ctxOf c).st = CtxState.swapped ∨ (s.ctxOf c).st =
      CtxState.resident) ∧ (s.ctxOf c).tearing = false) ∧
    (∃ (c : Nat) (s : State), c < 4096 ∧ (s.ctxOf c).gen < 256 ∧ ((s.ctxOf c).st = CtxState.swapped ∨ (s.ctxOf c).st =
      CtxState.resident) ∧ (s.ctxOf c).tearing = false ∧ ∀ (b : Nat), b < 128 → (s.blk b).ctx ≠ some c ∧ ((s.blk b).incoming ≠
      some c ∨ (s.blk b).phase ≠ SwPhase.restoring)) ∧
    (∃ (c : Nat) (s : State) (b : Nat), c < 4096 ∧ (s.ctxOf c).gen < 256 ∧ ((s.ctxOf c).st = CtxState.swapped ∨ (s.ctxOf c).st
      = CtxState.resident) ∧ (s.ctxOf c).tearing = false ∧ b < 128 ∧ (s.blk b).ctx = some c) ∧
    (∃ (c : Nat) (s : State) (b : Nat), c < 4096 ∧ (s.ctxOf c).gen < 256 ∧ ((s.ctxOf c).st = CtxState.swapped ∨ (s.ctxOf c).st
      = CtxState.resident) ∧ (s.ctxOf c).tearing = false ∧ b < 128 ∧ (s.blk b).ctx ≠ some c ∧ (s.blk b).incoming = some c) ∧
    (∃ (c : Nat) (s : State) (b : Nat), c < 4096 ∧ (s.ctxOf c).gen < 256 ∧ ((s.ctxOf c).st = CtxState.swapped ∨ (s.ctxOf c).st
      = CtxState.resident) ∧ (s.ctxOf c).tearing = false ∧ b < 128 ∧ (s.blk b).ctx ≠ some c ∧ (s.blk b).incoming = some c ∧
      (s.blk b).phase = SwPhase.restoring) ∧
    (∃ (c : Nat) (s : State) (b : Nat), c < 4096 ∧ (s.ctxOf c).gen < 256 ∧ ((s.ctxOf c).st = CtxState.swapped ∨ (s.ctxOf c).st
      = CtxState.resident) ∧ (s.ctxOf c).tearing = false ∧ (s.blk b).ctx ≠ some c ∧ (s.blk b).incoming ≠ some c) ∧
    (∃ (c : Nat) (s : State) (d : Nat), c < 4096 ∧ (s.ctxOf c).gen < 256 ∧ ((s.ctxOf c).st = CtxState.swapped ∨ (s.ctxOf c).st
      = CtxState.resident) ∧ (s.ctxOf c).tearing = false ∧ d ≠ c) ∧
    (∃ (c : Nat) (s : State) (n : Nat), c < 4096 ∧ (s.ctxOf c).gen < 256 ∧ ((s.ctxOf c).st = CtxState.swapped ∨ (s.ctxOf c).st
      = CtxState.resident) ∧ (s.ctxOf c).tearing = false ∧ n ∈ s.ctxQueues c) ∧
    (∃ (c : Nat) (s : State) (n : Nat), c < 4096 ∧ (s.ctxOf c).gen < 256 ∧ ((s.ctxOf c).st = CtxState.swapped ∨ (s.ctxOf c).st
      = CtxState.resident) ∧ (s.ctxOf c).tearing = false ∧ ¬n ∈ s.ctxQueues c) ∧
    (∃ (c : Nat) (s : State), c < 4096 ∧ (s.ctxOf c).gen < 256 ∧ ((s.ctxOf c).st = CtxState.swapped ∨ (s.ctxOf c).st =
      CtxState.resident) ∧ (s.ctxOf c).tearing = false) ∧
    (∃ (c : Nat) (s : State) (k : Nat) (p : QPkt), c < 4096 ∧ (s.ctxOf c).gen < 256 ∧ ((s.ctxOf c).st = CtxState.swapped ∨
      (s.ctxOf c).st = CtxState.resident) ∧ (s.ctxOf c).tearing = false ∧ p ∈ (s.teardown c).port k) ∧
    (∃ (c : Nat) (s : State) (k : Nat) (p : QPkt), c < 4096 ∧ (s.ctxOf c).gen < 256 ∧ ((s.ctxOf c).st = CtxState.swapped ∨
      (s.ctxOf c).st = CtxState.resident) ∧ (s.ctxOf c).tearing = false ∧ p ∈ s.port k ∧ p.ctxTag ≠ some (s.tagOf c)) ∧
    (∃ (c : Nat) (s : State) (n : Nat), c < 4096 ∧ (s.ctxOf c).gen < 256 ∧ ((s.ctxOf c).st = CtxState.swapped ∨ (s.ctxOf c).st
      = CtxState.resident) ∧ (s.ctxOf c).tearing = false ∧ n < 2 ^ 32) ∧
    (∃ (c : Nat) (s : State) (e : Nat), c < 4096 ∧ (s.ctxOf c).gen < 256 ∧ ((s.ctxOf c).st = CtxState.swapped ∨ (s.ctxOf c).st
      = CtxState.resident) ∧ (s.ctxOf c).tearing = false ∧ e < 16 ∧ s.fld (COL_CTRL_CONTEXT e) = c ∧ ¬s.coilState e ∈ [0, 5,
      7]) ∧
    (∃ (c : Nat) (s : State), 4096 < s.quarUsed + (s.quarPages c).length) ∧
    (∃ (c : Nat) (s : State), s.quarUsed + (s.quarPages c).length ≤ 4096) ∧
    (∃ (c : Nat) (s : State) (a : Nat), (s.ctxOf c).saveBase ≤ a ∧ a < (s.ctxOf c).saveBase + (s.homeBlocks c).length * 2 ^
      24) ∧
    (∃ (c : Nat) (s : State) (m : Move) (i : Nat) (pa : Nat), m ∈ s.moves ∧ m.tag = s.tagOf c ∧ m.dstVirt = true ∧ 0 < m.len ∧
      m.row ≤ i ∧ i < m.rows ∧ s.translate c (BitVec.toNat m.dst + i * m.dstStride) Access.write = Except.ok (0, pa)) ∧
    (∃ (c : Nat) (s : State) (slot : Nat) (o : PlaitOp) (pa : Nat), s.plaitSlot slot = some o ∧ o.tag = s.tagOf c ∧ 0 <
      o.recvElems ∧ s.translate c o.desc.recvVa Access.write = Except.ok (0, pa)) :=
  ⟨⟨5, 7, dev, (by decide +kernel)⟩,
   ⟨5, 7, 3, false, { dev with wds := [(5, ⟨some 7, 1⟩)] }, (by decide +kernel)⟩,
   ⟨5, 7, 3, true, { dev with wds := [(5, ⟨some 7, 1⟩)] }, (by decide +kernel)⟩,
   ⟨5, 7, 0, true, { dev with wds := [(5, ⟨some 7, 1⟩)] }, (by decide +kernel)⟩,
   ⟨{ onBlock with expiries := [(.block 0, 3, 5)] }, (({ onBlock with expiries := [(.block 0, 3, 5)] }).takeExpiry
     (Watched.block 0)).2, 3, 5, 0, 1, (by decide +kernel), (pair_eq (by decide +kernel)), (by decide +kernel),
     (by decide +kernel), (by decide +kernel)⟩,
   ⟨{ dev with expiries := [(.companion, 1, 4), (.sched 3, 2, 5)] },
     (({ dev with expiries := [(.companion, 1, 4), (.sched 3, 2, 5)] }).takeExpiry (Watched.sched 3)).2, 2, 5, 3,
     (by decide +kernel), (pair_eq (by decide +kernel))⟩,
   ⟨{ dev with expiries := [(.overrun, 2, 5)] }, (({ dev with expiries := [(.overrun, 2, 5)] }).takeExpiry Watched.overrun).2,
     2, 5, (by decide +kernel), (pair_eq (by decide +kernel))⟩,
   ⟨{ dev with expiries := [(.companion, 2, 5)] }, (({ dev with expiries := [(.companion, 2, 5)] }).takeExpiry
     Watched.companion).2, 2, 5, (by decide +kernel), (pair_eq (by decide +kernel))⟩,
   ⟨dev, (by decide +kernel)⟩,
   ⟨.driver, .josil, 0, dev, (by unfold State.reaches; decide +kernel)⟩,
   ⟨.driver, .josil, BitVec.allOnes 64, dev, (by unfold State.reaches; decide +kernel)⟩,
   ⟨.driver, .josil, BitVec.allOnes 64, dev.setFlag RST_STATUS_COMPANION_LOST true, (by unfold State.reaches; decide +kernel)⟩,
   ⟨0, 0, ((locked onBlock).modBlk 0 (fun k => { k with phase := .stopping, discard := true })).setFlag RST_CTRL_ESCALATE_EN
     true, (by decide +kernel)⟩,
   ⟨0, 996999999, (locked devPart).modPart 0 (fun x => { x with resetAt := some 996999999 }), (by decide +kernel)⟩,
   ⟨1, dev, (by decide +kernel)⟩,
   ⟨1, onBlock, (by decide +kernel)⟩,
   ⟨1, onBlock, (by decide +kernel)⟩,
   ⟨1, { devPart with ctxs := [(1, ctxOne)] }, (by decide +kernel)⟩,
   ⟨1, onBlock, 0, (by decide +kernel)⟩,
   ⟨1, incomingDev .idle, 0, (by decide +kernel)⟩,
   ⟨1, incomingDev .restoring, 0, (by decide +kernel)⟩,
   ⟨1, onBlock, 1, (by decide +kernel)⟩,
   ⟨1, onBlock, 2, (by decide +kernel)⟩,
   ⟨1, withQueue queueFive, 5, (by decide +kernel)⟩,
   ⟨1, onBlock, 5, (by decide +kernel)⟩,
   ⟨1, onBlock, (by decide +kernel)⟩,
   ⟨1, onBlock.setPort 3 [⟨pktOne 1 512 7, 0, none, none, false⟩], 3, ⟨pktOne 1 512 7, 0, none, none, false⟩,
     (by decide +kernel)⟩,
   ⟨1, onBlock.setPort 3 [⟨pktOne 1 512 7, 0, none, none, false⟩], 3, ⟨pktOne 1 512 7, 0, none, none, false⟩,
     (by decide +kernel)⟩,
   ⟨1, onBlock, 5, (by decide +kernel)⟩,
   ⟨1, coilDev 3 (coilPkt 0 5), 0, (by decide +kernel)⟩,
   ⟨1, fullQuar, (by decide +kernel)⟩,
   ⟨1, onBlock, (by decide +kernel)⟩,
   ⟨1, onBlock, 0, (by decide +kernel)⟩,
   ⟨1, { onBlock with moves := [moveVirt] }, moveVirt, 0, 2 ^ 21 + 0x2000, (by decide +kernel), (by decide +kernel),
     (by decide +kernel), (by decide +kernel), (by decide +kernel), (by decide +kernel), (xok_eq (by decide +kernel))⟩,
   ⟨1, withOp (opOne 2 false), 7, opOne 2 false, 2 ^ 21 + 0x8000, (by decide +kernel), (by decide +kernel),
     (by decide +kernel), (xok_eq (by decide +kernel))⟩⟩

/-- The hypotheses of `Obligations.WeaveAtIssueAndAcceptance`, clause by clause. -/
theorem witness_WeaveAtIssueAndAcceptance :
    (∃ (b : Nat) (f : Bool) (w : Word) (s : State), s.issues b f ∧ weaveChecks w (BitVec.toNat (s.sreg b f (wSb w))) {
        f := f, ticket := wBits w 36 32, rows := wBits w 31 24 + 1, slot := wBits w 23 17, wfmt := wBits w 16 12,
        sfmt := wBits w 11 7, aset := wBits w 6 6, acc := BitVec.getLsbD w 5, skip := BitVec.getLsbD w 4,
        wide := BitVec.getLsbD w 3, kg := bits (BitVec.toNat (s.sreg b f (wSb w))) 19 16 + 1,
        nc := bits (BitVec.toNat (s.sreg b f (wSb w))) 14 8 + 1, row0 := bits (BitVec.toNat (s.sreg b f (wSb w))) 7 0,
        sig := BitVec.toNat (s.sreg b f (wBits w 46 42)), exp := BitVec.toNat (s.sreg b f (wBits w 51 47)),
        order := (s.bst b).order } = none ∧ (s.bst b).aq.length < 4 ∧ s.ticketBusy b f (wBits w 36 32) = false) ∧
    (∃ (b : Nat) (f : Bool) (w : Word) (s : State), s.issues b f ∧ weaveChecks w (BitVec.toNat (s.sreg b f (wSb w))) {
        f := f, ticket := wBits w 36 32, rows := wBits w 31 24 + 1, slot := wBits w 23 17, wfmt := wBits w 16 12,
        sfmt := wBits w 11 7, aset := wBits w 6 6, acc := BitVec.getLsbD w 5, skip := BitVec.getLsbD w 4,
        wide := BitVec.getLsbD w 3, kg := bits (BitVec.toNat (s.sreg b f (wSb w))) 19 16 + 1,
        nc := bits (BitVec.toNat (s.sreg b f (wSb w))) 14 8 + 1, row0 := bits (BitVec.toNat (s.sreg b f (wSb w))) 7 0,
        sig := BitVec.toNat (s.sreg b f (wBits w 46 42)), exp := BitVec.toNat (s.sreg b f (wBits w 51 47)),
        order := (s.bst b).order } = none ∧ (4 ≤ (s.bst b).aq.length ∨ s.ticketBusy b f (wBits w 36 32) = true)) ∧
    (∃ (b : Nat) (f : Bool) (w : Word) (s : State) (e : Nat), s.issues b f ∧ weaveChecks w (BitVec.toNat (s.sreg b f (wSb w)))
      {
        f := f, ticket := wBits w 36 32, rows := wBits w 31 24 + 1, slot := wBits w 23 17, wfmt := wBits w 16 12,
        sfmt := wBits w 11 7, aset := wBits w 6 6, acc := BitVec.getLsbD w 5, skip := BitVec.getLsbD w 4,
        wide := BitVec.getLsbD w 3, kg := bits (BitVec.toNat (s.sreg b f (wSb w))) 19 16 + 1,
        nc := bits (BitVec.toNat (s.sreg b f (wSb w))) 14 8 + 1, row0 := bits (BitVec.toNat (s.sreg b f (wSb w))) 7 0,
        sig := BitVec.toNat (s.sreg b f (wBits w 46 42)), exp := BitVec.toNat (s.sreg b f (wBits w 51 47)),
        order := (s.bst b).order } = some e) ∧
    (∃ (b : Nat) (s : State) (o : WeaveOp) (rest : List WeaveOp), s.arrayRuns b = true ∧ s.unitsHalt b = false ∧ (s.bst b).run
      = none ∧ (s.bst b).aq = o :: rest ∧ ((s.bst b).sq.any fun (q : StakeOp) => decide (q.order < o.order) && o.names q.slot
      q.count) = false ∧ (s.bst b).slotCheck o.slot o.sfmt = none) ∧
    (∃ (b : Nat) (s : State) (o : WeaveOp) (rest : List WeaveOp) (e : Nat), s.arrayRuns b = true ∧ s.unitsHalt b = false ∧
      (s.bst b).run = none ∧ (s.bst b).aq = o :: rest ∧ ((s.bst b).sq.any fun (q : StakeOp) => decide (q.order < o.order) &&
      o.names q.slot q.count) = false ∧ (s.bst b).slotCheck o.slot o.sfmt = some e) :=
  ⟨⟨0, false, BitVec.ofNat 64 (2 ^ 62 + 2 * 2 ^ 12 + 2 * 2 ^ 7 + 2 ^ 42), onBlock,
  (by unfold State.issues State.quiet; decide +kernel)⟩,
   ⟨0, false, BitVec.ofNat 64 (2 ^ 62 + 2 * 2 ^ 12 + 2 * 2 ^ 7 + 2 ^ 42), onBlockWith (fun x =>
     { x with aq := List.replicate 4 opTwo }), (by unfold State.issues State.quiet; decide +kernel)⟩,
   ⟨0, true, BitVec.ofNat 64 (2 ^ 62 + 2 * 2 ^ 12 + 2 * 2 ^ 7 + 2 ^ 42) + 1, onFill, FIELD_INVALID,
     (by unfold State.issues State.quiet; decide +kernel)⟩,
   ⟨0, onBlockWith (fun x => { x with aq := [opTwo], origin := [(0, { Origin.reset with st := .valid })] }), opTwo, [],
     (by decide +kernel)⟩,
   ⟨0, onBlockWith (fun x => { x with aq := [opTwo] }), opTwo, [], STAKE_EMPTY, (by decide +kernel)⟩⟩

/-! ### Which commands are well formed -/

/-- An add of block 5 in its FILL set is well formed. -/
theorem test_wf_add : (Instr.add 5 true 0x0000886000000000).wf = true := by decide

/-- The greatest number of each kind is well formed. -/
theorem test_wf_bounds : [Instr.ptpMessage 1 65535 false 0 0, .triggerArm .operator .mgmt0 (some 3) 255 0, .pageWalk 4095 0 ⟨.read, .context⟩,
    .hbmReread (2 ^ 39 - 1) 3 ⟨false, 0, .companion⟩, .frameTestDone 7 true true, .dirtyClear .driver .josil 1 3814 0, .doorbellWrite .driver .josil 32767 0,
    .portMapWrite .operator .mgmt1 3 11 0, .coilOpen .operator .mgmt1 15 0, .echo (List.replicate 24 0), .helloSend 35, .wdSchedHeartbeat 3,
    .jslDetectEnd 65535, .thermalSample (List.replicate 64 0), .holdover 37].all Instr.wf = true := by decide

/-- There is no block 128. -/
theorem test_wf_block : (Instr.add 128 false 0x0000886000000000).wf = false ∧ (Instr.weaveAccept 128).wf = false := by decide

/-- The word of a SUB is no ADD. -/
theorem test_wf_opcode : (Instr.add 0 false 0x0010886000000000).wf = false := by decide

/-- MOVE.NC has two minor opcodes, and no more. -/
theorem test_wf_moveNc : (Instr.moveNc 0 false 0xB020886000000000).wf = true ∧ (Instr.moveNc 0 false 0xB030886000000000).wf = true ∧
    (Instr.moveNc 0 false 0xB010886000000000).wf = false := by decide

/-- A word that is an instruction is no illegal one. -/
theorem test_wf_illegal : (Instr.illegalInstruction 0 false 0x0000886000000000).wf = false ∧
    (Instr.illegalInstruction 0 false 0xFC00000000000000).wf = true := by decide

/-- Arbiters, readers and requesters that no device has. -/
theorem test_wf_arbiters : [Instr.arbDecision (.chip 17) [], .arbDecision (.region 4 0) [], .arbDecision (.cell 0 16 false) [],
    .arbDecision (.chip 0) [⟨[⟨.chip 0, 64, 0, 1⟩], 0⟩], .arbDecision (.chip 0) [⟨[⟨.chip 0, 1, 0, 0⟩], 0⟩], .hbmReread 0 0 ⟨false, 0, .core 128 false 0⟩,
    .hbmReread (2 ^ 39) 0 ⟨false, 0, .companion⟩, .hbmReread 0 4 ⟨false, 0, .companion⟩].all
      (fun i => !i.wf) = true := by decide +kernel

/-- A packet of no bytes. -/
def pkt0 : Pkt := ⟨1, 0, 0, 0, 0, false, 0, 0, 0, 0, []⟩

/-- Packets, frames and HELLOs with a field too wide. -/
theorem test_wf_frames : [Instr.writePacket 0 { pkt0 with dst := 65536 }, .writePacket 0 { pkt0 with data := List.replicate 257 0 }, .writePacket 37 pkt0,
    .dataFrame 36 ⟨0, 0, false, false, 0, 0, 0, []⟩, .dataFrame 0 ⟨2 ^ 24, 0, false, false, 0, 0, 0, []⟩,
    .dataFrame 0 ⟨0, 0, false, false, 0, 0, 0, [{ pkt0 with ptype := 256 }]⟩, .hello 0 ⟨⟨0, false⟩, ⟨0, 256, false, false, 0, 0, 0, 0, 0, 0, 0, 0, 0, 0⟩⟩].all
      (fun i => !i.wf) = true := by decide +kernel

/-- Josil headers with a field too wide, data of another length than the header's, and flits that are not 256 bytes. -/
theorem test_wf_josil : [Instr.cmp ⟨256, false, false, false, false, 0, 0, 0, 0, 0⟩, .cmpData ⟨16, false, false, false, false, 4, 0, 0, 0, 0⟩ [],
    .flitReceive ⟨[], true⟩, .flitReceive ⟨List.replicate 255 0, true⟩,
    .jslTimeout 65536, .jslLaneFecLoss 16, .jslRetrainDone [] [], .jslDetectEnd 65536].all (fun i => !i.wf) = true := by decide +kernel

/-- Indices one past the greatest. -/
theorem test_wf_indices : [Instr.ptpMessage 2 0 false 0 0, .triggerArm .operator .mgmt0 (some 4) 0 0, .triggerFire none 256, .pageWalk (4096 * 256) 0 ⟨.read, .context⟩,
    .frameTestDone 8 true true, .dirtyClear .driver .josil 2 0 0, .dirtyClear .driver .josil 0 3815 0, .doorbellWrite .driver .josil 32768 0,
    .chooseIdle 16, .portMapWrite .operator .mgmt0 4 0 0, .coilEnable .operator .mgmt0 16 0, .regulatorPoll 9 true 0 0 0, .railOrderFault 9,
    .hbmTrainFailed 8, .plaitWaitEnd 4096, .thermalSample [], .echo [], .registerWrite .driver .josil 4 0, .holdover 38].all
      (fun i => !i.wf) = true := by decide +kernel

/-! ### Words of the block core, from the tables of the chapters -/

/-- ADD s1, s2, s3: major and minor 0, DST 1, SA 2, SB 3. -/
theorem test_decode_add : decodeCore 0 false 0x0000886000000000 = .add 0 false 0x0000886000000000 := by decide +kernel

/-- BGEU s1, s4 with offset -3. -/
theorem test_decode_bgeu : decodeCore 0 true 0x20500C9FFFFFFFFD = .bgeu 0 true 0x20500C9FFFFFFFFD := by decide +kernel

/-- The encoding example of WEAVE. -/
theorem test_decode_weave : decodeCore 7 false 0x4005A983FF0A2260 = .weave 7 false 0x4005A983FF0A2260 := by decide +kernel

/-- STAKE.LD, a VADD, a VFMA, a VCVT, a VST and a TW.SUM. -/
theorem test_decode_engines :
    decodeCore 0 false 0x4400044000000000 = .stakeLd 0 false 0x4400044000000000 ∧ decodeCore 0 false 0x6400000000000000 = .vadd 0 false 0x6400000000000000 ∧
    decodeCore 0 false 0x6800000000000000 = .vfma 0 false 0x6800000000000000 ∧ decodeCore 0 false 0x7400000000000000 = .vcvt 0 false 0x7400000000000000 ∧
    decodeCore 0 false 0x8010000000000000 = .vst 0 false 0x8010000000000000 ∧ decodeCore 0 false 0xA000000000000000 = .twSum 0 false 0xA000000000000000 := by
  decide +kernel

/-- MOVE and PLAIT.HREL. -/
theorem test_decode_moves : decodeCore 0 false 0xB000886000000000 = .move 0 false 0xB000886000000000 ∧
    decodeCore 0 false 0xC020140000000000 = .plaitHrel 0 false 0xC020140000000000 := by decide +kernel

/-- The encoding example of WAIT, and EXIT. -/
theorem test_decode_wait : decodeCore 0 false 0xD000000100000028 = .wait 0 false 0xD000000100000028 ∧
    decodeCore 0 false 0xE000040000000000 = .exit 0 false 0xE000040000000000 := by decide +kernel

/-- A minor opcode and majors that no chapter defines. -/
theorem test_decode_illegal : decodeCore 0 false 0x0180000000000000 = .illegalInstruction 0 false 0x0180000000000000 ∧
    decodeCore 0 false 0x2400000000000000 = .illegalInstruction 0 false 0x2400000000000000 ∧
    decodeCore 0 false 0xFC00000000000000 = .illegalInstruction 0 false 0xFC00000000000000 := by decide +kernel

/-! ### The spec's worked examples -/

/-- The weaver group of the worked example of chapter 3: E2M1 codes 7, 9, 3 and 0, repeated, with scale 2^-2. -/
def exampleWeaver : List FVal := (List.replicate 8 [7, 9, 3, 0]).flatten.map fun c => (smallVal 2 1 1 c).mul (.fin false 1 (-2))

/-- The stake of the same example. -/
def exampleStake : List Group := (List.range 16).map fun g => ⟨0x85 - 2 * g, (List.replicate 8 [10, 100, -3, 77]).flatten⟩

/-- ref_group() of the example. -/
def exampleSum : FVal := refGroup 6 8 (List.replicate 16 (reblock 6 exampleWeaver).1) exampleStake

/-- Chapter 3: the group re-blocked into SP6. -/
theorem test_reblock_example : (reblock 6 exampleWeaver).1 = ⟨0x7F, (List.replicate 8 [24, -2, 6, 0]).flatten⟩ := by decide +kernel

/-- Chapter 3: the entry in overwrite mode. -/
theorem test_update_overwrite : (updateEntry f32 0 exampleSum true).1 = 0x416AAAAB := by decide +kernel

/-- Chapter 3: the entry that holds -14 (0xC1600000) in accumulate mode. -/
theorem test_update_accumulate : (updateEntry f32 0xC1600000 exampleSum false).1 = 0x3F2AAAAB := by decide +kernel

/-- Chapter 4: significands from 0 to 15 leave planes 4 to 7 of SP8 zero; one of -1 sets every plane. -/
theorem test_active_planes : activePlanes 8 [⟨127, List.replicate 32 15⟩] = 4 ∧ activePlanes 8 [⟨127, [15, -1]⟩] = 8 ∧
    activePlanes 8 [⟨127, List.replicate 32 0⟩] = 0 := by decide +kernel

/-- Chapter 9: the address of the worked example lies in stack 3. -/
theorem test_locate_example : State.reset.locate 0x1234589AC0 = (3, 0x2468B13C0) := by decide +kernel

/-- Chapter 13: 44 heads of 128 elements over 6 ranks. -/
theorem test_unit_counts : unitCounts 6 44 128 = [1024, 1024, 896, 896, 896, 896] := by decide

/-- Chapter 14: the parity of page 20 of member 5 of 16. -/
theorem test_parity_home : parityHome 16 5 20 = (13, 3) := by decide

/-- The training sets of the example of chapter 16: lanes reversed, lane 10 inverted, lane 3 open. -/
def exampleLanes : List (List Byte) := (List.range 16).map fun p =>
  let l := TrainSet.bytes ⟨15 - p, 1, 0xEFFF, 8⟩
  if p = 10 then l.map (~~~ ·) else l

/-- Chapter 16: the lanes found, and the width chosen. -/
theorem test_lanes_example : alignLanes (fun p => p == 3) exampleLanes = ⟨true, 0x400, 0xEFFF, some ⟨15, 1, 0xEFFF, 8⟩⟩ ∧
    chosenLanes 0xEFFF = [0, 1, 2, 3, 4, 5, 6, 7] := by decide +kernel

/-- CRC-32C of the nine digits, the check value that its standard gives. -/
theorem test_crc32c : crc32c [0x31, 0x32, 0x33, 0x34, 0x35, 0x36, 0x37, 0x38, 0x39] = 0xE3069283 := by decide +kernel

/-- SHAKE256 of the empty string begins as its standard says. -/
theorem test_shake256 : shake256 [] 8 = [0x46, 0xB9, 0xDD, 0x2B, 0x0B, 0xA8, 0x8D, 0x13] := by decide +kernel

/-! ### Single steps -/

/-- The next state that an outcome answers. -/
def answer (o : Host.Outcome State Fault Refusal) : Option State := match o with | .next t => some t | _ => none

/-- The device on which an ADD adds 7 and 8. -/
def addState : State := onBlockWith fun x => { x with main := { taskSet with s := [(2, 7), (3, 8)] } }

/-- An ADD of 7 and 8: the sum is in s1 and the set is 8 bytes on. -/
theorem test_step_add :
    ((answer (exec (.add 0 false 0x0000886000000000) addState)).map fun t => (t.sreg 0 false 1, (t.cset 0 false).pc)) = some (15, 0x1008) := by
  have h : addState.issues 0 false := by unfold State.issues State.quiet; decide +kernel
  simp only [exec, execAdd, State.aluRR, State.issueAlu, issue_issues _ _ _ _ _ h]
  decide +kernel

/-- The device on which a DIVU divides 9 by 0. -/
def divState : State := onBlockWith fun x => { x with main := { taskSet with s := [(30, 9)] } }

/-- DIVU by zero gives all ones (R166). -/
theorem test_step_divu : ((answer (exec (.divu 0 false 0x00EFFBA000000000) divState)).map fun t => t.sreg 0 false 31) = some (BitVec.allOnes 64) := by
  have h : divState.issues 0 false := by unfold State.issues State.quiet; decide +kernel
  simp only [exec, execDivu, State.aluRR, State.issueAlu, issue_issues _ _ _ _ _ h]
  decide +kernel

/-- The class of a write is that of its path (R492). -/
theorem test_wf_paths : (Instr.registerWrite .operator .josil 0 0).wf = false ∧ (Instr.registerWrite .driver .josil 0 0).wf = true ∧
    (Instr.registerWrite .debug .debugPort 0 0).wf = true := by decide

/-- A full reset of a running device leaves nothing powered. -/
theorem test_step_fullReset : ((answer (step { onBlock with pending := [.fullReset] })).map fun t => (t.powered, t.pending, t.ctxs)) =
    some (false, [], []) := by decide +kernel

/-- A step with an empty queue is one clk. -/
theorem test_step_idle : ((answer (step onBlock)).map fun t => (t.clk, t.pending)) = some (onBlock.clk + 1, []) := by decide +kernel

end Sys2Proof.Tests
end

/-!
PROOFS. The block core: counters that saturate, integer arithmetic, reserved fields and block-local accesses (R163 to R169, R199).
-/

namespace Sys2Proof.Proofs.BlockCore

open Sys2Proof.Machine

/-! ### Counters (R199) -/

theorem fld_lt (s : State) (f : Fld) : s.fld f < 2 ^ (f.hi + 1 - f.lo) := Nat.mod_lt _ (Nat.two_pow_pos _)

/-- A counter field holds the sum, or its largest value. -/
theorem fld_count_same (s : State) (f : Fld) (k : Nat) (h : f.lo ≤ f.hi) (hh : f.hi < 64) :
    (s.count f k).fld f = Nat.min (s.fld f + k) (2 ^ (f.hi + 1 - f.lo) - 1) := by
  rw [State.count, fld_setFld_same s f _ h hh]
  have hmin : Nat.min (s.fld f + k) (2 ^ (f.hi + 1 - f.lo) - 1) ≤ 2 ^ (f.hi + 1 - f.lo) - 1 := Nat.min_le_right _ _
  exact Nat.mod_eq_of_lt (Nat.lt_of_le_pred (Nat.two_pow_pos _) hmin)

/-- Counting never lowers the field. -/
theorem fld_le_fld_count (s : State) (f : Fld) (k : Nat) (h : f.lo ≤ f.hi) (hh : f.hi < 64) :
    s.fld f ≤ (s.count f k).fld f := by
  rw [fld_count_same s f k h hh]
  exact Nat.le_min.2 ⟨Nat.le_add_right _ _, Nat.le_pred_of_lt (fld_lt s f)⟩

/-- A store to a field leaves the other bits of its register. -/
theorem getLsbD_setFld_outside (s : State) (f : Fld) (v : Nat) (h : f.lo ≤ f.hi) (hh : f.hi < 64) {i : Nat}
    (hi : i < f.lo ∨ f.hi < i) : ((s.setFld f v).reg f.off).getLsbD i = (s.reg f.off).getLsbD i := by
  unfold State.setFld
  rw [reg_setReg_same, BitVec.getLsbD, BitVec.toNat_ofNat, Nat.mod_eq_of_lt (withBits_lt v (s.reg f.off).isLt h hh),
    testBit_withBits _ _ h, if_neg (by omega)]
  rfl

/-- The counter fields of CORE_RETIRED and CORE_COUNT. -/
def coreCounters (b : Nat) : List Fld :=
  [BLK_CORE_RETIRED_COUNT b, BLK_CORE_COUNT_TRANSIENT b, BLK_CORE_COUNT_PARITY b, BLK_CORE_COUNT_REEXEC b, BLK_CORE_COUNT_REFETCH b]

/-- Every one of them is a field of its 64-bit register. -/
theorem coreCounters_fit (b : Nat) : ∀ f ∈ coreCounters b, f.lo ≤ f.hi ∧ f.hi < 64 := by
  simp [coreCounters, BLK_CORE_RETIRED_COUNT, BLK_CORE_COUNT_TRANSIENT, BLK_CORE_COUNT_PARITY, BLK_CORE_COUNT_REEXEC,
    BLK_CORE_COUNT_REFETCH]

/-- Settles O13: a count is one store to its field, of a value that saturates. -/
theorem countersSaturate : Obligations.CountersSaturate := by
  intro b k s f hf
  obtain ⟨hlo, hhi⟩ := coreCounters_fit b f hf
  exact ⟨fld_count_same s f k hlo hhi, fld_le_fld_count s f k hlo hhi, fun _ ho => reg_setFld_ne s f _ ho,
    fun _ hi => getLsbD_setFld_outside s f _ hlo hhi hi, rfl⟩

/-! ### What an instruction that issues comes to -/

section Issue

variable {s : State} {b : Nat} {f : Bool} {w : Word} {body : State → Act} (h : s.issues b f)
include h

theorem quiet_of_issues : s.quiet := by
  obtain ⟨-, -, hq, -⟩ := h
  exact hq

theorem coreFails_of_issues : (s.blk b).coreFails = 0 := by
  obtain ⟨-, -, -, h0⟩ := h
  exact h0

theorem issue_faults {e : Nat} (hb : body (s.clocked b f) = .fault (s.clocked b f) e) :
    s.issue b f w body = s.faulted b f w e := by
  rw [issue_issues _ _ _ _ _ h, hb, settle_fault]

theorem issueAlu_faults {e : Nat} (hb : body (s.clocked b f) = .fault (s.clocked b f) e) :
    s.issueAlu b f w body = s.faulted b f w e := by
  rw [issueAlu_issues _ _ _ _ _ h, hb, settle_fault]

theorem issueFpu_faults {e : Nat} (hb : body (s.clocked b f) = .fault (s.clocked b f) e) :
    s.issueFpu b f w body = s.faulted b f w e := by
  rw [issueFpu_issues _ _ _ _ _ h, hb, settle_fault]

theorem issue_writes {d : Nat} {v : Word} (hb : body (s.clocked b f) = .retire ((s.clocked b f).setSreg b f d v)) :
    s.issue b f w body = s.wrote b f d v := by
  rw [issue_issues _ _ _ _ _ h, hb, settle_setSreg _ _ _ _ _ _ h]

theorem issueAlu_writes {d : Nat} {v : Word} (hb : body (s.clocked b f) = .retire ((s.clocked b f).setSreg b f d v)) :
    s.issueAlu b f w body = s.wrote b f d v := by
  rw [issueAlu_issues _ _ _ _ _ h, hb, settle_setSreg _ _ _ _ _ _ h]

end Issue

/-! ### Integer arithmetic (R167) -/

/-- The integer instructions on two registers, each with the model's operation. -/
def regOps : List ((Nat → Bool → Word → Instr) × (Word → Word → Word)) :=
  [(.add, opAdd), (.sub, opSub), (.and, opAnd), (.or, opOr), (.xor, opXor), (.sll, opSll), (.srl, opSrl), (.sra, opSra),
    (.slt, opSlt), (.sltu, opSltu), (.mul, opMul), (.mulh, opMulh), (.mulhu, opMulhu), (.div, divS), (.divu, divU),
    (.rem, remS), (.remu, remU), (.min, opMin), (.max, opMax), (.minu, opMinu), (.maxu, opMaxu)]

/-- The integer instructions on one register. -/
def unaryOps : List ((Nat → Bool → Word → Instr) × (Word → Word)) :=
  [(.clz, countLeading), (.ctz, countTrailing), (.popc, countOnes)]

/-- The integer instructions on a register and an immediate, each with the model's operation. -/
def immOps : List ((Nat → Bool → Word → Instr) × (Word → Word → Word)) :=
  [(.addi, opAdd), (.andi, opAnd), (.ori, opOr), (.xori, opXor), (.slli, opSll), (.srli, opSrl), (.srai, opSra),
    (.slti, opSlt), (.sltiu, opSltu)]

theorem exec_regOps : ∀ p ∈ regOps, ∀ b f w s, exec (p.1 b f w) s = .next (s.aluRR b f w false p.2) := by
  unfold regOps
  repeat refine List.forall_mem_cons.2 ⟨fun _ _ _ _ => rfl, ?_⟩
  exact List.forall_mem_nil _

theorem exec_unaryOps : ∀ p ∈ unaryOps, ∀ b f w s, exec (p.1 b f w) s = .next (s.aluRR b f w true fun x _ => p.2 x) := by
  unfold unaryOps
  repeat refine List.forall_mem_cons.2 ⟨fun _ _ _ _ => rfl, ?_⟩
  exact List.forall_mem_nil _

theorem exec_immOps : ∀ p ∈ immOps, ∀ b f w s, exec (p.1 b f w) s = .next (s.aluRI b f w p.2) := by
  unfold immOps
  repeat refine List.forall_mem_cons.2 ⟨fun _ _ _ _ => rfl, ?_⟩
  exact List.forall_mem_nil _

section Alu

variable {s : State} {b : Nat} {f : Bool} {w : Word} (h : s.issues b f)
include h

theorem aluRR_writes {unary : Bool} {op : Word → Word → Word} (hi : wImm w = 0) (hu : unary = true → wSb w = 0) :
    s.aluRR b f w unary op = s.wrote b f (wDst w) (op (s.sreg b f (wSa w)) (s.sreg b f (wSb w))) := by
  refine issueAlu_writes h ?_
  cases unary
  · simp [hi]
  · simp [hi, hu rfl]

theorem aluRI_writes {op : Word → Word → Word} (hb : wSb w = 0) :
    s.aluRI b f w op = s.wrote b f (wDst w) (op (s.sreg b f (wSa w)) (wSimm w)) :=
  issueAlu_writes h (by simp [hb])

theorem exec_unaryOps_writes {p : (Nat → Bool → Word → Instr) × (Word → Word)} (hp : p ∈ unaryOps) (hi : wImm w = 0)
    (hb : wSb w = 0) : exec (p.1 b f w) s = .next (s.wrote b f (wDst w) (p.2 (s.sreg b f (wSa w)))) := by
  rw [exec_unaryOps p hp, aluRR_writes h hi fun _ => hb]

theorem exec_movi (ha : wSa w = 0) (hb : wSb w = 0) : exec (.movi b f w) s = .next (s.wrote b f (wDst w) (wSimm w)) :=
  congrArg _ (issueAlu_writes h (by simp [ha, hb]))

theorem exec_movhi (hb : wSb w = 0) (hr : wBits w 36 27 = 0) :
    exec (.movhi b f w) s = .next (s.wrote b f (wDst w)
      (BitVec.ofNat 64 (wBits w 26 0 * 2 ^ 37 + (s.sreg b f (wSa w)).toNat % 2 ^ 37))) :=
  congrArg _ (issueAlu_writes h (by simp [hb, hr]))

end Alu

/-- The number of bits of a word is 64 at most. -/
theorem bitLen_le (x : Word) : bitLen x.toNat ≤ 64 := by
  unfold bitLen
  split
  · exact Nat.zero_le _
  · next h => exact (Nat.log2_lt h).2 x.isLt

/-- No bit at or above the length is one. -/
theorem getLsbD_of_bitLen_le {x : Word} {i : Nat} (hi : bitLen x.toNat ≤ i) : x.getLsbD i = false := by
  unfold bitLen at hi
  split at hi
  · next h => simp [BitVec.getLsbD, h]
  · next h => exact Nat.testBit_lt_two_pow ((Nat.log2_lt h).1 hi)

/-- The bit below the length is one. -/
theorem getLsbD_bitLen_pred {x : Word} (h : 0 < bitLen x.toNat) : x.getLsbD (bitLen x.toNat - 1) = true := by
  unfold bitLen at h ⊢
  split at h
  · cases h
  · next hx => rw [if_neg hx]; exact Nat.testBit_log2 hx

/-- CLZ counts the zero bits above the highest one bit. -/
theorem countLeading_spec (x : Word) : ∃ n, n ≤ 64 ∧ countLeading x = BitVec.ofNat 64 n ∧
    (∀ i, 64 - n ≤ i → x.getLsbD i = false) ∧ (n < 64 → x.getLsbD (63 - n) = true) := by
  have hle := bitLen_le x
  refine ⟨64 - bitLen x.toNat, Nat.sub_le _ _, rfl, fun i hi => getLsbD_of_bitLen_le (by omega), fun hn => ?_⟩
  rw [show 63 - (64 - bitLen x.toNat) = bitLen x.toNat - 1 by omega]
  exact getLsbD_bitLen_pred (by omega)

/-- CTZ counts the zero bits below the lowest one bit. -/
theorem countTrailing_spec (x : Word) : ∃ n, n ≤ 64 ∧ countTrailing x = BitVec.ofNat 64 n ∧
    (∀ i, i < n → x.getLsbD i = false) ∧ (n < 64 → x.getLsbD n = true) := by
  unfold countTrailing
  cases hf : (List.range 64).find? fun i => x.getLsbD i with
  | none =>
    rw [List.find?_range_eq_none] at hf
    exact ⟨64, Nat.le_refl _, rfl, fun i hi => by simpa using hf i hi, fun hn => absurd hn (Nat.lt_irrefl _)⟩
  | some n =>
    obtain ⟨hone, hmem, hzero⟩ := List.find?_range_eq_some.1 hf
    exact ⟨n, Nat.le_of_lt (List.mem_range.1 hmem), rfl, fun i hi => by simpa using hzero i hi, fun _ => hone⟩

/-- Settles O1: each instruction is `aluRR` or `aluRI` of its operation, which writes the result where no reserved field is set. -/
theorem integerArithmetic : Obligations.IntegerArithmetic := by
  refine ⟨fun p hp b f w s h hi => ?_, fun b f w s h hi hb => ⟨?_, ?_, ?_⟩, fun p hp b f w s h hb => ?_, ?_, ?_⟩
  · rw [exec_regOps p hp, aluRR_writes h hi (by simp)]
  · obtain ⟨n, hn, hv, hbits⟩ := countLeading_spec (s.sreg b f (wSa w))
    exact ⟨n, hn, hv ▸ exec_unaryOps_writes h (p := (.clz, countLeading)) (by simp [unaryOps]) hi hb, hbits⟩
  · obtain ⟨n, hn, hv, hbits⟩ := countTrailing_spec (s.sreg b f (wSa w))
    exact ⟨n, hn, hv ▸ exec_unaryOps_writes h (p := (.ctz, countTrailing)) (by simp [unaryOps]) hi hb, hbits⟩
  · exact exec_unaryOps_writes h (p := (.popc, countOnes)) (by simp [unaryOps]) hi hb
  · rw [exec_immOps p hp, aluRI_writes h hb]
    rfl
  · exact fun b f w s h ha hb => exec_movi h ha hb
  · exact fun b f w s h hb hr => exec_movhi h hb hr

/-! ### Reserved fields (R163) -/

/-- The places of the fields of a word, as (high bit, low bit) (R160). -/
abbrev dstBits : Nat × Nat := (51, 47)
abbrev saBits : Nat × Nat := (46, 42)
abbrev sbBits : Nat × Nat := (41, 37)
abbrev immBits : Nat × Nat := (36, 0)

@[simp] theorem wBits_dst (w : Word) : wBits w 51 47 = wDst w := rfl
@[simp] theorem wBits_sa (w : Word) : wBits w 46 42 = wSa w := rfl
@[simp] theorem wBits_sb (w : Word) : wBits w 41 37 = wSb w := rfl
@[simp] theorem wBits_imm (w : Word) : wBits w 36 0 = wImm w := rfl

/-- An instruction with the fields of its word that are RSV. -/
abbrev ReservedRow := (Nat → Bool → Word → Instr) × List (Nat × Nat)

/-- An instruction raises CORE_FIELD_INVALID, and does nothing else, where a field that is RSV is not 0. -/
def FaultsReserved (e : ReservedRow) : Prop :=
  ∀ (b : Nat) (f : Bool) (w : Word) (s : State), s.issues b f → (∃ r ∈ e.2, wBits w r.1 r.2 ≠ 0) →
    exec (e.1 b f w) s = .next (s.faulted b f w CORE_FIELD_INVALID)

section Checked

variable {s : State} {b : Nat} {f : Bool} {w : Word} (h : s.issues b f) {c : Prop} [Decidable c] (hc : c) (rest : State → Act)
include h hc

/-- The shape that the classes share: the body looks at the reserved fields first. -/
theorem issue_reserved :
    s.issue b f w (fun t => if c then .fault t CORE_FIELD_INVALID else rest t) = s.faulted b f w CORE_FIELD_INVALID :=
  issue_faults h (if_pos hc)

theorem issueAlu_reserved :
    s.issueAlu b f w (fun t => if c then .fault t CORE_FIELD_INVALID else rest t) = s.faulted b f w CORE_FIELD_INVALID :=
  issueAlu_faults h (if_pos hc)

theorem issueFpu_reserved :
    s.issueFpu b f w (fun t => if c then .fault t CORE_FIELD_INVALID else rest t) = s.faulted b f w CORE_FIELD_INVALID :=
  issueFpu_faults h (if_pos hc)

end Checked

theorem regOps_faultsReserved : ∀ p ∈ regOps, FaultsReserved (p.1, [immBits]) := by
  intro p hp b f w s h hr
  rw [exec_regOps p hp]
  exact congrArg _ (issueAlu_reserved h (by simpa using hr) _)

theorem unaryOps_faultsReserved : ∀ p ∈ unaryOps, FaultsReserved (p.1, [immBits, sbBits]) := by
  intro p hp b f w s h hr
  rw [exec_unaryOps p hp]
  exact congrArg _ (issueAlu_reserved h (by simpa using hr) _)

theorem immOps_faultsReserved : ∀ p ∈ immOps, FaultsReserved (p.1, [sbBits]) := by
  intro p hp b f w s h hr
  rw [exec_immOps p hp]
  exact congrArg _ (issueAlu_reserved h (by simpa using hr) _)

/-- MOVI and MOVHI with their reserved fields. -/
def moveRows : List ReservedRow := [(.movi, [saBits, sbBits]), (.movhi, [sbBits, (36, 27)])]

theorem moveRows_faultsReserved : ∀ e ∈ moveRows, FaultsReserved e := by
  unfold moveRows
  repeat refine List.forall_mem_cons.2 ⟨fun _ _ _ _ h hr => congrArg _ (issueAlu_reserved h (by simpa using hr) _), ?_⟩
  exact List.forall_mem_nil _

/-- The scalar floating-point instructions. -/
def fpInstrs : List (Nat → Bool → Word → Instr) :=
  [.fadd, .fsub, .fmul, .fdiv, .fsqrt, .fmin, .fmax, .fma, .fcmpEq, .fcmpLt, .fcmpLe, .fcvtI, .fcvtF, .fcvtP]

theorem fpInstrs_faultsReserved : ∀ c ∈ fpInstrs, FaultsReserved (c, [(36, 1)]) := by
  unfold fpInstrs
  repeat refine List.forall_mem_cons.2 ⟨fun _ _ _ _ h hr => congrArg _ (issueFpu_reserved h (by simpa using hr) _), ?_⟩
  exact List.forall_mem_nil _

/-- The block-local stores and the conditional branches: DST is RSV. -/
def noDstInstrs : List (Nat → Bool → Word → Instr) :=
  [.stlB, .stlH, .stlW, .stlD, .beq, .bne, .blt, .bge, .bltu, .bgeu]

theorem noDstInstrs_faultsReserved : ∀ c ∈ noDstInstrs, FaultsReserved (c, [dstBits]) := by
  unfold noDstInstrs
  repeat refine List.forall_mem_cons.2 ⟨fun _ _ _ _ h hr => congrArg _ (issue_reserved h (by simpa using hr) _), ?_⟩
  exact List.forall_mem_nil _

/-- The sync and system classes with their reserved fields (R176 to R185). -/
def syncRows : List ReservedRow :=
  [(.wait, [dstBits, sbBits, (36, 33)]), (.waitany, [sbBits, (36, 33)]), (.waitT, [(36, 33)]), (.tkst, [saBits, sbBits, (36, 5)]),
    (.ftnow, [saBits, sbBits, immBits]), (.ftwait, [sbBits, immBits]), (.ftstat, [saBits, sbBits, immBits]),
    (.exit, [dstBits, sbBits, immBits]), (.fence, [dstBits, saBits, sbBits, immBits]), (.csrr, [saBits, sbBits, (36, 8)]),
    (.csrw, [dstBits, sbBits, (36, 8)]), (.nop, [dstBits, saBits, sbBits, immBits]), (.brk, [dstBits, saBits, sbBits, immBits])]

theorem syncRows_faultsReserved : ∀ e ∈ syncRows, FaultsReserved e := by
  unfold syncRows
  repeat refine List.forall_mem_cons.2 ⟨fun _ _ _ _ h hr => congrArg _ (issue_reserved h (by simpa [or_assoc] using hr) _), ?_⟩
  exact List.forall_mem_nil _

/-- Every instruction of the scalar, sync and system classes that has reserved fields, with them. -/
def reservedRows : List ReservedRow :=
  regOps.map (fun p => (p.1, [immBits])) ++ unaryOps.map (fun p => (p.1, [immBits, sbBits])) ++
    immOps.map (fun p => (p.1, [sbBits])) ++ moveRows ++ fpInstrs.map (fun c => (c, [(36, 1)])) ++
    noDstInstrs.map (fun c => (c, [dstBits])) ++ syncRows

theorem reservedRows_faultsReserved : ∀ e ∈ reservedRows, FaultsReserved e := by
  simp only [reservedRows, List.forall_mem_append, List.forall_mem_map]
  exact ⟨⟨⟨⟨⟨⟨regOps_faultsReserved, unaryOps_faultsReserved⟩, immOps_faultsReserved⟩, moveRows_faultsReserved⟩,
    fpInstrs_faultsReserved⟩, noDstInstrs_faultsReserved⟩, syncRows_faultsReserved⟩

/-- The instructions in which a field is RSV. -/
def reserving (r : Nat × Nat) : List (Nat → Bool → Word → Instr) := (reservedRows.filter (·.2.contains r)).map (·.1)

theorem reserving_faults {r : Nat × Nat} {s : State} {b : Nat} {f : Bool} {w : Word} (h : s.issues b f)
    (hr : wBits w r.1 r.2 ≠ 0) : ∀ c ∈ reserving r, exec (c b f w) s = .next (s.faulted b f w CORE_FIELD_INVALID) := by
  intro c hc
  obtain ⟨e, he, rfl⟩ := List.mem_map.1 hc
  obtain ⟨hrow, hfield⟩ := List.mem_filter.1 he
  exact reservedRows_faultsReserved e hrow b f w s h ⟨r, List.contains_iff_mem.1 hfield, hr⟩

/-- A write to s0 leaves the set. -/
theorem wr_zero (x : CoreSet) (v : Word) : x.wr 0 v = x := rfl

theorem cset_setSreg_zero (s : State) (b : Nat) (f : Bool) (v : Word) (b' : Nat) (f' : Bool) :
    (s.setSreg b f 0 v).cset b' f' = s.cset b' f' := by
  by_cases hb : b' ≠ b ∨ f' ≠ f
  · exact cset_modSet_ne s _ hb
  · obtain ⟨rfl, rfl⟩ : b' = b ∧ f' = f := by simpa using hb
    exact (cset_modSet_same s b' f' _).trans (wr_zero _ v)

/-- `signed` reads the low bits as two's complement. -/
theorem signed_eq_toInt (n : Nat) (x : Word) (hn : 0 < n) : signed n x.toNat = (x.setWidth n).toInt := by
  obtain ⟨k, rfl⟩ := Nat.exists_eq_succ_of_ne_zero (Nat.ne_of_gt hn)
  have hp : 2 ^ (k + 1) = 2 * 2 ^ k := Nat.pow_succ'
  simp only [signed, BitVec.toInt, BitVec.toNat_setWidth, Nat.succ_eq_add_one, Nat.add_sub_cancel, hp,
    Nat.mul_lt_mul_left (Nat.two_pos)]

theorem wSimm_eq_signExtend (w : Word) : wSimm w = BitVec.signExtend 64 (w.setWidth 37) := by
  rw [wSimm, signed_eq_toInt 37 w (by decide)]
  rfl

/-- Settles O3: in each instruction the reserved fields are looked at first, so a field's list is a selection from `reservedRows`. -/
theorem reservedFieldsFault : Obligations.ReservedFieldsFault :=
  ⟨fun b f v s => ⟨rfl, cset_setSreg_zero s b f v⟩, wSimm_eq_signExtend, fun _ _ _ _ h =>
    ⟨reserving_faults (r := immBits) h, reserving_faults (r := sbBits) h, reserving_faults (r := saBits) h,
      reserving_faults (r := dstBits) h, reserving_faults (r := (36, 1)) h,
      fun hw => reserving_faults (r := (36, 27)) h hw .movhi (List.mem_singleton_self _), reserving_faults (r := (36, 33)) h,
      fun hw => reserving_faults (r := (36, 5)) h hw .tkst (List.mem_singleton_self _), reserving_faults (r := (36, 8)) h⟩⟩

/-! ### Block-local accesses (R164, R169) -/

/-- The bytes of an access lie in the spaces of R164. -/
def InSpaces (a n : Nat) : Prop := a + n ≤ 0x440000 ∨ 0x500000 ≤ a ∧ a + n ≤ 0x510000

theorem localRange_iff (a n : Nat) : localRange a n = true ↔ InSpaces a n := by
  simp only [localRange, Bool.or_eq_true, Bool.and_eq_true, decide_eq_true_eq]
  rfl

theorem localFault_of_unaligned {a n : Nat} (h : a % n ≠ 0) : localFault a n = some LOCAL_ADDR_ALIGN := if_pos h

theorem localFault_of_outside {a n : Nat} (h : a % n = 0) (hr : ¬ InSpaces a n) :
    localFault a n = some LOCAL_ADDR_RANGE := by
  rw [← localRange_iff, Bool.not_eq_true] at hr
  simp [localFault, h, hr]

theorem localFault_eq_none {a n : Nat} (h : a % n = 0) (hr : InSpaces a n) : localFault a n = none := by
  rw [← localRange_iff] at hr
  simp [localFault, h, hr]

/-- On a quiet device the checks of a block-local read find nothing. -/
theorem scratchCheck_quiet (s : State) (h : s.quiet) (b a : Nat) : s.scratchCheck b a = (none, s) := by
  unfold State.scratchCheck
  split
  · exact checkUnit_quiet s h _ _ _
  · rfl

theorem checkOps_quiet (s : State) (h : s.quiet) (b a n : Nat) : s.checkOps b a n = (false, s) := by
  unfold State.checkOps
  rw [checkUnit_quiet s h]
  split <;> rfl

theorem checkAcc_quiet (s : State) (h : s.quiet) (b a n : Nat) : s.checkAcc b a n = (false, s) := by
  unfold State.checkAcc
  rw [checkUnit_quiet s h]
  split <;> rfl

theorem readLocal_quiet (s : State) (h : s.quiet) {b a n : Nat} (hp : s.localPoisoned b a n = false) :
    s.readLocal b a n = (.ok (s.localBytes b a n), s) := by
  simp [State.readLocal, hp, checkOps_quiet s h, checkAcc_quiet s h]

@[simp] theorem byte_modSet (x : BlkState) (f : Bool) (g : CoreSet → CoreSet) (a : Nat) : (x.modSet f g).byte a = x.byte a := by
  simp [BlkState.byte]

@[simp] theorem linePoisoned_modSet (x : BlkState) (f : Bool) (g : CoreSet → CoreSet) (a : Nat) :
    (x.modSet f g).linePoisoned a = x.linePoisoned a := by
  simp [BlkState.linePoisoned]

@[simp] theorem localPoisoned_clocked (s : State) (b : Nat) (f : Bool) (a n : Nat) :
    (s.clocked b f).localPoisoned b a n = s.localPoisoned b a n := by
  simp [State.localPoisoned, bst_clocked]

@[simp] theorem localBytes_clocked (s : State) (b : Nat) (f : Bool) (a n : Nat) :
    (s.clocked b f).localBytes b a n = s.localBytes b a n := by
  simp [State.localBytes, bst_clocked]

@[simp] theorem effAddr_clocked (s : State) (b : Nat) (f : Bool) (w : Word) :
    (s.clocked b f).effAddr b f w = s.effAddr b f w := by
  simp [State.effAddr]

/-- Byte `i` of the bytes of a number. -/
theorem leBytes_getD {n i : Nat} (h : i < n) (v : Nat) : (leBytes v n).getD i 0 = BitVec.ofNat 8 (v / 2 ^ (8 * i)) := by
  induction n generalizing i v with
  | zero => cases h
  | succ n ih =>
    cases i with
    | zero => simp [leBytes]
    | succ i =>
      have hpow : 2 ^ (8 * (i + 1)) = 256 * 2 ^ (8 * i) := by rw [Nat.mul_add, Nat.pow_add, Nat.mul_comm]
      rw [leBytes, List.getD_cons_succ, ih (Nat.lt_of_succ_lt_succ h), Nat.div_div_eq_div_mul, hpow]

theorem length_leBytes (v n : Nat) : (leBytes v n).length = n := by
  induction n generalizing v with
  | zero => rfl
  | succ n ih => simp [leBytes, ih]

/-- A byte after a write: the byte written, or the one before. -/
theorem byte_write (x : BlkState) (a : Nat) (l : List Byte) (k : Nat) :
    (x.write a l).byte k = if a ≤ k ∧ k < a + l.length then l.getD (k - a) 0 else x.byte k :=
  get_putBytes l x.mem a k

/-- A write to block-local memory leaves every register set. -/
@[simp] theorem cset_writeLocal (s : State) (b a : Nat) (l : List Byte) (b' : Nat) (f' : Bool) :
    (s.writeLocal b a l).cset b' f' = s.cset b' f' := by
  by_cases hb : b' = b
  · subst hb
    cases f' <;> simp [State.cset, State.writeLocal, BlkState.set, BlkState.write]
  · simp [State.cset, State.writeLocal, bst_modBst_ne s _ hb]

/-! #### What retiring leaves -/

/-- The device without its blocks and its registers. -/
def rest (s : State) : State := { s with blks := [], regs := [] }

theorem rest_modBst (s : State) (b : Nat) (g : BlkState → BlkState) : rest (s.modBst b g) = rest s := rfl

theorem rest_count (s : State) (x : Fld) (k : Nat) : rest (s.count x k) = rest s := rfl

theorem sameHbm_of_rest {s t : State} (h : rest t = rest s) : s.sameHbm t :=
  ⟨fun a => show (rest t).hbmByte a = (rest s).hbmByte a by rw [h],
    fun a => show (rest t).hbmPoisoned a = (rest s).hbmPoisoned a by rw [h]⟩

section Retired

variable (s : State) (b : Nat) (f : Bool) (pc : Word)

theorem blk_retired_same : (s.retired b f pc).blk b =
    { s.blk b with st := (s.bst b).modSet f fun x => { x with pc := pc, retired := x.retired + 1, wait := .none } } := by
  rw [State.retired, blk_count, blk_modSet_same]

theorem blk_retired_ne {b' : Nat} (h : b' ≠ b) : (s.retired b f pc).blk b' = s.blk b' := by
  rw [State.retired, blk_count, blk_modSet_ne _ _ _ h]

theorem cset_retired_same : (s.retired b f pc).cset b f =
    { s.cset b f with pc := pc, retired := (s.cset b f).retired + 1, wait := .none } := by
  rw [State.retired, cset_count, cset_modSet_same]

theorem cset_retired_ne {b' : Nat} {f' : Bool} (h : b' ≠ b ∨ f' ≠ f) : (s.retired b f pc).cset b' f' = s.cset b' f' := by
  rw [State.retired, cset_count, cset_modSet_ne _ _ h]

theorem reg_retired_ne {o : Nat} (h : o ≠ BLK_CORE_RETIRED b) : (s.retired b f pc).reg o = s.reg o := by
  rw [State.retired, State.count, reg_setFld_ne _ (BLK_CORE_RETIRED_COUNT b) _ h, reg_modSet]

theorem rest_retired : rest (s.retired b f pc) = rest s := by
  rw [State.retired, rest_count, State.modSet, rest_modBst]

end Retired

/-! #### What a store leaves -/

/-- A store of bytes retires, and does nothing else. -/
def stored (s : State) (b : Nat) (f : Bool) (a : Nat) (l : List Byte) : State :=
  ((s.clocked b f).writeLocal b a l).retired b f ((s.cset b f).pc + 8)

section Stored

variable (s : State) (b : Nat) (f : Bool) (a : Nat) (l : List Byte)

theorem blk_stored_same : (stored s b f a l).blk b =
    { s.blk b with st := (((s.bst b).modSet f fun x => { x with cycles := x.cycles + x.issueClk }).write a l).modSet f fun x =>
      { x with pc := (s.cset b f).pc + 8, retired := x.retired + 1, wait := .none } } := by
  rw [stored, blk_retired_same, State.writeLocal, bst_modBst_same, bst_clocked, State.modBst, blk_modBlk_same, State.clocked,
    blk_modSet_same]

theorem blk_stored_ne {b' : Nat} (h : b' ≠ b) : (stored s b f a l).blk b' = s.blk b' := by
  rw [stored, blk_retired_ne _ _ _ _ h, State.writeLocal, State.modBst, blk_modBlk_ne _ _ h, State.clocked,
    blk_modSet_ne _ _ _ h]

theorem byte_stored_same (k : Nat) :
    ((stored s b f a l).bst b).byte k = if a ≤ k ∧ k < a + l.length then l.getD (k - a) 0 else (s.bst b).byte k := by
  rw [State.bst, blk_stored_same, byte_modSet, byte_write, byte_modSet]

theorem byte_stored_outside {b' x : Nat} (h : b' ≠ b ∨ x < a ∨ a + l.length ≤ x) :
    ((stored s b f a l).bst b').byte x = (s.bst b').byte x := by
  by_cases hb : b' = b
  · subst hb
    rw [byte_stored_same, if_neg (by omega)]
  · rw [State.bst, blk_stored_ne s b f a l hb, State.bst]

theorem cset_stored_same : (stored s b f a l).cset b f =
    { s.cset b f with cycles := (s.cset b f).cycles + (s.cset b f).issueClk, pc := (s.cset b f).pc + 8,
                      retired := (s.cset b f).retired + 1, wait := .none } := by
  rw [stored, cset_retired_same, cset_writeLocal, State.clocked, cset_modSet_same]

theorem cset_stored_ne {b' : Nat} {f' : Bool} (h : b' ≠ b ∨ f' ≠ f) : (stored s b f a l).cset b' f' = s.cset b' f' := by
  rw [stored, cset_retired_ne _ _ _ _ h, cset_writeLocal, State.clocked, cset_modSet_ne _ _ h]

theorem sreg_stored (n : Nat) : (stored s b f a l).sreg b f n = s.sreg b f n := by
  rw [State.sreg, cset_stored_same]
  rfl

theorem rest_stored : rest (stored s b f a l) = rest s := by
  rw [stored, rest_retired, State.writeLocal, rest_modBst, State.clocked, State.modSet, rest_modBst]

theorem sameRegs_stored : s.sameRegs (stored s b f a l) b := fun _ ho => by
  rw [stored, reg_retired_ne _ _ _ _ ho, State.writeLocal, reg_modBst, reg_clocked]

theorem sameElsewhere_stored : s.sameElsewhere (stored s b f a l) b f := by
  refine ⟨fun _ _ h => cset_stored_ne s b f a l h, ?_, fun _ h => blk_stored_ne s b f a l h, ?_, ?_,
    congrArg (fun u : State => { u with hbm := [], hbmPoison := [], tlb := [] }) (rest_stored s b f a l)⟩
  · rw [cset_stored_same]
    rfl
  · rw [blk_stored_same]
  · rw [State.bst, blk_stored_same]
    cases f <;> rfl

end Stored

/-! #### Loads and stores at issue -/

/-- The block-local loads, with their widths and whether they extend the sign. -/
def loads : List ((Nat → Bool → Word → Instr) × Nat × Bool) :=
  [(.ldlB, 1, true), (.ldlBu, 1, false), (.ldlH, 2, true), (.ldlHu, 2, false), (.ldlW, 4, true), (.ldlWu, 4, false),
    (.ldlD, 8, false)]

/-- The block-local stores, with their widths. -/
def stores : List ((Nat → Bool → Word → Instr) × Nat) := [(.stlB, 1), (.stlH, 2), (.stlW, 4), (.stlD, 8)]

theorem exec_loads : ∀ p ∈ loads, ∀ b f w s, exec (p.1 b f w) s = .next (s.ldl b f w p.2.1 p.2.2) := by
  unfold loads
  repeat refine List.forall_mem_cons.2 ⟨fun _ _ _ _ => rfl, ?_⟩
  exact List.forall_mem_nil _

theorem exec_stores : ∀ p ∈ stores, ∀ b f w s, exec (p.1 b f w) s = .next (s.stl b f w p.2) := by
  unfold stores
  repeat refine List.forall_mem_cons.2 ⟨fun _ _ _ _ => rfl, ?_⟩
  exact List.forall_mem_nil _

section Access

variable {s : State} {b : Nat} {f : Bool} {w : Word} {n : Nat} (h : s.issues b f)
include h

theorem ldl_faults {sx : Bool} {e : Nat} (he : localFault (s.effAddr b f w) n = some e) :
    s.ldl b f w n sx = s.faulted b f w e :=
  issue_faults h (by simp [he])

theorem stl_faults {e : Nat} (hd : wDst w = 0) (he : localFault (s.effAddr b f w) n = some e) :
    s.stl b f w n = s.faulted b f w e :=
  issue_faults h (by simp [hd, he])

theorem ldl_writes {sx : Bool} (hn : localFault (s.effAddr b f w) n = none)
    (hp : s.localPoisoned b (s.effAddr b f w) n = false) :
    s.ldl b f w n sx = s.wrote b f (wDst w)
      (if sx then BitVec.ofInt 64 (signed (8 * n) (leNat (s.localBytes b (s.effAddr b f w) n)))
       else BitVec.ofNat 64 (leNat (s.localBytes b (s.effAddr b f w) n))) := by
  have hq : (s.clocked b f).quiet := (quiet_clocked s b f).2 (quiet_of_issues h)
  refine issue_writes h ?_
  simp [hn, scratchCheck_quiet _ hq, readLocal_quiet _ hq ((localPoisoned_clocked s b f _ _).trans hp)]

theorem stl_stores (hd : wDst w = 0) (hn : localFault (s.effAddr b f w) n = none) :
    s.stl b f w n = stored s b f (s.effAddr b f w) (leBytes (s.sreg b f (wSb w)).toNat n) := by
  have h0 : (((s.clocked b f).writeLocal b (s.effAddr b f w) (leBytes (s.sreg b f (wSb w)).toNat n)).blk b).coreFails = 0 := by
    simp [State.writeLocal, State.modBst, coreFails_of_issues h]
  rw [State.stl, issue_issues _ _ _ _ _ h]
  simp [hd, hn, State.settleAct, retireTo_noFails _ _ _ _ h0, stored]

end Access

/-- The block-local accesses with their widths. -/
def accesses : List ((Nat → Bool → Word → Instr) × Nat) := loads.map (fun p => (p.1, p.2.1)) ++ stores

/-- A store of R169 as the statement names it. -/
def IsStore (i : Instr) (b : Nat) (f : Bool) (w : Word) : Prop :=
  i = .stlB b f w ∨ i = .stlH b f w ∨ i = .stlW b f w ∨ i = .stlD b f w

theorem isStore_of_mem_stores : ∀ p ∈ stores, ∀ b f w, IsStore (p.1 b f w) b f w := by
  unfold stores
  simp only [List.forall_mem_cons]
  exact ⟨fun _ _ _ => .inl rfl, fun _ _ _ => .inr (.inl rfl), fun _ _ _ => .inr (.inr (.inl rfl)),
    fun _ _ _ => .inr (.inr (.inr rfl)), List.forall_mem_nil _⟩

/-- A load, or a store whose DST is 0, that fails a check of its address raises that fault. -/
theorem accesses_fault {s : State} {b : Nat} {f : Bool} {w : Word} {e : Nat} :
    ∀ p ∈ accesses, s.issues b f → (IsStore (p.1 b f w) b f w → wDst w = 0) →
      localFault (s.effAddr b f w) p.2 = some e → exec (p.1 b f w) s = .next (s.faulted b f w e) := by
  intro p hp h hd he
  rcases List.mem_append.1 hp with hload | hstore
  · obtain ⟨q, hq, rfl⟩ := List.mem_map.1 hload
    rw [exec_loads q hq, ldl_faults h he]
  · rw [exec_stores p hstore, stl_faults h (hd (isStore_of_mem_stores p hstore b f w)) he]

/-- Settles O5: the address is checked first; past the checks a load reads its bytes and a store is `stored`. -/
theorem localAccesses : Obligations.LocalAccesses := by
  refine ⟨fun p hp b f w s h => ?_, fun p hp b f w s h hd => ?_, fun p hp b f w s h hd => ?_⟩
  · intro a v ha hr hpois
    rw [exec_loads p hp, ldl_writes h (localFault_eq_none ha hr) hpois]
    rfl
  · intro a ha hr
    have hl : (leBytes (s.sreg b f (wSb w)).toNat p.2).length = p.2 := length_leBytes _ _
    refine ⟨stored s b f a (leBytes (s.sreg b f (wSb w)).toNat p.2), ?_, fun i hi => ?_, fun b' x hx => ?_, ?_,
      sreg_stored s b f a _, sameHbm_of_rest (rest_stored s b f a _), sameElsewhere_stored s b f a _, sameRegs_stored s b f a _⟩
    · rw [exec_stores p hp, stl_stores h hd (localFault_eq_none ha hr)]
      rfl
    · rw [byte_stored_same, if_pos (by omega), Nat.add_sub_cancel_left, leBytes_getD hi]
    · exact byte_stored_outside s b f a _ (hl.symm ▸ hx)
    · rw [cset_stored_same]
  · exact ⟨fun ha => accesses_fault p hp h hd (localFault_of_unaligned ha),
      fun ha hr => accesses_fault p hp h hd (localFault_of_outside ha hr)⟩

end Sys2Proof.Proofs.BlockCore
